-- ==== Sys2Proof/Word.lean ====
section
/-!
DEFINITION. The word types of the Acquenar A8 model, the numbers that name its parts, and the small types that the
operands of its commands are made of.
-/
namespace Sys2Proof

abbrev Byte := BitVec 8
abbrev Half16 := BitVec 16
abbrev Word := BitVec 32
abbrev DWord := BitVec 64
/-- A set of lanes of one thread group; bit i is lane i (R33). -/
abbrev Mask := BitVec 64

/-- Core number 80·d + c: die d, die-local number c (R15, R16). -/
abbrev CoreIdx := Fin 640
/-- Group slot of a core (R36: at most 128). -/
abbrev SlotIdx := Fin 128
/-- Darbor die D0–D7. -/
abbrev DieIdx := Fin 8
/-- Die half 2·d + h, h = 0 for W and 1 for E (R16). -/
abbrev HalfIdx := Fin 16
/-- Ilkirun hub H0–H3. -/
abbrev HubIdx := Fin 4
/-- Bank of a cache half (R187). -/
abbrev BankIdx := Fin 16
/-- Memory controller: 3·d + s for the HBM3 controllers, 24 + 6·k + j for the LPDDR5X controllers. -/
abbrev CtrlIdx := Fin 48
/-- Partition 0–63 (R418). -/
abbrev PartIdx := Fin 64
/-- PCIe function: 0 the PF, v the VF v (R490, R491). -/
abbrev FnIdx := Fin 65
/-- Mailbox index (R338). -/
abbrev MbxIdx := Fin 67
/-- Submission queue (R373). -/
abbrev QueueIdx := Fin 4096
/-- Bundle (R315). -/
abbrev BundleIdx := Fin 21
/-- Mirror window (R473). -/
abbrev WinIdx := Fin 64

/-- The half a core lies in (R16). -/
def halfOfCore (c : CoreIdx) : HalfIdx := ⟨c.val / 40, by have := c.isLt; omega⟩
/-- The die a core lies in (R15, R16). -/
def dieOfCore (c : CoreIdx) : DieIdx := ⟨c.val / 80, by have := c.isLt; omega⟩
/-- The die of a half. -/
def dieOfHalf (h : HalfIdx) : DieIdx := ⟨h.val / 2, by have := h.isLt; omega⟩
/-- Die-local number c of a core (R16). -/
def localOfCore (c : CoreIdx) : Nat := c.val % 80
/-- Column of a core within its die (R16): lx = 5·h + (c mod 40) mod 5. -/
def lxOfCore (c : CoreIdx) : Nat := 5 * (localOfCore c / 40) + localOfCore c % 40 % 5
/-- Row of a core within its die (R16). -/
def lyOfCore (c : CoreIdx) : Nat := localOfCore c % 40 / 5
/-- Grid column x (R15). -/
def xOfCore (c : CoreIdx) : Nat := 10 * (c.val / 80 % 4) + lxOfCore c
/-- Grid row y (R15). -/
def yOfCore (c : CoreIdx) : Nat := 8 * (c.val / 80 / 4) + lyOfCore c

/-- The core at grid position (x, y), when there is one (R15, R16). -/
def coreAt (x y : Nat) : Option CoreIdx :=
  let d := x / 10 + 4 * (y / 8)
  let lx := x % 10
  let ly := y % 8
  let h := lx / 5
  let n := 80 * d + 40 * h + 5 * ly + (lx - 5 * h)
  if hn : x < 40 ∧ y < 16 ∧ n < 640 then some ⟨n, hn.2.2⟩ else none

/-- A thread group named by its core and its slot. -/
structure GroupRef where
  core : CoreIdx
  slot : SlotIdx
deriving DecidableEq, Repr

/-- The fields of one instruction unit below class and op, and its extension word when ext = 1 (R104). -/
structure Fields where
  d    : BitVec 8
  a    : BitVec 8
  b    : BitVec 8
  c    : BitVec 8
  pred : BitVec 3
  neg  : Bool
  ext  : Option DWord
  mod  : BitVec 15
deriving DecidableEq, Repr

/-- What awaits an answer for the target timeout: a request, or a descriptor row that waits for a page (R184, R185). -/
inductive TimeoutRef where
  | request (rid : Nat)
  | row (row : Nat)
deriving DecidableEq, Repr

/-- A PCIe configuration write that the spec gives a meaning (R487, R491, R492, R499, R500, R308, R309). -/
inductive CfgWrite where
  | bar4Base (addr : DWord)
  | bar4Size (log2 : Nat)
  | numVfs (n : Nat)
  | vfEnable
  | functionMask (on : Bool)
  | stu (v : BitVec 5)
  | atsEnable (on : Bool)
  | priEnable (on : Bool)
  | priAlloc (n : Nat)
  | priReset
deriving DecidableEq, Repr

/-- The four engines of a core (R29), as TOK.SET and TOK.WAIT name them. -/
inductive Engine where
  | s | v | m | d
deriving DecidableEq, Repr

/-- A wait that the barrier watchdog guards (R60). -/
inductive WaitKind where
  | barGroup
  | barCore (n : Fin 16)
  | tok (e : Engine)
deriving DecidableEq, Repr

/-- The register spaces that a host or a warden writes: internal control space (R366), BAR0 and BAR2 of a function. -/
inductive RegSpace where
  | ics
  | bar0 (fn : FnIdx)
  | bar2 (fn : FnIdx)
deriving DecidableEq, Repr

/-- What a read that leaves the module, or that Valac makes, brings back: the bytes, or a failure with its fault
kind (R543) and cause (R311). -/
inductive ReadResult where
  | data (bytes : List Byte)
  | fail (kind cause : Byte)
deriving DecidableEq, Repr

/-- What Valac's translation of a kernel image's virtual range finds (R295, R357): one range of module memory, a page marked
no-execute, or no such range. -/
inductive ImagePlace where
  | range (addr : Nat)
  | noExecute
  | broken
deriving DecidableEq, Repr

/-- What the error check of a home finds in the line of a request (R221, R222). -/
inductive Ecc where
  | good
  | corrected
  | badSector (k : Fin 4)
  | oneTag
  | bothTags
deriving DecidableEq, Repr

/-- What the error check of a memory controller finds in a sector (R274, R275). -/
inductive MemErr where
  | good
  | corrected
  | uncorrectable (kind : BitVec 2)
deriving DecidableEq, Repr

/-- A PCIe completion for a request of the module (R498). -/
inductive CplStatus where
  | data (bytes : List Byte)
  | poisoned (bytes : List Byte)
  | unsupported
  | aborted
deriving DecidableEq, Repr

/-- The response of the host to a page request (R309). -/
inductive PrgCode where
  | success | invalid | failure
deriving DecidableEq, Repr

/-- The four neighbour ports of a router (R226); port L is never a crossing. -/
inductive Port where
  | n | e | s | w
deriving DecidableEq, Repr

/-- A place with temperature sensors: a die half or a hub (R461). -/
inductive SensorLoc where
  | half (h : HalfIdx)
  | hub (k : HubIdx)
deriving DecidableEq, Repr

/-- A bundle port block (R336): a die edge, a hub side, or a side of a light engine. -/
inductive BndPort where
  | die (d : DieIdx) (p : Fin 3)
  | hub (k : HubIdx) (p : Fin 4)
  | engine (e : Fin 2) (p : Fin 2)
deriving DecidableEq, Repr

/-- An ARB block (R333), by the port it serves. -/
inductive ArbId where
  | tile (c : CoreIdx)
  | dmaIssue (c : CoreIdx)
  | bank (h : HalfIdx) (b : BankIdx)
  | memc (m : CtrlIdx)
  | seam (d : DieIdx) (eastToWest : Bool)
  | bnd (p : BndPort)
deriving DecidableEq, Repr

/-- A wire that a lane test finds bad (R326): bundle, direction, group and position. -/
structure BadWire where
  bundle    : BundleIdx
  direction : Bool
  group     : Fin 192
  position  : Fin 17
deriving DecidableEq, Repr

/-- A management frame as it arrives (R523): session, counter, whether its tag verifies, and its body. -/
structure MgmtFrame where
  session : DWord
  counter : DWord
  tagOk   : Bool
  body    : List Byte
deriving DecidableEq, Repr

/-- The SPDM transports (R520). -/
inductive SpdmPort where
  | doe | mgmt
deriving DecidableEq, Repr

/-- Little-endian value of a list of bytes (R6). -/
def leNat : List Byte → Nat
  | [] => 0
  | b :: bs => b.toNat + 256 * leNat bs

/-- The n little-endian bytes of a value (R6). -/
def leBytes : Nat → Nat → List Byte
  | 0, _ => []
  | n + 1, v => BitVec.ofNat 8 v :: leBytes n (v / 256)

end Sys2Proof
end

