-- ==== Sys2Proof/Syntax.lean ====
section
/-!
DEFINITION. The commands of the Acquenar A8 block: one constructor for each row of spec/opcode_table.json. A kernel
instruction names the group that issues it and the fields of its unit (R104); every other row names the unit it acts on
and what the outside world brings to it. A mailbox command (R353 to R363) has no operand: its bytes lie in the mailbox
buffer from which Valac copied it (R340).
-/
namespace Sys2Proof

inductive Instr where
  -- class 0x0, control (R117, R118)
  | bra (g : GroupRef) (u : Fields)
  | bri (g : GroupRef) (u : Fields)
  | call (g : GroupRef) (u : Fields)
  | ret (g : GroupRef) (u : Fields)
  | reconv (g : GroupRef) (u : Fields)
  | exit (g : GroupRef) (u : Fields)
  | nop (g : GroupRef) (u : Fields)
  | reservedClassUnit (g : GroupRef) (u : Fields) (unlisted : Bool)
  -- class 0x1, scalar integer (R119)
  | add (g : GroupRef) (u : Fields)
  | sub (g : GroupRef) (u : Fields)
  | mul (g : GroupRef) (u : Fields)
  | mulhiU (g : GroupRef) (u : Fields)
  | mulhiS (g : GroupRef) (u : Fields)
  | and (g : GroupRef) (u : Fields)
  | or (g : GroupRef) (u : Fields)
  | xor (g : GroupRef) (u : Fields)
  | shl (g : GroupRef) (u : Fields)
  | shr (g : GroupRef) (u : Fields)
  | sar (g : GroupRef) (u : Fields)
  | minS (g : GroupRef) (u : Fields)
  | maxS (g : GroupRef) (u : Fields)
  | minU (g : GroupRef) (u : Fields)
  | maxU (g : GroupRef) (u : Fields)
  | scmp (g : GroupRef) (u : Fields)
  -- class 0x2, uniform moves (R122)
  | mov (g : GroupRef) (u : Fields)
  | movi (g : GroupRef) (u : Fields)
  | ldk (g : GroupRef) (u : Fields)
  | t2u (g : GroupRef) (u : Fields)
  -- class 0x3, vector integer (R124)
  | iadd (g : GroupRef) (u : Fields)
  | isub (g : GroupRef) (u : Fields)
  | imul (g : GroupRef) (u : Fields)
  | imulhiU (g : GroupRef) (u : Fields)
  | imulhiS (g : GroupRef) (u : Fields)
  | imula (g : GroupRef) (u : Fields)
  | vAnd (g : GroupRef) (u : Fields)
  | vOr (g : GroupRef) (u : Fields)
  | vXor (g : GroupRef) (u : Fields)
  | vShl (g : GroupRef) (u : Fields)
  | vShr (g : GroupRef) (u : Fields)
  | vSar (g : GroupRef) (u : Fields)
  | iminS (g : GroupRef) (u : Fields)
  | imaxS (g : GroupRef) (u : Fields)
  | iminU (g : GroupRef) (u : Fields)
  | imaxU (g : GroupRef) (u : Fields)
  | icmp (g : GroupRef) (u : Fields)
  | pick (g : GroupRef) (u : Fields)
  | iaddP16 (g : GroupRef) (u : Fields)
  | isubP16 (g : GroupRef) (u : Fields)
  | bitcnt (g : GroupRef) (u : Fields)
  | clz (g : GroupRef) (u : Fields)
  | vMov (g : GroupRef) (u : Fields)
  | xlane (g : GroupRef) (u : Fields)
  | bcast (g : GroupRef) (u : Fields)
  | tally (g : GroupRef) (u : Fields)
  | gred (g : GroupRef) (u : Fields)
  -- class 0x4, vector float (R125)
  | fadd (g : GroupRef) (u : Fields)
  | fsub (g : GroupRef) (u : Fields)
  | fmul (g : GroupRef) (u : Fields)
  | fmula (g : GroupRef) (u : Fields)
  | fmin (g : GroupRef) (u : Fields)
  | fmax (g : GroupRef) (u : Fields)
  | fcmp (g : GroupRef) (u : Fields)
  | fabs (g : GroupRef) (u : Fields)
  | fneg (g : GroupRef) (u : Fields)
  | frcp (g : GroupRef) (u : Fields)
  | fsqrt (g : GroupRef) (u : Fields)
  | frsq (g : GroupRef) (u : Fields)
  | fexp2 (g : GroupRef) (u : Fields)
  | flog2 (g : GroupRef) (u : Fields)
  | pmula2 (g : GroupRef) (u : Fields)
  | padd2 (g : GroupRef) (u : Fields)
  | pmul2 (g : GroupRef) (u : Fields)
  | gredf (g : GroupRef) (u : Fields)
  -- class 0x5, conversion and packing (R128)
  | cvt (g : GroupRef) (u : Fields)
  | cvtPk2 (g : GroupRef) (u : Fields)
  | cvtIns (g : GroupRef) (u : Fields)
  | unpk (g : GroupRef) (u : Fields)
  -- classes 0x6 and 0x7, loads, stores and atomics (R131)
  | ld (g : GroupRef) (u : Fields)
  | ldt (g : GroupRef) (u : Fields)
  | st (g : GroupRef) (u : Fields)
  | stt (g : GroupRef) (u : Fields)
  | atom (g : GroupRef) (u : Fields)
  | atomCas (g : GroupRef) (u : Fields)
  -- class 0x8, cache operations (R133), and class 0x9, reduction-to-line (R134)
  | cpref (g : GroupRef) (u : Fields)
  | cflush (g : GroupRef) (u : Fields)
  | cinv (g : GroupRef) (u : Fields)
  | cdisc (g : GroupRef) (u : Fields)
  | redAdd (g : GroupRef) (u : Fields)
  | redMax (g : GroupRef) (u : Fields)
  | redMin (g : GroupRef) (u : Fields)
  -- class 0xA, matrix (R79, R135), and the steps of the matrix engine (R84, R85)
  | mloadp (g : GroupRef) (u : Fields)
  | mstream (g : GroupRef) (u : Fields)
  | mdrain (g : GroupRef) (u : Fields)
  | matrixLoadStart (c : CoreIdx)
  | matrixLoadComplete (c : CoreIdx)
  | matrixStreamStart (c : CoreIdx)
  | matrixStreamComplete (c : CoreIdx)
  | matrixDrainComplete (c : CoreIdx)
  -- class 0xB, DMA (R136, R137): the queue entry at position i
  | dmaIssue (g : GroupRef) (u : Fields)
  | dmaCopy (c : CoreIdx) (i : Fin 16)
  | dmaFill (c : CoreIdx) (i : Fin 16)
  | dmaPrefetch (c : CoreIdx) (i : Fin 16)
  | dmaFlush (c : CoreIdx) (i : Fin 16)
  | dmaInvalidate (c : CoreIdx) (i : Fin 16)
  | dmaDiscard (c : CoreIdx) (i : Fin 16)
  | dmaDescriptorComplete (c : CoreIdx) (i : Fin 16)
  -- class 0xC, synchronisation (R139)
  | fence (g : GroupRef) (u : Fields)
  | fenceComplete (g : GroupRef)
  | barGroup (g : GroupRef) (u : Fields)
  | barCore (g : GroupRef) (u : Fields)
  | tokSet (g : GroupRef) (u : Fields)
  | tokSetTakesEffect (g : GroupRef) (e : Engine)
  | tokWait (g : GroupRef) (u : Fields)
  | tokWaitRelease (g : GroupRef) (e : Engine)
  | ldres (g : GroupRef) (u : Fields)
  | stcond (g : GroupRef) (u : Fields)
  -- class 0xD, mesh send and receive (R140, R231)
  | msend (g : GroupRef) (u : Fields)
  | mrecv (g : GroupRef) (u : Fields)
  | meshQueueWaitDone (g : GroupRef)
  | meshWaitLimit (g : GroupRef)
  -- class 0xE, system (R141)
  | cntr (g : GroupRef) (u : Fields)
  | merr (g : GroupRef) (u : Fields)
  | rinseSet (g : GroupRef) (u : Fields)
  | rinseClr (g : GroupRef) (u : Fields)
  -- groups and cores (R59, R60, R66)
  | groupEnd (g : GroupRef)
  | coreStart (c : CoreIdx)
  | coreStop (c : CoreIdx)
  | coreTeardown (c : CoreIdx)
  | coreClearComplete (c : CoreIdx)
  | coreDrainComplete (c : CoreIdx)
  | barrierDeadlock (g : GroupRef) (w : WaitKind)
  -- counter clears: the value written to the clear register (R71, R103, R224, R253, R287, R313, R314, R336, R337, R464, R486)
  | coreCntClear (c : CoreIdx) (v : Word)
  | mtxCntClear (c : CoreIdx) (v : Word)
  | meshCntClear (c : CoreIdx) (v : Word)
  | xlatCoreCntClear (c : CoreIdx) (v : Word)
  | cacheCntClear (h : HalfIdx) (v : Word)
  | memcCntClear (m : CtrlIdx) (v : Word)
  | xlatCntClear (d : DieIdx) (v : Word)
  | bndCntClear (p : BndPort) (v : Word)
  | arbCtrlClear (p : ArbId) (v : Word)
  | stewCntClear (h : HalfIdx) (v : Word)
  | specCntClear (v : Word)
  -- reads that clear (RC) and writes that clear (W1C) (R7)
  | coreStackMaxRead (c : CoreIdx)
  | missregHwmRead (h : HalfIdx) (b : BankIdx)
  | evrDroppedRead (fn : FnIdx)
  | cacheErrStatusClear (h : HalfIdx) (v : Word)
  | memcErrStatusClear (m : CtrlIdx) (v : Word)
  | meshFaultClear (c : CoreIdx) (v : Word)
  | arbCutoffClear (p : ArbId) (r : Fin 64)
  | hstRefusedClear (v : Word)
  | mbxOverrunClear (m : MbxIdx) (v : Word)
  -- register writes (R7, R9, R22, R563)
  | registerWrite (sp : RegSpace) (off : Nat) (data : List Byte)
  | cacheWaymaskWrite (h : HalfIdx) (p : PartIdx) (v : Word)
  | cacheCfgWrite (h : HalfIdx) (v : Word)
  | cacheReplicaChangeDone (h : HalfIdx)
  | cacheSweepStart (h : HalfIdx) (v : DWord)
  | sweepComplete (h : HalfIdx)
  | meshCtrlWrite (c : CoreIdx) (v : Word)
  | arbWaitLimitWrite (p : ArbId) (v : Word)
  | arbHoldLimitWrite (p : ArbId) (v : Word)
  -- write buffers, reservations and home slices; rid is a request in the fabric, line the address of a line (R160 to R223)
  | writeBufferEntryRelease (c : CoreIdx) (i : Fin 32)
  | reservationTimeout (g : GroupRef)
  | homeLoad (rid : Nat) (e : Ecc)
  | homeWrite (rid : Nat)
  | homeAtomic (rid : Nat)
  | homeReduction (rid : Nat)
  | homeLdres (rid : Nat)
  | homeStcond (rid : Nat)
  | homeDeviceAccess (rid : Nat)
  | homeRangeLineOp (rid : Nat)
  | sectorsArrive (line : Nat) (e : Ecc)
  | replicaLookup (rid : Nat)
  | forwardReceive (rid : Nat)
  | forwardMiss (rid : Nat)
  | replicaFillArrive (d : DieIdx) (line : Nat)
  | replicaFillAck (d : DieIdx) (line : Nat)
  | replicaInvalidate (d : DieIdx) (line : Nat)
  | invalidationAck (d : DieIdx) (line : Nat)
  | evictionNotice (d : DieIdx) (line : Nat)
  -- memory controllers, needle path, flash, washer, repair (R220, R267 to R285)
  | memcRequest (m : CtrlIdx) (e : MemErr)
  | menderApply (m : CtrlIdx)
  | needleRead (rid : Nat)
  | needleBucketIssue (m : CtrlIdx) (bucket : Nat)
  | flashWriteAccept (rid : Nat)
  | flashReadComplete (rid : Nat) (badCodewords : BitVec 4)
  | washerSector (h : HalfIdx) (sector : Nat) (e : MemErr)
  | repairComplete (h : HalfIdx) (ok : Bool)
  -- scheduled mesh (R230 to R240)
  | meshRouterSlot (c : CoreIdx)
  | meshStart (d : DieIdx)
  | crossingFlitArrive (c : CoreIdx) (p : Port) (vc : Fin 4)
  -- bundles and arbiters (R318 to R334)
  | bundleFlitReceive (b : BundleIdx) (dir : Bool) (seq : BitVec 9) (crcOk : Bool) (ack : Option (BitVec 9))
  | bundleNak (b : BundleIdx) (dir : Bool) (seq : BitVec 9)
  | bundleCredit (b : BundleIdx) (dir : Bool) (counts : List Byte)
  | bundleReplayTimeout (b : BundleIdx) (dir : Bool)
  | bundleRetrain (b : BundleIdx)
  | bundleRetrainDone (b : BundleIdx) (bad : List BadWire)
  | bundleLost (b : BundleIdx)
  | seamUe (d : DieIdx)
  | portCutoff (p : ArbId) (r : Fin 64)
  -- translation (R295 to R311); row is a descriptor row or a page of a PIN that waits for its translation
  | walkComplete (row : Nat) (entries : List DWord) (casOk : Bool)
  | atsCompletion (row : Nat) (ok r w u : Bool) (size : Nat) (addr : DWord)
  | pageRequestSend (row : Nat)
  | priResponse (fn : FnIdx) (prgi : Nat) (code : PrgCode)
  | priTimeout (row : Nat)
  | atsInvalidateRequest (fn : FnIdx) (pasid : BitVec 20) (global : Bool) (addr : DWord) (size : Nat)
  | atsInvalidateComplete (fn : FnIdx)
  | targetTimeout (t : TimeoutRef)
  -- mailboxes (R338 to R351)
  | mbxDoorbell (m : MbxIdx) (v : Word)
  | commandAccept
  -- mailbox commands (R353 to R363) and what completes them
  | identify
  | getStatus
  | echo
  | partCreate
  | partResize
  | partResizeTakesEffect (p : PartIdx)
  | partQuiesce
  | partQuiesceComplete (p : PartIdx)
  | partResume
  | partReset
  | partResetComplete (p : PartIdx)
  | partDestroy
  | partDestroyComplete (p : PartIdx)
  | partQuery
  | ctxCreate
  | ctxDestroy
  | ctxSetWatchdog
  | regionSet
  | granuleTag
  | shareGroupSet
  | formatSet
  | pin
  | pinComplete
  | unpin
  | invalidate
  | reloadAdd
  | reloadRemove
  | flashTrim
  | setTimeouts
  | cacheReplicaSet
  | washPeriodSet
  | queueCreate
  | queueDestroy
  | queueHalt
  | queueResume
  | undeliverableDrain
  | queueQuery
  | cringCreate
  | kernelRegister
  | kernelRegisterComplete (p : ImagePlace)
  | kernelRelease
  | graphStore
  | graphPatch
  | graphCheckComplete (image : ReadResult)
  | graphRelease
  | abort
  | abortStopTimeout (launch : DWord)
  | meridianSource
  | meridianRead
  | almanacQuery
  | powerLimit
  | rinseRamp
  | pstepRange
  | powerQuery
  | pair
  | unpair
  | mirrorSet
  | epochClose
  | takeoverStatus
  | fwStage
  | fwStageClaimTimeout
  | fwCommit
  | fwCommitComplete (programmed : Bool)
  | secFloorRaise
  | pairIdSet
  | darnAmend
  | patchAmend
  | mgmtIdLock
  | boundQuery
  | auditRead
  | regRead
  | regWrite
  | logRead
  | telemetryRead
  | arrayTest
  | arrayTestComplete (failing : List (Nat × Nat))
  | warmReset (failStep : Option (Nat × Nat × Nat)) (bad : List BadWire)
  | regionSetComplete
  | granuleTagComplete
  | flashTrimComplete
  -- event rings (R369 to R372)
  | evrCtrlWrite (fn : FnIdx) (v : Word)
  | evrHeadWrite (fn : FnIdx) (v : Word)
  -- queues, launches and graphs (R375 to R400)
  | qdbTailWrite (q : QueueIdx) (v : Word)
  | launchConsume (q : QueueIdx) (desc : ReadResult)
  | launchStart (launch : DWord)
  | semaphorePoll (launch : DWord) (word : ReadResult)
  | launchCommit (launch : DWord) (signal : ReadResult) (record : ReadResult)
  | completionRingRecheck (q : QueueIdx) (headWord : ReadResult)
  | graphLayerStart (launch : DWord)
  | timeLimitExpiry (launch : DWord)
  | beTurnExpiry (p : PartIdx)
  -- meridian and transits (R402 to R415)
  | meridianBeat
  | ptpMeasurement (offset : Int) (arb : Bool)
  | meridianMeasurementLoss
  | meridianBeatLoss (d : DieIdx)
  | transitGuard (launch : DWord)
  | transitStart (launch : DWord)
  -- power (R441 to R462)
  | regulatorSample (watts vinMv iinMa : Nat)
  | rinseEnvelope (work capacity : Nat)
  | capLoop
  | capUnitChange
  | prerampLaunchStart (launch : DWord)
  | pstepVoltageArrived (h : HalfIdx)
  | droopAssert (h : HalfIdx) (overBudget : Bool)
  | droopDeassert (h : HalfIdx)
  | pstepResume (h : HalfIdx) (delayNs : Nat)
  | thermalSample (l : SensorLoc) (temps : List (BitVec 16))
  | throttleStep (h : HalfIdx)
  | thermalTrip (l : SensorLoc) (sensor : Fin 8) (reading : BitVec 16)
  -- speculum and twin (R465 to R485)
  | specFlitReceive (seq : BitVec 16) (crcOk : Bool) (ack : Option (BitVec 16))
  | specNak (seq : BitVec 16)
  | specReplayTimeout
  | specLaneFail (lane : Fin 18)
  | heartbeatSend
  | heartbeatReceive (peerState : Fin 5) (peerSource : Fin 3) (offset : Int)
  | twinLost
  | pairTrainingDone (rate : Fin 3)
  | pairTrainingRetry (tenSeconds : Bool)
  | pairingMessage (chainOk keyOk versionOk signatureOk peerAccepts : Bool) (secver : Byte) (serial : List Byte)
  | unpairNotice
  | windowOffer (w : WinIdx) (mode : Fin 3) (lag start len : Nat)
  | epochWriteRecord (w : WinIdx) (line : Nat) (data : List (Nat × Byte))
  | syncWriteRecord (w : WinIdx) (tag : Word) (line : Nat) (data : List (Nat × Byte))
  | syncAck (tag : Word)
  | epochCloseRecord (w : WinIdx) (epoch : Nat)
  | epochApplied (w : WinIdx) (epoch : Nat) (withinLag : Bool)
  | reloadRequest (tag : Word) (addr : Nat)
  | reloadData (tag : Word) (data : Option (List Byte))
  -- host attachment (R487 to R504)
  | hostConfigRequest (fn : FnIdx) (w : Option CfgWrite)
  | bar4Read (fn : FnIdx) (off len : Nat)
  | bar4Write (fn : FnIdx) (off : Nat) (data : List Byte) (poisoned relaxed : Bool)
  | bar4AtomicOp (fn : FnIdx) (off : Nat)
  | hstApertureBaseWrite (v : DWord)
  | hostCompletion (rid : Nat) (r : CplStatus)
  | vfFlr (v : Fin 64)
  | pfFlr
  | hotReset
  | vfEnableClear
  | hostLinkTrain (rate : Fin 8) (lanes : BitVec 16) (retries : Nat)
  | msixUnmask (fn : FnIdx) (vector : Nat)
  -- management port (R520 to R526)
  | spdmRequest (t : SpdmPort) (code : Byte) (body : List Byte)
  | hello (body : List Byte)
  | prove (f : MgmtFrame)
  | command (f : MgmtFrame)
  | eventAck (f : MgmtFrame)
  | close (f : MgmtFrame)
  | eventResend (number : Nat)
  | mgmtSessionIdle
  -- start-up, power input and the logbook (R531 to R551)
  | standbyPowerGood (pufOk recordsOk : Bool)
  | pwrEnAssert (failStep : Option (Nat × Nat × Nat)) (bad : List BadWire)
  | pwrEnDeassert
  | standbyPowerLost
  | inputUndervoltage (mv : Nat)
  | inputOvervoltage
  | mainRegulatorFault
  | logFlush
  | inputWithinRange
  | mainPowerOff
  | thermTripRearm
  | managementPortLink (up : Bool)
  | badBlockRetired (k : HubIdx) (channel : Fin 16) (sparePct wearPct : Byte) (exhausted : Bool)
deriving DecidableEq, Repr

end Sys2Proof
end

