-- ==== Sys2Proof/Config.lean ====
section
/-!
DEFINITION. What the spec leaves to one implementation or leaves open: free values and uninterpreted functions. None of
them has a body, so no proof can lean on a value of one.
-/
namespace Sys2Proof

/-- A free value: the n-th value that the spec leaves open in a run; State.free counts them (assumption 3). -/
opaque Config.freeNat : Nat → Nat
/-- Digest of Pazina's root public key in mask ROM (R512 check 2), 64 B. -/
opaque Config.rootDigest : List Byte
/-- Falcon-1024 verification: public key, digest signed, signature (R511, R525). -/
opaque Config.falconVerify : List Byte → List Byte → List Byte → Bool
/-- Falcon-1024 signature with the identity key (R517, R523). -/
opaque Config.falconSign : List Byte → List Byte
/-- ML-KEM-1024 encapsulation to a key with a seed: ciphertext (R523). -/
opaque Config.mlkemCipher : List Byte → Nat → List Byte
/-- The mask ROM contents' digest (R521 index 1). -/
opaque Config.romDigest : List Byte
/-- The certificate chain of R519 in DER. -/
opaque Config.certChain : List Byte
/-- What the estimator of a half reads: half, beat, in 0.1 W (R447). -/
opaque Config.estimate : Nat → Nat → Nat

end Sys2Proof
end

