-- ==== Sys2Proof/Machine/SMap.lean ====
section
/-!
DEFINITION. Sparse maps from numbers to values: a list of key and value pairs in one canonical form (keys strictly rising,
no entry equal to what an unlisted key reads as), so that equal contents are equal data. Memory has this form too.
-/
namespace Sys2Proof.Machine

/-- A sparse map; every reader names the default that an unlisted key reads as. -/
abbrev SMap (α : Type) := List (Nat × α)

/-- The value at key `k`, the default `d` when none is listed. -/
def SMap.get {α : Type} (d : α) : SMap α → Nat → α
  | [], _ => d
  | (a, x) :: r, k => if a = k then x else SMap.get d r k

/-- `m` with the listed value `v` at key `k`. -/
def SMap.insert {α : Type} : SMap α → Nat → α → SMap α
  | [], k, v => [(k, v)]
  | (a, x) :: r, k, v =>
    if a < k then (a, x) :: SMap.insert r k v
    else if a = k then (k, v) :: r
    else (k, v) :: (a, x) :: r

/-- `m` with `v` at key `k`; storing the default removes the entry. -/
def SMap.set {α : Type} [DecidableEq α] (d : α) (m : SMap α) (k : Nat) (v : α) : SMap α :=
  if v = d then m.filter fun e => e.1 != k else SMap.insert m k v

/-- Every key listed lies above `lo` (when there is one), keys rise strictly, and no entry holds the default. -/
def SMap.wfFrom {α : Type} [DecidableEq α] (d : α) : Option Nat → SMap α → Bool
  | _, [] => true
  | lo, (a, x) :: r =>
    (match lo with | none => true | some l => decide (l < a)) && !decide (x = d) && SMap.wfFrom d (some a) r

/-- The canonical form. -/
def SMap.wf {α : Type} [DecidableEq α] (d : α) (m : SMap α) : Bool := SMap.wfFrom d none m

/-- Read-modify-write of one key. -/
def SMap.upd {α : Type} [DecidableEq α] (d : α) (m : SMap α) (k : Nat) (f : α → α) : SMap α :=
  SMap.set d m k (f (SMap.get d m k))

/-- Remove every listed key that does not satisfy `p`. -/
def SMap.keep {α : Type} : SMap α → (Nat → α → Bool) → SMap α
  | [], _ => []
  | (a, x) :: r, p => if p a x then SMap.insert (SMap.keep r p) a x else (SMap.keep r p).filter fun e => e.1 != a

/-- Change every listed value; entries that become the default go. -/
def SMap.mapV {α : Type} [DecidableEq α] (d : α) : SMap α → (Nat → α → α) → SMap α
  | [], _ => []
  | (a, x) :: r, f => SMap.set d (SMap.mapV d r f) a (f a x)

/-- Write the bytes `bs` at keys `k`, `k + 1`, … -/
def SMap.putBytes (m : SMap Byte) (k : Nat) : List Byte → SMap Byte
  | [] => m
  | b :: bs => SMap.putBytes (SMap.set 0 m k b) (k + 1) bs

/-- The `n` bytes from key `k` on. -/
def SMap.getBytes (m : SMap Byte) : Nat → Nat → List Byte
  | _, 0 => []
  | k, n + 1 => SMap.get 0 m k :: SMap.getBytes m (k + 1) n

end Sys2Proof.Machine
end

