-- ==== Sys2Proof/Machine/CoreState.lean ====
section
/-!
DEFINITION. The state of one Darbor core: its thread groups, its matrix engine, its DMA engine, its write buffer and
read-only L1, its control block registers and its mesh router (chapters 02, 03, 04, 05 and 07 of the spec).
-/
namespace Sys2Proof.Machine

/-- An entry of the reconvergence stack (R51): address, lanes, and whether CALL pushed it (R118). -/
structure StackEntry where
  addr   : DWord
  mask   : Mask
  isCall : Bool
deriving DecidableEq, Repr

/-- The reservation a group holds (R175). -/
structure Reservation where
  /-- Physical address of the LDRES. -/
  pa      : Nat
  /-- First byte and length of the reserved granule. -/
  base    : Nat
  len     : Nat
  /-- Core cycles since the LDRES (R176 item 5). -/
  age     : Nat
deriving DecidableEq, Repr

/-- Where an instruction issued: what the fault registers record of it (R67). -/
structure Site where
  slot   : Nat
  pc     : DWord
  active : Mask
  live   : Mask
deriving DecidableEq, Repr

/-- What an MSEND or MRECV still waits for (R231). -/
structure MeshWait where
  isSend  : Bool
  tile    : Bool
  stream  : Nat
  /-- Register form: the destination register of MRECV and the taking lanes. -/
  dreg    : Nat
  lanes   : Mask
  /-- Flits still to place: 64 B payloads in order, with red and rtype. -/
  flits   : List (List Byte)
  red     : Bool
  bf16    : Bool
  /-- Tile form of MRECV: next tile address and bytes still to come. -/
  addr    : Nat
  left    : Nat
  /-- Core cycles of this wait (R231). -/
  waited  : Nat
  site    : Site
deriving DecidableEq, Repr

/-- What a fence waits for (R165): requests and queue entries of the group, and its scope and kind. -/
structure FenceWait where
  scope   : Nat
  kind    : Nat
  reqs    : List Nat
  entries : List Nat
deriving DecidableEq, Repr

/-- A TOK.SET of the scalar or vector engine that waits for earlier instructions of its group (R62). -/
structure TokSet where
  engine : Engine
  token  : Nat
  reqs   : List Nat
deriving DecidableEq, Repr

/-- Threads that wait at a barrier (R57, R58): the barrier (none for BAR.GROUP), the lanes and the pc they go on from. -/
structure Arrival where
  number : Option Nat
  mask   : Mask
  pc     : DWord
deriving DecidableEq, Repr

/-- A thread group in a slot (R35, R36, R38, R40, R51, R53, R62). -/
structure Group where
  occupied : Bool := false
  /-- Linear index of the group in the grid (R112). -/
  index    : Nat := 0
  /-- Byte offset of the next instruction within the code section. -/
  pc       : DWord := 0
  active   : Mask := 0
  live     : Mask := 0
  /-- Innermost entry first. -/
  stack    : List StackEntry := []
  /-- Stacked paths that have not run yet, next first. -/
  paths    : List (DWord × Mask) := []
  /-- t registers, keyed 256·lane + n. -/
  t        : SMap Word := []
  u        : SMap DWord := []
  /-- p1 to p7: the lanes where the predicate is 1. -/
  p        : SMap Mask := []
  tokens   : SMap Nat := []
  sets     : List TokSet := []
  /-- TOK.WAITs of the scalar and vector engines that block that engine for the group: engine, token, and their address in
  the image (R62, R67). -/
  tokWaits : List (Engine × Nat × DWord) := []
  arrivals : List Arrival := []
  fence    : Option FenceWait := none
  mesh     : Option MeshWait := none
  resv     : Option Reservation := none
  /-- Core cycles of each open wait, keyed by waitKey (R60). -/
  waits    : SMap Nat := []
deriving DecidableEq, Repr

/-- What an entry of the matrix command queue does (R79, R30). -/
inductive MtxOp where
  | load (ua : DWord) (plane : Bool) (kind : Nat)
  | stream (ua ub uc : DWord) (mod : BitVec 15)
  | drain (ua ub uc : DWord) (mod : BitVec 15)
  | tokSet (n : Nat)
  | tokWait (n : Nat)
deriving DecidableEq, Repr

/-- An entry of the matrix command queue, with what R67 keeps from its issue. -/
structure MtxEntry where
  uid     : Nat
  op      : MtxOp
  started : Bool
  /-- MSTREAM: the columns passed to the drain, (vector index, 64 values), in the order passed (R83, R84). -/
  cols    : List (Nat × List Word)
  slot    : Nat
  pc      : DWord
  active  : Mask
  live    : Mask
deriving DecidableEq, Repr

/-- A stationary plane (R72, R73, R87): its kind, its words keyed 64·row + column, and whether a load has completed. -/
structure Plane where
  kind   : Nat := 0
  words  : SMap Word := []
  loaded : Bool := false
deriving DecidableEq, Repr

/-- A DMA descriptor as the front end copied it (R137). -/
structure DmaDesc where
  op        : Nat
  srcTile   : Bool
  dstTile   : Bool
  ro        : Bool
  tag       : Nat
  rowBytes  : Nat
  src       : DWord
  dst       : DWord
  rows      : Nat
  srcStride : DWord
  dstStride : DWord
  fill      : DWord
deriving DecidableEq, Repr

/-- What an entry of the DMA queue is (R30). -/
inductive DmaWork where
  | desc (d : DmaDesc)
  | tokSet (n : Nat)
  | tokWait (n : Nat)
deriving DecidableEq, Repr

/-- An entry of the DMA queue: the work, how many bytes of it have been taken up, the translation row it stalls on
(R309), and what R67 keeps from its issue. -/
structure DmaEntry where
  uid    : Nat
  work   : DmaWork
  taken  : Nat
  stall  : Option Nat
  slot   : Nat
  pc     : DWord
  active : Mask
  live   : Mask
deriving DecidableEq, Repr

/-- Where a translated address points (R297, R299). -/
inductive OutKind where
  | module | hostTranslated | hostUntranslated
deriving DecidableEq, Repr

/-- A write buffer entry (R160): the line's physical address, the byte enables with their bytes, the groups that hold
bytes in it, and the agent identity its request will carry. -/
structure WbEntry where
  line   : Nat
  bytes  : SMap (Option Byte)
  groups : List Nat
  part   : Nat
  ctx    : Nat
  tag    : Nat
  site   : Site
  /-- Host memory or module memory (R193). -/
  kind   : OutKind
  /-- Core cycles since its allocation. -/
  age    : Nat
  /-- Virtual address of the first store that allocated it. -/
  va     : Nat
deriving DecidableEq, Repr

/-- A line of the read-only L1 (R49): 128 B by physical line address. -/
structure L1Line where
  line   : Nat
  bytes  : List Byte
deriving DecidableEq, Repr

/-- An entry of a translation cache, or a pinned leaf (R299, R302): the page of `size` bytes at `va` lies at `out`. -/
structure TlbEntry where
  ctx      : Nat
  va       : Nat
  size     : Nat
  out      : Nat
  kind     : OutKind
  writable : Bool
  attr     : Nat
  pinned   : Bool
deriving DecidableEq, Repr

/-- CORE_STATUS.state (R66). -/
inductive CoreMode where
  | idle | clearing | running | draining | faulted
deriving DecidableEq, Repr

/-- CORE_FAULT_INFO, CORE_FAULT_PC and the fault masks (R67). -/
structure CoreFault where
  valid  : Bool := false
  more   : Bool := false
  group  : Nat := 0
  detail : Nat := 0
  kind   : Nat := 0
  pc     : DWord := 0
  active : Mask := 0
  live   : Mask := 0
deriving DecidableEq, Repr

/-- The kernel of a core as its verified image declares it (R144, R145). -/
structure KernelInfo where
  entry      : Nat := 0
  codeBytes  : Nat := 0
  poolOff    : Nat := 0
  poolBytes  : Nat := 0
  usesMatrix : Bool := false
  usesMesh   : Bool := false
  ftz        : Bool := false
  priv       : Bool := false
  meshSlots  : Nat := 0
deriving DecidableEq, Repr

/-- A core's share of a grid (R111, R35). -/
structure Share where
  first      : Nat := 0
  groups     : Nat := 0
  gridGroups : Nat := 0
  /-- Threads of the whole grid. -/
  threads    : Nat := 0
  rank       : Nat := 0
  launch     : DWord := 0
  /-- Groups of the share that have been placed in slots. -/
  placed     : Nat := 0
deriving DecidableEq, Repr

/-- A flit on the scheduled mesh (R226): valid is its being there. -/
structure Flit where
  red    : Bool
  bf16   : Bool
  stream : Nat
  bytes  : List Byte
deriving DecidableEq, Repr

/-- MESH_FAULT (R233). -/
structure MeshFault where
  valid  : Bool := false
  stream : Nat := 0
  port   : Nat := 0
  slot   : Nat := 0
  cause  : Nat := 0
deriving DecidableEq, Repr

/-- A core's mesh router (R226 to R240). Ports are numbered 0 N, 1 E, 2 S, 3 W. -/
structure Router where
  /-- MESH_CTRL.run, .lc and .edge; cross follows from the position. -/
  run      : Bool := false
  lc       : Bool := false
  edge     : BitVec 4 := 0xF
  /-- MESH_STATUS.running. -/
  running  : Bool := false
  /-- Slots taken since the start; the slot number is this modulo mesh_slots. -/
  slots    : Nat := 0
  /-- MESH_SLOTS and MESH_START. -/
  meshSlots : Nat := 0
  start    : DWord := 0
  fault    : MeshFault := {}
  /-- Flits on the way to a neighbour input: port, slot in which they arrive, flit. -/
  inputs   : List (Nat × Nat × Flit) := []
  /-- Send and receive queues by stream. -/
  sendQ    : SMap (List Flit) := []
  recvQ    : SMap (List Flit) := []
  /-- Crossing queues and buffers, keyed 4·port + VC, oldest first. -/
  crossQ   : SMap (List Flit) := []
  crossB   : SMap (List Flit) := []
  /-- MESH_CNT_*, in table order. -/
  counters : SMap DWord := []
deriving DecidableEq, Repr

/-- One core: control block, engines, stores on their way, L1, router. -/
structure Core where
  mode       : CoreMode := .idle
  stopPending : Bool := false
  /-- Core cycles spent in CLEARING (R66). -/
  clearCount : Nat := 0
  /-- Context and partition of the last kernel (R48). -/
  lastCtx    : Option (Nat × Nat) := none
  /-- CORE_CTX. -/
  partition  : Nat := 0
  context    : Nat := 0
  /-- CORE_KERNEL_BASE and CORE_SCHED_BASE, as addresses. -/
  kernelBase : Nat := 0
  schedBase  : Nat := 0
  /-- CORE_KCFG. -/
  tilePages  : Nat := 0
  uniforms   : Nat := 8
  width      : Nat := 0
  regsDiv8   : Nat := 2
  /-- CORE_BAR_WATCHDOG. -/
  watchdog   : Word := 0x01000000
  /-- CORE_CAP.array_enabled reads 1 unless set here. -/
  arrayOff   : Bool := false
  fault      : CoreFault := {}
  /-- CORE_STACK_MAX. -/
  stackMax   : Nat := 0
  kernel     : KernelInfo := {}
  /-- Launch block words L0 to L39 (R114). -/
  launchBlock : SMap DWord := []
  share      : Share := {}
  /-- Group slots, by index. -/
  groups     : SMap Group := []
  tile       : SMap Byte := []
  acc        : SMap Word := []
  plane0     : Plane := {}
  plane1     : Plane := {}
  mtxQ       : List MtxEntry := []
  dmaQ       : List DmaEntry := []
  /-- Next unique number of a queue entry. -/
  nextUid    : Nat := 0
  /-- Write buffer, oldest first. The Device queue (R161) is the core's Device write requests, in the fabric's list. -/
  wb         : List WbEntry := []
  /-- Read-only L1, most recent first. -/
  l1         : List L1Line := []
  /-- Compute micro-TLB and DMA micro-TLB (R299), most recently used first. -/
  utlb       : List TlbEntry := []
  dtlb       : List TlbEntry := []
  /-- RINSE.SET rate, none under Valac's control (R141). -/
  rinse      : Option Nat := none
  /-- CORE_CNT_* by register offset, MTX_CNT_* by register offset, XLAT core counters by register offset. -/
  counters   : SMap DWord := []
  router     : Router := {}
deriving DecidableEq, Repr

end Sys2Proof.Machine
end

