-- ==== Sys2Proof/Machine/FabricState.lean ====
section
/-!
DEFINITION. The state between the cores and memory: requests in the fabric, cache halves, memory and flash controllers,
translation, bundles and arbiters (chapters 05, 06, 08, 09 and 10 of the spec).
-/
namespace Sys2Proof.Machine

/-- Memory types of an attribute map entry (R153). -/
inductive MemType where
  | normal | replicable | device | reserved
deriving DecidableEq, Repr

/-- Who issued a request (R151, R162, R211). -/
inductive Agent where
  /-- The vector engine for a group. -/
  | vec (c : Nat) (slot : Nat)
  /-- The scalar engine's constant-pool read for a group. -/
  | ldk (c : Nat) (slot : Nat)
  /-- The write buffer of a core; the group whose stores alone the entry holds. -/
  | wbuf (c : Nat) (only : Option Nat)
  /-- The DMA engine of a core, for queue entry `uid`. -/
  | dma (c : Nat) (uid : Nat)
  /-- The host through BAR4 of a function. -/
  | host (fn : Nat)
  /-- A mirror write of the twin. -/
  | mirror
  /-- Valac and the wardens. -/
  | valac
deriving DecidableEq, Repr

/-- The line operations of R214. -/
inductive RangeOp where
  | prefetch | flush | invalidate | discard
deriving DecidableEq, Repr

/-- Operation and type of a reduction (R134, R217). -/
inductive RedOp where
  | add | max | min
deriving DecidableEq, Repr
inductive RedType where
  | fp32 | bf16 | int32
deriving DecidableEq, Repr

/-- Where DMA read bytes go. -/
inductive DmaDest where
  | tile (addr : Nat)
  /-- Memory, line by line: address, whether host memory, type, and how many bytes. -/
  | lines (l : List (Nat × Nat × OutKind × MemType × Nat))
  /-- A page of Tier 3 under assembly: the request that will write it, and the offset in the page. -/
  | gather (rid off : Nat)
deriving DecidableEq, Repr

/-- What a request asks for. Offsets are byte offsets within the line. -/
inductive ReqOp where
  /-- Load into `t[d]`: element size, sign, (lane, offset) pairs, and the bytes that the write buffer forwards (R160);
  `ro` marks a load that passes through the read-only L1. -/
  | load (d size : Nat) (sign ro : Bool) (lanes : List (Nat × Nat)) (fwd : List (Nat × Byte))
  /-- Constant-pool read into `u[d]`. -/
  | ldk (d off : Nat)
  /-- Write of bytes. -/
  | write (bytes : List (Nat × Byte))
  /-- ATOM (`cas` false) or ATOM.CAS into `t[d]`: (lane, offset, operand, swap value). -/
  | atomic (cas : Bool) (aop size d : Nat) (lanes : List (Nat × Nat × DWord × DWord))
  /-- Reduction elements: (offset, value); BF16 contributions are held in FP32. -/
  | reduce (op : RedOp) (type : RedType) (elems : List (Nat × Word))
  | ldres (size d off : Nat) (granule : Nat)
  | stcond (size off p : Nat) (value : DWord)
  | range (op : RangeOp)
  /-- DMA read of `len` bytes at `off`; `ndl` marks a row that may take the needle path (R267). -/
  | dmaRead (off len : Nat) (dest : DmaDest) (ndl : Bool)
  /-- Host read of bytes, returned to a BAR4 reader. -/
  | hostRead (off len : Nat)
deriving DecidableEq, Repr

/-- Where a request stands. -/
inductive Place where
  /-- On its way to its home bank, or refused there with RETRY. -/
  | home
  /-- On its way to the replica half of its die (R204). -/
  | replica
  /-- On the waiting list of a line's miss register (R200). -/
  | waiting
  /-- Forwarded to the sharer on a die (R205). -/
  | forwarded (die : Nat)
  /-- A forward miss on its way back to the home (R206). -/
  | missed
  /-- At a flash controller (R270). -/
  | flash
  /-- At the PCIe controller (R193). -/
  | host
  /-- At a needle unit (R267). -/
  | needle
  /-- Waiting for the twin's acknowledgement of a SYNC write (R476). -/
  | twin
deriving DecidableEq, Repr

/-- A request in the memory fabric (R43, R45, R162). -/
structure Req where
  id    : Nat
  agent : Agent
  tag   : Nat
  part  : Nat
  ctx   : Nat
  /-- Page type; module memory or host memory; byte address of the line (of the page for Tier 3). -/
  type  : MemType
  kind  : OutKind
  addr  : Nat
  op    : ReqOp
  place : Place
  /-- Latency-critical priority (R246). -/
  lc    : Bool
  /-- Core cycles since it left its core (R185, R212). -/
  waited : Nat
  site   : Site
  /-- Sectors that a write leaves poisoned (R273). -/
  poison : BitVec 4 := 0
  /-- Virtual address of its first byte, for the entry of a fault (R543). -/
  va     : Nat := 0
deriving DecidableEq, Repr

/-- States of a line (R198). -/
inductive LState where
  | invalid | clean | dirty | accumulate | dead | fill | hold | replica | rfill
deriving DecidableEq, Repr

/-- Why a home line is in HOLD (R205, R207, R208, R284), with the dies whose acknowledgement is awaited. -/
inductive HoldWhy where
  | none
  | invalidate (dies : BitVec 8)
  | forward (die : Nat)
  | repair
deriving DecidableEq, Repr

/-- What the home does once every invalidation is acknowledged. -/
inductive AfterHold where
  | serve | evict
deriving DecidableEq, Repr

/-- A way of a cache half (R187, R190, R198, R217). -/
structure CLine where
  state   : LState := .invalid
  /-- Physical address of the line's first byte. -/
  addr    : Nat := 0
  valid   : BitVec 4 := 0
  dirty   : BitVec 4 := 0
  poison  : BitVec 4 := 0
  touched : BitVec 4 := 0
  part    : Nat := 0
  ctx     : Nat := 0
  sharers : BitVec 8 := 0
  /-- Bytes by offset; accumulators by element index. -/
  data    : SMap Byte := []
  accOp   : RedOp := .add
  accType : RedType := .fp32
  accs    : SMap Word := []
  /-- Accumulators are present although the line is in FILL: a merge (R219). -/
  merging : Bool := false
  /-- The second way of a BF16 ACCUMULATE line (R217). -/
  pair    : Option Nat := none
  /-- Time of last use, for least recently used (R195). -/
  used    : Nat := 0
  /-- Sectors being fetched, waiting list of the miss register. -/
  fetch   : BitVec 4 := 0
  waiters : List Nat := []
  why     : HoldWhy := .none
  after   : AfterHold := .serve
  /-- RFILL: an invalidation came first, so the data is passed on but not kept (R207). -/
  doomed  : Bool := false
deriving DecidableEq, Repr

/-- CACHE_ERR_STATUS and CACHE_ERR_ADDR. -/
structure CacheErr where
  ue   : Bool := false
  ce   : Bool := false
  bank : Nat := 0
  set  : Nat := 0
  way  : Nat := 0
  kind : Nat := 0
  addr : Nat := 0
deriving DecidableEq, Repr

/-- A repair of one stripe (R284, R285): first address, length, reload source, copy tried (0 or 1); for a copy on the twin
the tag of its first sector, the sectors not answered yet, and the bytes received by offset in the stripe. -/
structure Repair where
  stripe : Nat
  len    : Nat
  source : Nat
  copy   : Nat
  tag    : Nat
  left   : List Nat
  data   : SMap Byte
  failed : Bool
deriving DecidableEq, Repr

/-- One cache half with its washer and repair engine (R187 to R224, R277, R284). -/
structure Half where
  /-- Ways, keyed 65536·bank + 16·set + way. -/
  lines     : SMap CLine := []
  /-- CACHE_CFG.replica_ways in force, and the value being changed to. -/
  nReplica  : Nat := 0
  cfgBusy   : Bool := false
  nNext     : Nat := 0
  /-- CACHE_SWEEP. -/
  sweepBusy : Bool := false
  sweepMode : Bool := false
  sweepPart : Nat := 0
  sweepCtx  : Nat := 0
  sweepWays : Half16 := 0
  err       : CacheErr := {}
  /-- CACHE_CNT_FILTER. -/
  filterOn  : Bool := false
  filterPart : Nat := 0
  /-- CACHE_CNT_* by register offset. -/
  counters  : SMap DWord := []
  /-- CACHE_WAYMASK[p]. -/
  waymask   : SMap Half16 := []
  /-- missreg_hwm by bank. -/
  hwm       : SMap Nat := []
  /-- The request in the force stage of a bank (R212). -/
  force     : SMap (Option Nat) := []
  /-- Use stamp for least recently used. -/
  clock     : Nat := 0
  /-- WASH_STATUS: passes and progress. -/
  washPasses : Nat := 0
  washProgress : Nat := 0
  /-- Hours of the pass under way; a new period applies from the next (R277). -/
  washHours : Nat := 24
  repair    : Option Repair := none
  repairQ   : List Repair := []
deriving DecidableEq, Repr

/-- A request that a memory controller holds for a sector or a line (R220, R266). -/
inductive MemOp where
  /-- Fetch of sectors of a line for its home. -/
  | fetch (addr : Nat) (mask : BitVec 4)
  /-- Write of a whole sector, poisoned or not. -/
  | write (addr : Nat) (bytes : List Byte) (poison : Bool)
  /-- Write of some bytes of a line without allocation (host, mirror, Device): request, bytes, sectors left poisoned. -/
  | writePart (addr : Nat) (bytes : List (Nat × Byte)) (rid : Nat) (poison : BitVec 4)
  /-- Read without allocation for a request (host read, Device load). -/
  | readFor (addr : Nat) (rid : Nat)
  /-- A reduce-writeback for the mender (R220). -/
  | mend (addr : Nat) (op : RedOp) (type : RedType) (touched : BitVec 4) (accs : SMap Word)
deriving DecidableEq, Repr

/-- One HBM3 or LPDDR5X controller (R265 to R268, R274, R275, R287). -/
structure MemCtrl where
  /-- MEMC_CFG.needle_wait. -/
  needleWait : Nat := 128
  /-- MEMC_ERR_STATUS and MEMC_ERR_ADDR. -/
  ue       : Bool := false
  ce       : Bool := false
  errChan  : Nat := 0
  errKind  : Nat := 0
  errAddr  : Nat := 0
  counters : SMap DWord := []
  /-- Requests and reduce-writebacks, oldest first. -/
  queue    : List MemOp := []
  /-- Needle buckets, by DRAM bank: request numbers, oldest first. -/
  buckets  : SMap (List Nat) := []
  /-- Sectors read for a home: line address, sectors, bytes of the line, poisoned sectors. -/
  done     : List (Nat × BitVec 4 × SMap Byte × BitVec 4) := []
deriving DecidableEq, Repr

/-- One hub's flash controller: FLASH_HEALTH (R272). -/
structure FlashCtrl where
  sparePct  : Nat := 100
  wearPct   : Nat := 0
  readOnly  : Bool := false
deriving DecidableEq, Repr

/-- A region (R260). -/
structure Region where
  base    : Nat
  strands : List Nat
  bays    : Nat
  firstBay : Nat
deriving DecidableEq, Repr

/-- A share group (R281). -/
structure ShareGroup where
  members : BitVec 64 := 0
  loader  : Option Nat := none
  /-- Partitions, and a loader, that have left and whose kernel boundary has not come (R281). -/
  leaving : BitVec 64 := 0
  leavingLoader : Option Nat := none
deriving DecidableEq, Repr

/-- A reload source (R283). -/
structure ReloadSource where
  base   : Nat
  len    : Nat
  /-- Copies in the order tried: on the twin or in Tier 3, and its first address. -/
  copies : List (Bool × Nat)
deriving DecidableEq, Repr

/-- A pinned window (R302, R304). -/
structure Window where
  va       : Nat
  len      : Nat
  writable : Bool
  stale    : Bool
  leaves   : List TlbEntry
deriving DecidableEq, Repr

/-- A context table entry (R288, R289, R312). -/
structure Ctx where
  gen       : Nat := 0
  /-- 0 free, 1 active, 2 torn down. -/
  state     : Nat := 0
  partition : Nat := 0
  pasid     : Nat := 0
  fn        : Nat := 0
  ats       : Bool := false
  fmt       : Nat := 0
  root      : Nat := 0
  attrMap   : DWord := 0
  granule   : Nat := 0
  windows   : List Window := []
  watchdog  : Word := 0x01000000
deriving DecidableEq, Repr

/-- A format descriptor (R293). -/
structure FormatDesc where
  valid      : Bool := false
  levels     : Nat := 0
  granule    : Nat := 0
  flags      : Byte := 0
  leafLevels : Byte := 0
  /-- (lowest bit, bit count) of each level from the root. -/
  index      : List (Nat × Nat) := []
  present    : Nat := 0
  writable   : Nat := 0
  user       : Nat := 0
  accessed   : Nat := 0
  dirty      : Nat := 0
  nx         : Nat := 0
  paLow      : Nat := 0
  paHigh     : Nat := 0
  leafBit    : Nat := 0
  attr       : List Nat := []
  raw        : List Byte := []
deriving DecidableEq, Repr

/-- States of a descriptor row (R309); `done` is the end of a PIN's walk. -/
inductive RowState where
  | translate | waitSlot | waitPri | done
deriving DecidableEq, Repr

/-- A PIN in progress (R302): operation, window, leaves found so far, and the failure that ended it (status, address). -/
structure PinWalk where
  op     : Nat
  start  : Nat
  last   : Nat
  leaves : List TlbEntry
  failed : Option (Nat × Nat)
  /-- An invalidation has covered a page already found (R304). -/
  stale  : Bool := false
deriving DecidableEq, Repr

/-- A translation under way: of a DMA descriptor row, or of a page of a PIN (R302, R309). -/
structure XRow where
  /-- Core and queue entry of the descriptor; none for a PIN. -/
  dma    : Option (Nat × Nat)
  pin    : Option PinWalk
  ctx    : Nat
  va     : Nat
  write  : Bool
  state  : RowState
  /-- A page request for this page was sent. -/
  asked  : Bool
  /-- Translation Completions still to come whose results an invalidation discards (R307 step 2). -/
  skip   : Nat
deriving DecidableEq, Repr

/-- A page request that awaits its response: index, row, context, and whether the row was cancelled (R308, R309). -/
structure PageReq where
  idx : Nat
  row : Nat
  ctx : Nat
  cancelled : Bool
deriving DecidableEq, Repr

/-- An Invalidate Request in progress: what it covers, and the number of the first request that came after it (R307). -/
structure Inval where
  pasid  : Nat
  every  : Bool
  addr   : Nat
  size   : Nat
  upto   : Nat
deriving DecidableEq, Repr

/-- Page request interface of a function (R308, R309). -/
structure PriState where
  enabled : Bool := false
  stopped : Bool := false
  alloc   : Nat := 0
  busy    : List PageReq := []
  /-- ATS enable, and the Invalidate Requests in progress. -/
  ats     : Bool := false
  inval   : List Inval := []
deriving DecidableEq, Repr

/-- One direction of a bundle (R316 to R329): the receiver's and the sender's side. -/
structure BundleDir where
  expected  : Nat := 0
  nakSent   : Bool := false
  nextSeq   : Nat := 0
  oldest    : Nat := 0
  /-- Consecutive replays from one sequence number, and that number. -/
  replays   : Nat := 0
  replayFrom : Nat := 0
  /-- 0 full, 1 half, 2 lost. -/
  width     : Nat := 0
  badTracks : Nat := 0
  /-- BND_GROUP[g], 0x1F where not listed. -/
  groups    : SMap Byte := []
  /-- Cumulative freed counts last received. -/
  freed     : SMap Byte := []
  /-- BND_CNT_* of the block that receives this direction. -/
  counters  : SMap DWord := []
deriving DecidableEq, Repr

/-- A bundle: both directions, trained, retraining. -/
structure Bundle where
  d0 : BundleDir := {}
  d1 : BundleDir := {}
  trained    : Bool := false
  retraining : Bool := false
deriving DecidableEq, Repr

/-- An ARB block (R330 to R337). -/
structure Arb where
  /-- ARB_WAIT_LIMIT when it was written; the reset value depends on the port (R333). -/
  waitLimit : Option Nat := none
  holdLimit : Nat := 16
  cutoff    : DWord := 0
  /-- GRANTS, WAIT_CYCLES, FORCED and LONGEST_WAIT, keyed by offset within the block. -/
  counters  : SMap DWord := []
  /-- One more than the time of each requester's last cut-off, in meridian beats. -/
  lastCut   : SMap Nat := []
  /-- Bits of ARB_CUTOFF that a repeated cut-off leaves set (R334). -/
  stuck     : DWord := 0
deriving DecidableEq, Repr

/-- Requests, caches and controllers. -/
structure Fabric where
  reqs    : List Req := []
  nextReq : Nat := 1
  halves  : SMap Half := []
  ctrls   : SMap MemCtrl := []
  flash   : SMap FlashCtrl := []
deriving DecidableEq, Repr

/-- Bundles, arbiters. -/
structure Links where
  bundles : SMap Bundle := []
  arbs    : SMap Arb := []
  /-- The darn map in force (R327): entry words. -/
  darnMap : List Word := []
deriving DecidableEq, Repr

/-- Translation. -/
structure Xlat where
  ctxs    : SMap Ctx := []
  formats : SMap FormatDesc := []
  /-- Second level by half, walk cache by die (context, level, virtual prefix, entry), most recent first. -/
  l2      : SMap (List TlbEntry) := []
  walkCache : SMap (List (Nat × Nat × Nat × DWord)) := []
  rows    : SMap (Option XRow) := []
  nextRow : Nat := 0
  pri     : SMap PriState := []
  /-- XLAT_CNT_*, keyed 4096·die + register offset. -/
  counters : SMap DWord := []
  /-- pri_timeout in ms (R310). -/
  priTimeout : Nat := 10000
  /-- Target timeout in steps of 100 µs (R185). -/
  targetTimeout : Nat := 10
deriving DecidableEq, Repr

/-- Memory behind the controllers. -/
structure Store where
  /-- Tier 1 and Tier 2 bytes by channel location (R261, R262). -/
  mem     : List (Nat × BitVec 8) := []
  /-- Poisoned sectors, by sector location. -/
  poison  : List Nat := []
  /-- Tier 3 bytes by offset in the tier. -/
  flash   : List (Nat × BitVec 8) := []
  /-- Regions, by index r of the region table. -/
  regions : SMap (Option Region) := []
  /-- Granule tags, by granule number (address div 2 MiB). -/
  tags    : SMap Half16 := []
  shares  : SMap ShareGroup := []
  reloads : SMap (Option ReloadSource) := []
  /-- WASH_CFG.hours. -/
  washHours : Nat := 24
deriving DecidableEq, Repr

end Sys2Proof.Machine
end

