-- ==== Sys2Proof/Machine/ControlState.lean ====
section
/-!
DEFINITION. The state of Valac and of what it controls: mailboxes, event rings, the logbook, partitions, queues and
launches, meridian time, power, the speculum link, the host attachment, firmware and start-up (chapters 11 to 20).
-/
namespace Sys2Proof.Machine

/-- A mailbox (R338, R340). -/
structure Mailbox where
  buffer   : SMap Byte := []
  /-- MBX_STATUS.state: 0 IDLE, 1 BUSY, 2 DONE. -/
  state    : Nat := 0
  overrun  : Bool := false
  lastSeq  : Half16 := 0
  /-- Value of the doorbell that submitted the command. -/
  doorbell : Half16 := 0
deriving DecidableEq, Repr

/-- A command that Valac has accepted (R340, R347). -/
structure Cmd where
  mbx     : Nat
  opcode  : Nat
  seq     : Half16
  notify  : Bool
  token   : DWord
  role    : Nat
  payload : List Byte
  /-- Its response is discarded (R345). -/
  discard : Bool := false
  /-- INVALIDATE has done steps 1 and 2 of R307: number of the first request that came after them. -/
  begun   : Option Nat := none
deriving DecidableEq, Repr

/-- An asynchronous operation that has not posted OP_DONE (R343). -/
structure Op where
  id  : Nat
  cmd : Cmd
  /-- Objects fixed at acceptance: the new handle or version, progress of the operation. -/
  arg : Nat
deriving DecidableEq, Repr

/-- An event entry without its phase and number (R370). -/
structure Event where
  type      : Nat
  partition : Nat
  copy      : Bool
  time      : DWord
  payload   : List Byte
deriving DecidableEq, Repr

/-- The event ring of a function (R369, R372). -/
structure EventRing where
  base    : DWord := 0
  enable  : Bool := false
  vector  : Nat := 0
  size    : Nat := 6
  head    : Nat := 0
  tail    : Nat := 0
  dropped : Nat := 0
  /-- Running count of events written, the phase of the pass, backlog, and drops since the last OVERFLOW. -/
  number  : Nat := 0
  phase   : Bool := true
  backlog : List Event := []
  lost    : Nat := 0
deriving DecidableEq, Repr

/-- A logbook entry (R540). -/
structure LogEntry where
  index     : Nat
  time      : DWord
  code      : Nat
  severity  : Nat
  flags     : Nat
  source    : Nat
  unit      : Nat
  partition : Nat
  fault     : Nat
  ctx       : Nat
  cause     : Nat
  step      : Nat
  count     : Nat
  data      : List Byte
deriving DecidableEq, Repr

/-- The logbook: entries in flash and held in standby memory, oldest first (R540). -/
structure Logbook where
  flash   : List LogEntry := []
  held    : List LogEntry := []
  next    : Nat := 0
  dropped : Nat := 0
deriving DecidableEq, Repr

/-- An audit entry (R529). -/
structure AuditEntry where
  index   : Nat
  time    : DWord
  opcode  : Nat
  role    : Nat
  setting : Nat
  flags   : Nat
  status  : Nat
  used    : Nat
  version : Nat
  value   : List Byte
deriving DecidableEq, Repr

/-- Valac: mailboxes, the command in progress, operations, events. -/
structure Valac where
  mailboxes : SMap Mailbox := []
  cur       : Option Cmd := none
  /-- Mailbox served last, for the order of R342. -/
  lastServed : Nat := 66
  ops       : List Op := []
  nextOp    : Nat := 0
  rings     : SMap EventRing := []
deriving DecidableEq, Repr

/-- A rectangle of the core grid. -/
structure Rect where
  x0 : Nat
  y0 : Nat
  w  : Nat
  h  : Nat
deriving DecidableEq, Repr

/-- States of a partition (R428, R439); FREE is its absence. -/
inductive PartState where
  | running | quiescing | quiesced | resetting
deriving DecidableEq, Repr

/-- A pending PART_RESIZE (R421, R422): the new rectangle, slice and mask, its operation, and whether in force. -/
structure Resize where
  rect    : Rect
  slice   : Nat
  mask    : Half16
  op      : Nat
  inForce : Bool
  /-- Cores still to clear, and ways removed. -/
  removed : List Nat
  ways    : Half16
deriving DecidableEq, Repr

/-- A partition, but for its rectangle, which stands in State.rects (R418, R439). -/
structure Part where
  state    : PartState
  be       : Bool
  fn       : Nat
  slice    : Nat
  mask     : Half16
  pstepMin : Nat
  resize   : Option Resize
  /-- Operation of an open PART_QUIESCE, PART_RESET or PART_DESTROY. -/
  op       : Option Nat
  destroying : Bool
  refused  : Nat
  overruns : Nat
  /-- Round robin of R431: LC queue admitted last, BE queue that holds the turn and when its turn began. -/
  lastLc   : Nat
  turn     : Option Nat
  turnFrom : Option Nat
  /-- The undeliverable ring, oldest first (R391). -/
  undeliverable : List (List Byte)
deriving DecidableEq, Repr

/-- Queue states (R374, R392). -/
inductive QueueState where
  | active | halting | halted | haltedFault | haltedUndeliverable | haltedError
deriving DecidableEq, Repr

/-- A submission queue (R373, R374). -/
structure Queue where
  part    : Nat
  be      : Bool
  log2    : Nat
  tier1   : Bool
  ctx     : Nat
  ring    : DWord
  index   : Nat
  tail    : Word
  head    : Word
  retired : Word
  state   : QueueState
  reason  : Nat
  lastLaunch : DWord
  /-- When the queue's launches began to hold cores without a break (R431). -/
  holdFrom : Option Nat
  /-- Waits with a transit descriptor for an almanac entry (R414). -/
  waitAlmanac : Bool
  haltOp  : Option Nat
  /-- Launch counts named by an ABORT before they were consumed (R393). -/
  abortSeqs : List Word
deriving DecidableEq, Repr

/-- A completion ring (R387). -/
structure CRing where
  part   : Nat
  log2   : Nat
  tier1  : Bool
  fn     : Nat
  vector : Nat
  addr   : DWord
  /-- Records written, and consumed count last read. -/
  count  : Nat
  seen   : Nat
deriving DecidableEq, Repr

/-- A registered kernel image (R143 to R150): what its header says. -/
structure Kernel where
  part       : Nat
  ctx        : Nat
  addr       : Nat
  bytes      : Nat
  flags      : Nat
  regs       : Nat
  width      : Nat
  uniforms   : Nat
  tileBytes  : Nat
  meshSlots  : Nat
  entry      : Nat
  codeBytes  : Nat
  poolOff    : Nat
  poolBytes  : Nat
  meshOff    : Nat
  rectW      : Nat
  rectH      : Nat
  stride     : Nat
  cycleBound : Nat
  verified   : Bool
  /-- Rise in power at its last launch (R456), 0.1 W, and cores it ran on. -/
  rise       : Option (Nat × Nat)
deriving DecidableEq, Repr

/-- A live version of a graph (R398, R400): its nodes, and launches bound to it. -/
structure GraphVersion where
  version : Nat
  nodes   : List (List Byte)
  users   : Nat
  /-- Rise in power at its last launch with the cores of it, and of each layer by first node: 1 more than it, in 0.1 W (R456,
  R457). -/
  rise    : Option (Nat × Nat)
  layers  : SMap Nat
deriving DecidableEq, Repr

/-- A stored graph. -/
structure Graph where
  part     : Nat
  ctx      : Nat
  newest   : Nat
  versions : List GraphVersion
  released : Bool
deriving DecidableEq, Repr

/-- Outcome of a launch or a node (R388, R389). -/
inductive Status where
  | ok | fault | aborted | skipped | timeout
deriving DecidableEq, Repr

/-- How a launch ended (R389). -/
structure Verdict where
  status : Status
  fault  : Nat
  reason : Nat
  notRun : Bool
deriving DecidableEq, Repr

/-- A plain launch's phases; a graph launch is running from its first node's start. -/
inductive Phase where
  | waiting | admitted | running | ended | committed
deriving DecidableEq, Repr

/-- A node of a graph launch (R399): its cores still busy, and those it holds until its commit. -/
structure Node where
  phase   : Phase
  verdict : Option Verdict
  cores   : List Nat
  held    : List Nat
  semOk   : Bool
  start   : Nat
  energyStart : Nat
  /-- Place in the order of commits; a record that waits for room in its ring. -/
  stamp   : Nat
  record  : Option (List Byte)
  /-- Work power before its start and peak since, in 0.1 W (R457). -/
  work0   : Nat
  peak    : Nat
deriving DecidableEq, Repr

/-- A consumed launch (R376 to R399). -/
structure Launch where
  id       : DWord
  queue    : Nat
  part     : Nat
  ctx      : Nat
  desc     : List Byte
  phase    : Phase
  /-- Kernel handle or graph and version. -/
  kernel   : Nat
  graph    : Option (Nat × Nat)
  /-- Meridian times, ns. -/
  eligibleAt : Option Nat
  admittedEnd : Option Nat
  start    : Nat
  energyStart : Nat
  /-- The wait semaphore is satisfied. -/
  semOk    : Bool
  /-- Cores of the rectangle, and those that started and have not completed. -/
  cores    : List Nat
  busy     : List Nat
  nodes    : List Node
  late     : Bool
  overlap  : Bool
  lost     : Bool
  recordsLost : Bool
  /-- Decided by an ABORT, a time limit or a lost bundle, and not yet committed (R393 to R395). -/
  stop     : Option Verdict
  /-- Committed (R390). -/
  verdict  : Option Verdict
  /-- Its signal has been performed. -/
  signalled : Bool
  /-- The record waits for room in its ring. -/
  record   : Option (List Byte)
  /-- Waits for pre-ramp since, ns (R457). -/
  preramp  : Option Nat
  /-- Place in the orders of commits and of admissions. -/
  stamp    : Nat
  admitNo  : Nat
  /-- Work power before its start and peak since, in 0.1 W (R456). -/
  work0    : Nat
  peak     : Nat
deriving DecidableEq, Repr

/-- Partitions, queues, kernels, graphs and launches. -/
structure Work where
  parts    : SMap (Option Part) := []
  queues   : SMap (Option Queue) := []
  crings   : SMap (Option CRing) := []
  kernels  : SMap (Option Kernel) := []
  graphs   : SMap (Option Graph) := []
  nextHandle : Nat := 1
  nextGraph  : Nat := 1
  /-- Oldest first. -/
  launches : List Launch := []
  /-- Commits and admissions so far. -/
  stamps   : Nat := 0
deriving DecidableEq, Repr

/-- States of the meridian (R406). -/
inductive MerState where
  | unset | locked | holdover | free
deriving DecidableEq, Repr

/-- Meridian time (R401 to R410). -/
structure Meridian where
  master  : Nat := 0
  frac    : Nat := 0
  dies    : SMap Nat := []
  state   : MerState := .unset
  source  : Nat := 0
  domain  : Nat := 0
  offset  : Int := 0
  /-- Consecutive measurements within ±100 ns; whether one was taken in UNSET; offset still to slew. -/
  good    : Nat := 0
  stepped : Bool := false
  slew    : Int := 0
  /-- Beats sent since reset (1 µs each) and beats since the last measurement. -/
  beats   : Nat := 0
  quiet   : Nat := 0
deriving DecidableEq, Repr

/-- A steward (R441 to R446, R463). -/
structure Steward where
  target   : Nat := 15
  fstep    : Nat := 15
  voltage  : Nat := 580
  moving   : Bool := false
  frozen   : Bool := false
  droop    : Bool := false
  throttle : Bool := false
  rinse    : Nat := 0
  estimate : Nat := 0
  lastDelay : Nat := 0
  temps    : SMap Half16 := []
  counters : SMap DWord := []
  /-- Steps that the cap loop and throttling require (R460). -/
  capStep  : Nat := 0
  thermStep : Nat := 0
  /-- P-step from which the present change set out. -/
  fromStep : Nat := 15
deriving DecidableEq, Repr

/-- Module power (R447 to R463). -/
structure Power where
  limitM   : Nat := 6800
  limitC   : Nat := 6800
  rampM    : Nat := 50
  rampC    : Nat := 50
  /-- Limit forced by an input below 48 V (R547). -/
  inputCap : Option Nat := none
  /-- Samples since the limit changed, newest first, at most 10; and the 10 latest. -/
  samples  : List Nat := []
  latest   : List Nat := []
  vin      : Nat := 0
  iin      : Nat := 0
  /-- Energy in µJ: counter, integral of telemetry, whether the counter holds still (R452); rinse energy in 0.1 µJ. -/
  energy   : Nat := 0
  integral : Nat := 0
  ahead    : Bool := false
  rinseEnergy : Nat := 0
  /-- F, work and preramp in 0.1 W (R454). -/
  envelope : Nat := 0
  work     : Nat := 0
  preramp  : Nat := 0
  capping  : Bool := false
  /-- Halves whose change the cap loop has chosen and not issued: half and slow (true) or speed up. -/
  capQueue : List (Nat × Bool) := []
  cntRampShort : Nat := 0
  cntUnramped  : Nat := 0
  cntCapSteps  : Nat := 0
  stewards : SMap Steward := []
  hubTemps : SMap Half16 := []
  hubThrottle : SMap Bool := []
  /-- Telemetry window, and its update count. -/
  telemetry : List Byte := []
  updates  : Nat := 0
deriving DecidableEq, Repr

/-- Pairing states (R472). -/
inductive PairState where
  | unpaired | training | attesting | paired | lost
deriving DecidableEq, Repr

/-- Mirror window states (R475) and modes (R473). -/
inductive WinState where
  | off | waiting | active | broken
deriving DecidableEq, Repr

/-- A mirror window (R473 to R478). -/
structure MirWin where
  state   : WinState := .off
  /-- 0 off, 1 SYNC, 2 EPOCH. -/
  mode    : Nat := 0
  lag     : Nat := 0
  start   : Nat := 0
  len     : Nat := 0
  /-- The twin's settings as last offered: mode, lag, start, length. -/
  peer    : Option (Nat × Nat × Nat × Nat) := none
  /-- Origin: number of the open epoch, its record bytes, the closed epoch awaiting application and when it was closed. -/
  epoch   : Nat := 1
  fill    : Nat := 0
  closed  : Option (Nat × Nat) := none
  lagExceeded : Bool := false
  /-- Twin: last epoch applied, staged writes of the open epoch and their record bytes. -/
  applied : Nat := 0
  staged  : List (Nat × List (Nat × Byte)) := []
  stagedBytes : Nat := 0
  closedHere : Option (Nat × List (Nat × List (Nat × Byte))) := none
deriving DecidableEq, Repr

/-- A SYNC record that the twin has not acknowledged (R476). -/
structure SyncOut where
  tag    : Nat
  window : Nat
  rid    : Option Nat
  addr   : Nat
  /-- Its window has left ACTIVE, so that it no longer counts as unacknowledged (R476). -/
  dead   : Bool := false
deriving DecidableEq, Repr

/-- The speculum link (R465 to R486). -/
structure Twin where
  state   : PairState := .unpaired
  hold    : Bool := false
  /-- 0 down, 1 100 Gb/s, 2 200 Gb/s. -/
  rate    : Nat := 0
  rxActive : Nat := 0
  rxBad   : BitVec 18 := 0
  halfRate : Bool := false
  ready   : Bool := false
  expected : Nat := 0
  nakSent : Bool := false
  nextSeq : Nat := 0
  oldest  : Nat := 0
  windows : SMap MirWin := []
  syncs   : List SyncOut := []
  nextTag : Nat := 0
  /-- Meridian time, and beats since reset, of the last heartbeat received. -/
  lastHeartbeat : Nat := 0
  lastBeat : Nat := 0
  peerSecver : Option Nat := none
  peerSource : Nat := 0
  counters : SMap DWord := []
deriving DecidableEq, Repr

/-- An MSI-X vector (R499). -/
structure Vector where
  addr    : DWord := 0
  data    : Word := 0
  masked  : Bool := true
  pending : Bool := false
deriving DecidableEq, Repr

/-- What the module has sent outside, newest first: the record of its outputs. -/
inductive Out where
  /-- Posted write to host memory by a function. -/
  | memWrite (fn : Nat) (addr : Nat) (bytes : List Byte)
  | msix (fn : Nat) (vector : Nat)
  | pageRequest (fn pasid va idx : Nat) (write : Bool)
  | stopMarker (fn pasid : Nat)
  | translationRequest (fn pasid va : Nat) (write : Bool)
  | invalidateDone (fn : Nat)
  /-- Completion of a BAR4 read: 0 success, 1 Unsupported Request, 2 Completer Abort; poisoned. -/
  | completion (fn : Nat) (off : Nat) (status : Nat) (bytes : List Byte) (poisoned : Bool)
  | configReply (fn : Nat) (retry : Bool)
  | hostRequest (rid : Nat)
  /-- The AtomicOp that sets accessed and dirty of a page-table entry in host memory (R296). -/
  | entryUpdate (addr : Nat) (value : DWord)
  /-- A write of Valac for a queue through the context's translation: context slot, virtual address (R291). -/
  | valacWrite (ctx : Nat) (va : Nat) (bytes : List Byte)
  /-- A record on the speculum link: kind, window, value and bytes. -/
  | record (kind window value : Nat) (bytes : List Byte)
  | heartbeat (state source : Nat) (time : Nat)
  /-- A management frame: type, session, counter, body. -/
  | frame (type : Nat) (session counter : DWord) (body : List Byte)
  | spdm (port : SpdmPort) (code : Byte) (body : List Byte)
  | nak (bundle : Nat) (dir : Bool) (seq : Nat)
  | specNak (seq : Nat)
deriving DecidableEq, Repr

/-- The PCIe attachment (R487 to R507). -/
structure HostIf where
  rate     : Nat := 0
  width    : Nat := 0
  retries  : Nat := 0
  aperture : DWord := 0
  refused  : Bool := false
  refusedFn : Nat := 0
  refusedCause : Nat := 0
  refusedAddr : DWord := 0
  cntRefused : DWord := 0
  vfEnable : Bool := false
  numVfs   : Nat := 0
  /-- BAR4 base addresses of the functions as the host set them, and sizes (log2). -/
  bar4Base : SMap (Option Nat) := []
  pfSize   : Nat := 43
  vfSize   : Nat := 40
  /-- MSI-X, keyed 2048·function + vector; function masks. -/
  vectors  : SMap Vector := []
  fnMask   : SMap Bool := []
  /-- ATS Smallest Translation Unit of a function. -/
  stu      : SMap Nat := []
deriving DecidableEq, Repr

/-- A firmware image as R512 finds it: first check of 1 to 6 that fails (0: none), version, secver and body digest. -/
structure Image where
  failing : Nat := 0
  version : Nat := 1
  secver  : Nat := 0
  digest  : List Byte := []
deriving DecidableEq, Repr

/-- The open management session (R523 to R525). -/
structure Session where
  id       : DWord
  proved   : Bool
  rxCount  : Nat
  txCount  : Nat
  /-- The console key digest it proved with; false: any key before the first lock. -/
  keyDigest : List Byte
  /-- Beat of the last accepted frame. -/
  idle     : Nat
deriving DecidableEq, Repr

/-- Firmware, identity, bounded settings, management (R508 to R530). -/
structure Firmware where
  running  : Image := {}
  flash    : Image := {}
  recovery : Bool := false
  floor    : Nat := 0
  /-- Used counts of the bounded settings, in the order of R527. -/
  used     : SMap Nat := []
  pairId   : Option (List Byte) := none
  mgmtId   : List Byte := []
  darn     : List Word := []
  /-- Disabled arrays on the patch list, as core numbers: base part and amendments. -/
  patch    : List Nat := []
  /-- Staging claim: mailbox, bytes, beat of the last FW_STAGE. -/
  claim    : Option Nat := none
  staged   : SMap Byte := []
  claimIdle : Nat := 0
  audit    : List AuditEntry := []
  nextAudit : Nat := 0
  partNumber : List Byte := []
  serial   : List Byte := []
  grade    : Nat := 640
  belowGrade : Bool := false
  /-- Stage of the SPDM connection of each transport (R520): 0 none, then 1 to 3 as version, capabilities and algorithms are agreed. -/
  spdm     : SMap Nat := []
  session  : Option Session := none
  /-- Session offered in the last HELLO_REPLY, and its transcript. -/
  hello    : Option (DWord × List Byte) := none
  nextSession : Nat := 1
  /-- EVENT frames not acknowledged: number, entry bytes, times sent. -/
  events   : List (Nat × List Byte × Nat) := []
  eventNo  : Nat := 0
  mgmtUp   : Bool := false
  mgmtRate : Nat := 0
deriving DecidableEq, Repr

/-- Power input and start-up (R531 to R551). -/
structure Sys where
  /-- 0 standby, 1 starting, 2 ready, 3 halted. -/
  state    : Nat := 0
  step     : Nat := 1
  standby  : Bool := false
  /-- Step 2 complete. -/
  valacUp  : Bool := false
  pwrEn    : Bool := false
  mainOn   : Bool := false
  pwrGood  : Bool := false
  tripped  : Bool := false
  /-- An assertion of PWR_EN that the module does not act on (R551). -/
  ignored  : Bool := false
  inputMv  : Nat := 54000
  /-- The input lies outside 48–60 V and main regulators are off for it (R547). -/
  cutOff   : Bool := false
  quiescing : Bool := false
  /-- Cause of the main power loss logged as RESET when power returns. -/
  powerLost : Bool := false
  lcDegraded : Bool := false
deriving DecidableEq, Repr

end Sys2Proof.Machine
end

