-- ==== Sys2Proof/Machine/State.lean ====
section
/-!
DEFINITION. The state of the whole module as plain data, the reasons a step can stop, and the state after reset.
-/
namespace Sys2Proof.Machine

/-- Why a step stops with a fault. -/
inductive Fault where
  /-- Raised by step for a command that no link of the module can carry: WellFormed refuses it (R347, R487, R492, R501,
  R522). Safe: such a command never reaches the hardware. -/
  | malformed (mnemonic : String)
deriving DecidableEq, Repr

/-- Why a step is refused. -/
inductive Refusal where
  /-- Raised by exec for a row of the opcode table that has no meaning yet. Safe: nothing is claimed of it. -/
  | notModelled (mnemonic : String)
deriving DecidableEq, Repr

/-- The module. -/
structure State where
  /-- Commands waiting, first in, first out. -/
  pending : List Instr := []
  /-- MODEL'S OWN: how many free values have been drawn (assumption 3). -/
  free    : Nat := 0
  /-- MODEL'S OWN: the value the last direct register read returned (CORE_STACK_MAX_READ and its like). -/
  rd      : Nat := 0
  /-- Rectangles of the partitions (R418, R439). -/
  rects   : SMap (Option Rect) := []
  cores   : SMap Core := []
  fab     : Fabric := {}
  xlat    : Xlat := {}
  store   : Store := {}
  links   : Links := {}
  valac   : Valac := {}
  log     : Logbook := {}
  work    : Work := {}
  time    : Meridian := {}
  power   : Power := {}
  twin    : Twin := {}
  host    : HostIf := {}
  fw      : Firmware := {}
  sys     : Sys := {}
  /-- MODEL'S OWN: what the module has sent outside, newest first. -/
  out     : List Out := []
deriving DecidableEq, Repr

/-- The module as a power cycle leaves it, before standby power becomes good (R10, R531, R534): every register at its
Reset column, every queue, cache and memory empty, step 1 of the cold start. Values that the spec does not give are
those of assumption 4. -/
def State.reset : State := {}

end Sys2Proof.Machine
end

