-- ==== Sys2Proof/Machine/Ops.lean ====
section
/-!
DEFINITION. Named operations that every family shares: bit fields and bytes, access to the parts of the state, counters,
free values, the logbook, event rings and interrupts.
-/
namespace Sys2Proof.Machine

/-! Bit fields and bytes. -/

/-- Bits [lo + len - 1 : lo] of a number. -/
def bitsOf (n lo len : Nat) : Nat := n / 2 ^ lo % 2 ^ len

/-- A Bool as 0 or 1. -/
def bit (b : Bool) : Nat := if b then 1 else 0

/-- The two's complement value of the low `w` bits. -/
def signedOf (w n : Nat) : Int :=
  let m := n % 2 ^ w
  if m < 2 ^ (w - 1) then (m : Int) else (m : Int) - (2 ^ w : Nat)

/-- The low `w` bits of an integer. -/
def wrapNat (w : Nat) (i : Int) : Nat := (i % (2 ^ w : Nat)).toNat

/-- The little-endian number at bytes [off, off + n) of a list; missing bytes read 0. -/
def fieldAt (bs : List Byte) (off n : Nat) : Nat := leNat ((bs.drop off).take n)

/-- The list padded with zeros or cut to `n` bytes. -/
def padTo (n : Nat) (bs : List Byte) : List Byte := (bs ++ List.replicate (n - bs.length) 0).take n

/-- All bytes in a range are zero (reserved fields, R9). -/
def zeroAt (bs : List Byte) (off n : Nat) : Bool := ((bs.drop off).take n).all (· == 0)

/-! Parts of the state. -/

def State.core (s : State) (c : Nat) : Core := SMap.get {} s.cores c
def State.setCore (s : State) (c : Nat) (k : Core) : State := { s with cores := SMap.set {} s.cores c k }
def State.updCore (s : State) (c : Nat) (f : Core → Core) : State := s.setCore c (f (s.core c))

def Core.group (k : Core) (i : Nat) : Group := SMap.get {} k.groups i
def Core.setGroup (k : Core) (i : Nat) (g : Group) : Core := { k with groups := SMap.set {} k.groups i g }

def State.half (s : State) (h : Nat) : Half := SMap.get {} s.fab.halves h
def State.setHalf (s : State) (h : Nat) (x : Half) : State :=
  { s with fab := { s.fab with halves := SMap.set {} s.fab.halves h x } }
def State.ctrl (s : State) (m : Nat) : MemCtrl := SMap.get {} s.fab.ctrls m
def State.setCtrl (s : State) (m : Nat) (x : MemCtrl) : State :=
  { s with fab := { s.fab with ctrls := SMap.set {} s.fab.ctrls m x } }
def State.flashCtrl (s : State) (k : Nat) : FlashCtrl := SMap.get {} s.fab.flash k
def State.setFlashCtrl (s : State) (k : Nat) (x : FlashCtrl) : State :=
  { s with fab := { s.fab with flash := SMap.set {} s.fab.flash k x } }

def State.ctx (s : State) (slot : Nat) : Ctx := SMap.get {} s.xlat.ctxs slot
def State.setCtx (s : State) (slot : Nat) (x : Ctx) : State :=
  { s with xlat := { s.xlat with ctxs := SMap.set {} s.xlat.ctxs slot x } }
def State.pri (s : State) (fn : Nat) : PriState := SMap.get {} s.xlat.pri fn
def State.setPri (s : State) (fn : Nat) (x : PriState) : State :=
  { s with xlat := { s.xlat with pri := SMap.set {} s.xlat.pri fn x } }
def State.row (s : State) (r : Nat) : Option XRow := SMap.get none s.xlat.rows r
def State.setRow (s : State) (r : Nat) (x : Option XRow) : State :=
  { s with xlat := { s.xlat with rows := SMap.set none s.xlat.rows r x } }

def State.part (s : State) (p : Nat) : Option Part := SMap.get none s.work.parts p
def State.setPart (s : State) (p : Nat) (x : Option Part) : State :=
  { s with work := { s.work with parts := SMap.set none s.work.parts p x } }
def State.queue (s : State) (q : Nat) : Option Queue := SMap.get none s.work.queues q
def State.setQueue (s : State) (q : Nat) (x : Option Queue) : State :=
  { s with work := { s.work with queues := SMap.set none s.work.queues q x } }
def State.cring (s : State) (r : Nat) : Option CRing := SMap.get none s.work.crings r
def State.setCring (s : State) (r : Nat) (x : Option CRing) : State :=
  { s with work := { s.work with crings := SMap.set none s.work.crings r x } }
def State.kernel (s : State) (h : Nat) : Option Kernel := SMap.get none s.work.kernels h
def State.setKernel (s : State) (h : Nat) (x : Option Kernel) : State :=
  { s with work := { s.work with kernels := SMap.set none s.work.kernels h x } }
def State.graph (s : State) (h : Nat) : Option Graph := SMap.get none s.work.graphs h
def State.setGraph (s : State) (h : Nat) (x : Option Graph) : State :=
  { s with work := { s.work with graphs := SMap.set none s.work.graphs h x } }
def State.rect (s : State) (p : Nat) : Option Rect := SMap.get none s.rects p

def State.mbx (s : State) (m : Nat) : Mailbox := SMap.get {} s.valac.mailboxes m
def State.setMbx (s : State) (m : Nat) (x : Mailbox) : State :=
  { s with valac := { s.valac with mailboxes := SMap.set {} s.valac.mailboxes m x } }
def State.ring (s : State) (fn : Nat) : EventRing := SMap.get {} s.valac.rings fn
def State.setRing (s : State) (fn : Nat) (x : EventRing) : State :=
  { s with valac := { s.valac with rings := SMap.set {} s.valac.rings fn x } }

def State.bundle (s : State) (b : Nat) : Bundle := SMap.get {} s.links.bundles b
def State.setBundle (s : State) (b : Nat) (x : Bundle) : State :=
  { s with links := { s.links with bundles := SMap.set {} s.links.bundles b x } }
def State.arb (s : State) (k : Nat) : Arb := SMap.get {} s.links.arbs k
def State.setArb (s : State) (k : Nat) (x : Arb) : State :=
  { s with links := { s.links with arbs := SMap.set {} s.links.arbs k x } }

def State.steward (s : State) (h : Nat) : Steward := SMap.get {} s.power.stewards h
def State.setSteward (s : State) (h : Nat) (x : Steward) : State :=
  { s with power := { s.power with stewards := SMap.set {} s.power.stewards h x } }
def State.win (s : State) (w : Nat) : MirWin := SMap.get {} s.twin.windows w
def State.setWin (s : State) (w : Nat) (x : MirWin) : State :=
  { s with twin := { s.twin with windows := SMap.set {} s.twin.windows w x } }

def State.emit (s : State) (o : Out) : State := { s with out := o :: s.out }

/-- Add `n` to a 64-bit counter, which wraps (R71). -/
def bump (m : SMap DWord) (off n : Nat) : SMap DWord := SMap.set 0 m off (SMap.get 0 m off + BitVec.ofNat 64 n)

/-- Drop the counters whose offset lies in [lo, hi). -/
def clearCounters (m : SMap DWord) (lo hi : Nat) : SMap DWord := SMap.keep m fun k _ => k < lo || hi ≤ k

/-- Draw a free value of `w` bits (assumption 3). -/
def State.draw (s : State) (w : Nat) : BitVec w × State :=
  (BitVec.ofNat w (Config.freeNat s.free), { s with free := s.free + 1 })

/-- Meridian time in ns. -/
def State.now (s : State) : Nat := s.time.master
/-- The meridian is valid (R406). -/
def State.timeValid (s : State) : Bool := s.time.state != .unset
/-- Die counter d (R402). -/
def State.dieTime (s : State) (d : Nat) : Nat := SMap.get 0 s.time.dies d

/-! Interrupts and event rings (R369 to R372, R499). -/

/-- Vectors of a function's MSI-X table (R493, R494). -/
def tableSize (fn : Nat) : Nat := if fn = 0 then 2048 else 32

def State.vector (s : State) (fn v : Nat) : Vector := SMap.get {} s.host.vectors (2048 * fn + v)
def State.setVector (s : State) (fn v : Nat) (x : Vector) : State :=
  { s with host := { s.host with vectors := SMap.set {} s.host.vectors (2048 * fn + v) x } }

/-- A function may act: the PF always, a VF while VF Enable is set (R491, R371). -/
def State.fnEnabled (s : State) (fn : Nat) : Bool := fn == 0 || (s.host.vfEnable && fn ≤ s.host.numVfs)

/-- Send a vector's message, or hold it pending (R499); a disabled VF's message is neither (R371). -/
def State.signal (s : State) (fn v : Nat) : State :=
  if !s.fnEnabled fn then s
  else if (s.vector fn v).masked || SMap.get false s.host.fnMask fn then
    s.setVector fn v { s.vector fn v with pending := true }
  else s.emit (.msix fn v)

/-- Entries of a ring. -/
def EventRing.entries (r : EventRing) : Nat := if 6 ≤ r.size && r.size ≤ 16 then 2 ^ r.size else 64
/-- One place stays free (R372). -/
def EventRing.full (r : EventRing) : Bool := (r.tail + 1) % r.entries == r.head % r.entries

/-- The 64 bytes of an event entry (R370). -/
def Event.bytes (e : Event) (phase : Bool) (number : Nat) : List Byte :=
  leBytes 2 e.type ++ leBytes 1 e.partition ++ leBytes 1 (bit phase + 2 * bit e.copy) ++ leBytes 4 number ++
  leBytes 8 e.time.toNat ++ padTo 48 e.payload

/-- Write one entry at the tail and signal it (R370). -/
def State.evrWrite (s : State) (fn : Nat) (e : Event) : State :=
  let r := s.ring fn
  let t := (r.tail + 1) % r.entries
  let s1 := s.emit (.memWrite fn (r.base.toNat + 64 * r.tail) (e.bytes r.phase r.number))
  let s2 := s1.setRing fn { r with tail := t, number := (r.number + 1) % 2 ^ 32, phase := if t = 0 then !r.phase else r.phase }
  s2.signal fn (if r.vector < tableSize fn then r.vector else 0)

/-- Raise an event on a ring: written, kept in the backlog, or discarded with a count (R372). -/
def State.evrPut (s : State) (fn : Nat) (e : Event) : State :=
  let r := s.ring fn
  if r.enable && s.fnEnabled fn && r.backlog.isEmpty && r.lost == 0 && !r.full then s.evrWrite fn e
  else if r.backlog.length < 256 then s.setRing fn { r with backlog := r.backlog ++ [e] }
  else s.setRing fn { r with dropped := (r.dropped + 1) % 2 ^ 32, lost := r.lost + 1 }

/-- Write waiting events while there is room: an OVERFLOW ahead of later events, then the backlog (R372). -/
def State.evrDrain (s : State) (fn : Nat) : Nat → State
  | 0 => s
  | n + 1 =>
    let r := s.ring fn
    if !r.enable || !s.fnEnabled fn || r.full then s
    else match r.backlog with
      | e :: rest => ((s.setRing fn { r with backlog := rest }).evrWrite fn e).evrDrain fn n
      | [] =>
        if r.lost = 0 then s
        else ((s.setRing fn { r with lost := 0 }).evrWrite fn
          { type := 0xFF, partition := 0xFF, copy := false, time := BitVec.ofNat 64 s.now, payload := leBytes 4 r.lost })

/-- An event for the PF ring. -/
def State.post (s : State) (type partition : Nat) (payload : List Byte) : State :=
  s.evrPut 0 { type, partition, copy := false, time := BitVec.ofNat 64 s.now, payload }

/-- A partition event: to the bound VF's ring and, as a copy, to the PF ring (R371). -/
def State.postPart (s : State) (type p : Nat) (payload : List Byte) : State :=
  let fn := match s.part p with | some x => x.fn | none => 0
  let e : Event := { type, partition := p, copy := false, time := BitVec.ofNat 64 s.now, payload }
  if fn = 0 then s.evrPut 0 e else (s.evrPut fn e).evrPut 0 { e with copy := true }

/-! Management frames (R523, R524). -/

/-- An EVENT frame for the console while a session is open. -/
def State.consoleEvent (s : State) (type : Nat) (payload : List Byte) : State :=
  match s.fw.session with
  | some x =>
    if !x.proved then s else
    let e : Event := { type, partition := 0xFF, copy := false, time := BitVec.ofNat 64 s.now, payload }
    let body := e.bytes true s.fw.eventNo
    let s1 := s.emit (.frame 6 x.id (BitVec.ofNat 64 (x.txCount + 1)) body)
    { s1 with fw := { s1.fw with eventNo := s1.fw.eventNo + 1, events := s1.fw.events ++ [(s1.fw.eventNo, body, 1)],
                                 session := some { x with txCount := x.txCount + 1 } } }
  | none => s

/-! The logbook (R540 to R542). -/

/-- Two entries merge when these agree (R541). -/
def LogEntry.same (a b : LogEntry) : Bool :=
  a.code == b.code && a.source == b.source && a.unit == b.unit && a.partition == b.partition && a.ctx == b.ctx
    && a.data == b.data

/-- What an entry says, before its place in the logbook is known. -/
structure LogItem where
  code : Nat
  severity : Nat
  source : Nat := 0
  unit : Nat := 0
  partition : Nat := 0xFF
  fault : Nat := 0
  ctx : Nat := 0xFFFF
  cause : Nat := 0
  data : List Byte := []
deriving DecidableEq, Repr

/-- The bytes in flash wait for the end of an FW_COMMIT (R515). -/
def State.committing (s : State) : Bool := s.valac.ops.any fun o => o.cmd.opcode == 0x0801

/-- A step of a start is under way: steps 1 and 2 run in state 0 (R531). -/
def State.starting (s : State) : Bool := s.sys.state == 1 || (s.sys.state == 0 && s.sys.standby && !s.sys.valacUp)

/-- The entry as it is raised now. -/
def State.logMake (s : State) (i : LogItem) : LogEntry :=
  { index := s.log.next, time := BitVec.ofNat 64 s.now, code := i.code, severity := i.severity,
    flags := bit s.timeValid + 2 * bit s.fw.recovery + 4 * bit s.committing,
    source := i.source, unit := i.unit, partition := i.partition, fault := i.fault, ctx := i.ctx, cause := i.cause,
    step := if s.starting then s.sys.step else 0, count := 1, data := padTo 32 i.data }

/-- Raise the count of the last entry that merges with `e`, if it was first raised less than 1 s before (R541). -/
def logMerge (e : LogEntry) (l : List LogEntry) : Option (List LogEntry × Nat) :=
  match l.reverse.find? (fun x => x.same e) with
  | none => none
  | some x =>
    if e.severity ≤ 1 && e.time.toNat < x.time.toNat + 1000000000 then
      some (l.map fun y => if y.index = x.index then { y with count := y.count + 1, flags := y.flags ||| 8 } else y, x.index)
    else none

/-- Write an entry into the logbook; answers its index (none when it was discarded). -/
def State.logPut (s : State) (i : LogItem) : Option Nat × State :=
  let e := s.logMake i
  match logMerge e s.log.held with
  | some (held, n) => (some n, { s with log := { s.log with held } })
  | none =>
    match (if s.log.held.any (fun x => x.same e) then none else logMerge e s.log.flash) with
    | some (flash, n) => (some n, { s with log := { s.log with flash } })
    | none =>
      if s.log.held.length < 4096 then
        (some e.index, { s with log := { s.log with held := s.log.held ++ [e], next := s.log.next + 1 } })
      else (none, { s with log := { s.log with dropped := s.log.dropped + 1 } })

/-- An entry without an event. -/
def State.note (s : State) (i : LogItem) : State := (s.logPut i).2

/-- An entry with its LOG_WARNING event (R371). -/
def State.warn (s : State) (i : LogItem) : State :=
  match s.logPut i with
  | (some n, s1) => s1.post 0x50 i.partition (leBytes 2 i.code ++ List.replicate 6 0 ++ leBytes 8 n)
  | (none, s1) => s1

end Sys2Proof.Machine
end

