-- ==== Sys2Proof/Machine/Float.lean ====
section
/-!
DEFINITION. Floating-point numbers as exact dyadic values, rounding into the module's formats, and the arithmetic of R92 to
R95, R126 and R129.
-/
namespace Sys2Proof.Machine

/-- A value: (-1)^neg · m · 2^e, an infinity, or NaN. -/
inductive FVal where
  | nan
  | inf (neg : Bool)
  | fin (neg : Bool) (m : Nat) (e : Int)
deriving DecidableEq, Repr

/-- What the all-ones exponent of a format means (R76). -/
inductive FTop where
  /-- IEEE 754: infinities and NaN. -/
  | ieee
  /-- E4M3: numbers, but for NaN in the all-ones code. -/
  | e4m3
  /-- Numbers only. -/
  | plain
deriving DecidableEq, Repr

structure FFmt where
  eb   : Nat
  mb   : Nat
  bias : Nat
  top  : FTop
deriving DecidableEq, Repr

def FFmt.fp32 : FFmt := { eb := 8, mb := 23, bias := 127, top := .ieee }
def FFmt.fp16 : FFmt := { eb := 5, mb := 10, bias := 15, top := .ieee }
def FFmt.bf16 : FFmt := { eb := 8, mb := 7, bias := 127, top := .ieee }
def FFmt.e5m2 : FFmt := { eb := 5, mb := 2, bias := 15, top := .ieee }
def FFmt.e4m3 : FFmt := { eb := 4, mb := 3, bias := 7, top := .e4m3 }
/-- MXFP4 element (R76). -/
def FFmt.e2m1 : FFmt := { eb := 2, mb := 1, bias := 1, top := .plain }
/-- MXFP6 elements (R76). -/
def FFmt.e3m2 : FFmt := { eb := 3, mb := 2, bias := 3, top := .plain }
def FFmt.e2m3 : FFmt := { eb := 2, mb := 3, bias := 1, top := .plain }

def FFmt.signBit (f : FFmt) : Nat := 2 ^ (f.eb + f.mb)
def FFmt.infCode (f : FFmt) : Nat := (2 ^ f.eb - 1) * 2 ^ f.mb
def FFmt.maxCode (f : FFmt) : Nat :=
  match f.top with
  | .ieee => f.infCode - 1
  | .e4m3 => f.signBit - 2
  | .plain => f.signBit - 1
/-- The canonical NaN (R126). -/
def FFmt.nanCode (f : FFmt) : Nat :=
  match f.top with
  | .ieee => f.infCode + 2 ^ (f.mb - 1)
  | _ => f.signBit - 1

/-- The value of a code. -/
def FFmt.decode (f : FFmt) (code : Nat) : FVal :=
  let neg := code / f.signBit % 2 == 1
  let mag := code % f.signBit
  if f.top == .ieee && f.infCode < mag then .nan
  else if f.top == .ieee && mag == f.infCode then .inf neg
  else if f.top == .e4m3 && mag == f.signBit - 1 then .nan
  else
    let ex := mag / 2 ^ f.mb
    let man := mag % 2 ^ f.mb
    if ex = 0 then .fin neg man (1 - (f.bias : Int) - f.mb)
    else .fin neg (man + 2 ^ f.mb) ((ex : Int) - f.bias - f.mb)

/-- Rounding directions: 0 nearest even, 1 toward zero, 2 toward -∞, 3 toward +∞ (R125). -/
def shiftRound (rm : Nat) (neg : Bool) (m sh : Nat) : Nat :=
  let q := m / 2 ^ sh
  let r := m % 2 ^ sh
  let up := match rm with
    | 0 => decide (2 ^ sh < 2 * r) || (decide (2 * r = 2 ^ sh) && q % 2 == 1)
    | 1 => false
    | 2 => neg && r != 0
    | _ => !neg && r != 0
  q + bit up

/-- The code of the magnitude m · 2^e, which may lie beyond the largest. -/
def FFmt.roundMag (f : FFmt) (rm : Nat) (neg : Bool) (m : Nat) (e : Int) : Nat :=
  if m = 0 then 0
  else
    let emin : Int := 1 - (f.bias : Int)
    let q : Int := max (e + Nat.log2 m) emin - f.mb
    let mant := if q ≤ e then m * 2 ^ (e - q).toNat else shiftRound rm neg m (q - e).toNat
    mant + (q - (emin - f.mb)).toNat * 2 ^ f.mb

def FFmt.withSign (f : FFmt) (neg : Bool) (mag : Nat) : Nat := if neg then mag + f.signBit else mag

/-- Round a value into a format; `ftz` flushes subnormal results. -/
def FFmt.pack (f : FFmt) (rm : Nat) (ftz : Bool) (v : FVal) : Nat :=
  match v with
  | .nan => f.nanCode
  | .inf neg => f.withSign neg f.infCode
  | .fin neg m e =>
    let c := f.roundMag rm neg m e
    if f.maxCode < c then
      let toInf := match rm with | 0 => true | 1 => false | 2 => neg | _ => !neg
      f.withSign neg (if toInf then f.infCode else f.maxCode)
    else if ftz && c < 2 ^ f.mb then f.withSign neg 0
    else f.withSign neg c

/-- Subnormal inputs become zero of the same sign (R126). -/
def FFmt.load (f : FFmt) (ftz : Bool) (code : Nat) : FVal :=
  if ftz && code % f.signBit < 2 ^ f.mb then .fin (code / f.signBit % 2 == 1) 0 0 else f.decode code

/-! Exact operations. -/

def FVal.sgn (neg : Bool) (m : Nat) : Int := if neg then -(m : Int) else m

def FVal.neg : FVal → FVal
  | .nan => .nan
  | .inf n => .inf !n
  | .fin n m e => .fin (!n) m e

def FVal.abs : FVal → FVal
  | .nan => .nan
  | .inf _ => .inf false
  | .fin _ m e => .fin false m e

/-- Sum; `down` is rounding toward -∞, under which an exact zero sum is negative. -/
def FVal.add (down : Bool) : FVal → FVal → FVal
  | .nan, _ => .nan
  | _, .nan => .nan
  | .inf a, .inf b => if a = b then .inf a else .nan
  | .inf a, _ => .inf a
  | _, .inf b => .inf b
  | .fin n1 m1 e1, .fin n2 m2 e2 =>
    let e := min e1 e2
    let x := FVal.sgn n1 (m1 * 2 ^ (e1 - e).toNat) + FVal.sgn n2 (m2 * 2 ^ (e2 - e).toNat)
    if x = 0 then .fin (if n1 = n2 then n1 else down) 0 0 else .fin (decide (x < 0)) x.natAbs e

def FVal.mul : FVal → FVal → FVal
  | .nan, _ => .nan
  | _, .nan => .nan
  | .inf a, .inf b => .inf (a != b)
  | .inf a, .fin b m _ => if m = 0 then .nan else .inf (a != b)
  | .fin a m _, .inf b => if m = 0 then .nan else .inf (a != b)
  | .fin a m1 e1, .fin b m2 e2 => .fin (a != b) (m1 * m2) (e1 + e2)

/-- Order of two values, none when one is NaN. -/
def FVal.cmp : FVal → FVal → Option Ordering
  | .nan, _ => none
  | _, .nan => none
  | .inf a, .inf b => some (if a = b then .eq else if a then .lt else .gt)
  | .inf a, _ => some (if a then .lt else .gt)
  | _, .inf b => some (if b then .gt else .lt)
  | .fin n1 m1 e1, .fin n2 m2 e2 =>
    let e := min e1 e2
    some (compare (FVal.sgn n1 (m1 * 2 ^ (e1 - e).toNat)) (FVal.sgn n2 (m2 * 2 ^ (e2 - e).toNat)))

def FVal.isNan : FVal → Bool
  | .nan => true
  | _ => false
def FVal.negative : FVal → Bool
  | .nan => false
  | .inf n => n
  | .fin n _ _ => n

/-- Minimum and maximum: the other operand beside one NaN; -0 counts below +0 (R126). -/
def FVal.pick (mx : Bool) (x y : FVal) : FVal :=
  match x.cmp y with
  | none => if x.isNan then y else x
  | some .lt => if mx then y else x
  | some .gt => if mx then x else y
  | some .eq => if x.negative then (if mx then y else x) else (if mx then x else y)

def FVal.ofInt (i : Int) : FVal := .fin (decide (i < 0)) i.natAbs 0

/-- Integer part toward zero. -/
def FVal.trunc (neg : Bool) (m : Nat) (e : Int) : Int :=
  FVal.sgn neg (if 0 ≤ e then m * 2 ^ e.toNat else m / 2 ^ (-e).toNat)

/-- Conversion to an integer range: toward zero, saturating, NaN gives 0 (R129). -/
def FVal.toInt (lo hi : Int) : FVal → Int
  | .nan => 0
  | .inf n => if n then lo else hi
  | .fin n m e => max lo (min hi (FVal.trunc n m e))

/-- Conversion with the choices of R95; answers whether `sat` clamped. -/
def FFmt.convert (f : FFmt) (sat : Bool) (v : FVal) : Nat × Bool :=
  let beyond := fun (neg : Bool) =>
    if sat then (f.withSign neg f.maxCode, true)
    else (f.withSign neg (if f.top == .ieee then f.infCode else f.nanCode), false)
  match v with
  | .nan => (f.nanCode, false)
  | .inf neg => beyond neg
  | .fin neg m e =>
    let c := f.roundMag 0 neg m e
    if f.maxCode < c then beyond neg else (f.withSign neg c, false)

/-! Roots and reciprocals with the bits below the last place. -/

/-- Integer square root, from bit `n` down. -/
def isqrtGo (x : Nat) : Nat → Nat → Nat
  | 0, r => if (r + 1) * (r + 1) ≤ x then r + 1 else r
  | n + 1, r => let t := r + 2 ^ (n + 1); isqrtGo x n (if t * t ≤ x then t else r)
def isqrt (x : Nat) : Nat := isqrtGo x (Nat.log2 x / 2 + 1) 0

/-- Square root, exact but for a last bit that is set when bits are lost: enough to round correctly (R126). -/
def FVal.sqrt : FVal → FVal
  | .nan => .nan
  | .inf neg => if neg then .nan else .inf false
  | .fin neg m e =>
    if m = 0 then .fin neg 0 0
    else if neg then .nan
    else
      let k : Nat := 80 + (e % 2).toNat
      let x := m * 2 ^ k
      let r := isqrt x
      .fin false (2 * r + bit (r * r != x)) ((e - k) / 2 - 1)

/-- The numbers of a format within one unit in the last place of a positive value that lies from `c` (its code rounded
toward zero) up, exactly there or not; `fr` picks one. -/
def nearOne (c : Nat) (exact : Bool) (fr : Nat) : Nat :=
  if exact then c + fr % 3 - 1 else c + fr % 2

/-- FRCP and FRSQ of FP32 (R126, assumption 9): `root` takes the square root first. -/
def frecip (root : Bool) (ftz : Bool) (code fr : Nat) : Nat :=
  let f := FFmt.fp32
  match f.load ftz code with
  | .nan => f.nanCode
  | .inf neg => if root && neg then f.nanCode else f.withSign neg 0
  | .fin neg m e =>
    if m = 0 then f.withSign neg f.infCode
    else if root && neg then f.nanCode
    else
      let p : Nat := 200
      let (q, ex, e2) : Nat × Bool × Int :=
        if root then
          let k : Nat := (e % 2).toNat
          let y := m * 2 ^ k
          let r := isqrt (2 ^ (2 * p) / y)
          (r, r * r * y == 2 ^ (2 * p), -(e - k) / 2 - p)
        else (2 ^ p / m, decide (2 ^ p % m = 0), -e - p)
      let c := f.roundMag 1 false (2 * q + bit (!ex)) (e2 - 1)
      let exact := ex && f.roundMag 3 false (2 * q) (e2 - 1) == c
      let r := nearOne c exact fr
      let r1 := if f.maxCode < r then f.infCode else r
      f.withSign neg (if ftz && r1 < 2 ^ f.mb then 0 else r1)

/-! 2^x and log2 x: fixed point with 96 fraction bits; the result lies within three units of the last place, of which the
spec allows two (assumption 9). -/

def fxOne : Nat := 2 ^ 96
/-- 2^(f · 2^-n …): multiply in 2^(2^-i) for each bit of the fraction, from the top. -/
def exp2Go : Nat → Nat → Nat → Nat → Nat
  | 0, _, _, acc => acc
  | n + 1, frac, base, acc =>
    let b := isqrt (base * fxOne)
    let top := frac / 2 ^ 95 % 2
    exp2Go n (frac * 2 % fxOne) b (if top = 1 then acc * b / fxOne else acc)
/-- log2 of a number in [1, 2), bit by bit. -/
def log2Go : Nat → Nat → Nat → Nat
  | 0, _, acc => acc
  | n + 1, x, acc =>
    let y := x * x / fxOne
    if 2 * fxOne ≤ y then log2Go n (y / 2) (2 * acc + 1) else log2Go n y (2 * acc)

/-- A code within three places of `c`, by a free value. -/
def nearTwo (c fr : Nat) : Nat := c + fr % 7 - 3

def fexp2 (ftz : Bool) (code fr : Nat) : Nat :=
  let f := FFmt.fp32
  match f.load ftz code with
  | .nan => f.nanCode
  | .inf neg => if neg then 0 else f.infCode
  | .fin neg m e =>
    if m = 0 then f.pack 0 false (.fin false 1 0)
    else
      let x : Int := FVal.sgn neg (if 0 ≤ e then m * 2 ^ (Nat.min e.toNat 16) * fxOne else m * fxOne / 2 ^ (-e).toNat)
      let n : Int := x / (fxOne : Int)
      let frac := (x % (fxOne : Int)).toNat
      if n < -200 then 0
      else if 200 < n then f.infCode
      else
        let y := exp2Go 60 frac (2 * fxOne) fxOne
        let c := f.roundMag 0 false y (n - 96)
        let r := nearTwo c fr
        let r1 := if f.maxCode < r then f.infCode else r
        if ftz && r1 < 2 ^ f.mb then 0 else r1

def flog2 (ftz : Bool) (code fr : Nat) : Nat :=
  let f := FFmt.fp32
  match f.load ftz code with
  | .nan => f.nanCode
  | .inf neg => if neg then f.nanCode else f.infCode
  | .fin neg m e =>
    if m = 0 then f.withSign true f.infCode
    else if neg then f.nanCode
    else
      let l := Nat.log2 m
      let frac := log2Go 72 (m * fxOne / 2 ^ l) 0
      let x : Int := (e + l) * (2 ^ 72 : Nat) + frac
      if x = 0 then 0
      else
        let c := f.roundMag 0 (decide (x < 0)) x.natAbs (-72)
        f.withSign (decide (x < 0)) (nearTwo c fr)

/-! FP32 and packed arithmetic. -/

/-- FP32 operation from exact values to a register value. -/
def f32 (ftz : Bool) (rm : Nat) (v : FVal) : Word := BitVec.ofNat 32 (FFmt.fp32.pack rm ftz v)
def ld32 (ftz : Bool) (w : Word) : FVal := FFmt.fp32.load ftz w.toNat

/-- a · b + c, rounded once. -/
def fmaVal (down : Bool) (a b c : FVal) : FVal := FVal.add down (a.mul b) c

/-- Two packed results of a 16-bit format. -/
def packed2 (f : FFmt) (ftz : Bool) (g : (Nat → FVal) → FVal) (xs : List Word) : Word :=
  let half := fun (hi : Nat) => f.pack 0 ftz (g fun i => f.load ftz (bitsOf (xs.getD i 0).toNat (16 * hi) 16))
  BitVec.ofNat 32 (half 0 + 2 ^ 16 * half 1)

/-! Reductions at the home (R218): nearest even, subnormals kept. -/

def redFp32 (mx : Option Bool) (a b : Word) : Word :=
  match mx with
  | none => f32 false 0 (FVal.add false (ld32 false a) (ld32 false b))
  | some m => f32 false 0 (FVal.pick m (ld32 false a) (ld32 false b))

/-- BF16 to FP32 and back. -/
def bf16To32 (h : Nat) : Word := BitVec.ofNat 32 (FFmt.fp32.pack 0 false (FFmt.bf16.decode h))
def fp32ToBf16 (w : Word) : Nat := FFmt.bf16.pack 0 false (FFmt.fp32.decode w.toNat)

end Sys2Proof.Machine
end

