-- ==== Sys2Proof/Machine/Flags.lean ====
section
/-!
DEFINITION. What the comparisons write into predicates, and the integer results that depend on them: comparison codes, shifts,
minima and maxima, saturation (R119 to R121, R124, R125, R129).
-/
namespace Sys2Proof.Machine

/-- The comparison codes of R121. -/
def compareCode {w : Nat} (code : Nat) (a b : BitVec w) : Bool :=
  match code with
  | 0 => a == b
  | 1 => a != b
  | 2 => decide (a.toInt < b.toInt)
  | 3 => decide (a.toInt ≤ b.toInt)
  | 4 => decide (b.toInt < a.toInt)
  | 5 => decide (b.toInt ≤ a.toInt)
  | 6 => decide (a.toNat < b.toNat)
  | 7 => decide (a.toNat ≤ b.toNat)
  | 8 => decide (b.toNat < a.toNat)
  | _ => decide (b.toNat ≤ a.toNat)

/-- Shifts by the whole unsigned value of b (R120). -/
def shiftLeft {w : Nat} (a b : BitVec w) : BitVec w := if w ≤ b.toNat then 0 else a <<< b.toNat
def shiftRight {w : Nat} (a b : BitVec w) : BitVec w := if w ≤ b.toNat then 0 else a >>> b.toNat
def shiftArith {w : Nat} (a b : BitVec w) : BitVec w := a.sshiftRight (if w ≤ b.toNat then w else b.toNat)

/-- High half of a product. -/
def mulHiU {w : Nat} (a b : BitVec w) : BitVec w := BitVec.ofNat w (a.toNat * b.toNat / 2 ^ w)
def mulHiS {w : Nat} (a b : BitVec w) : BitVec w := BitVec.ofInt w (a.toInt * b.toInt / (2 ^ w : Nat))

def minS {w : Nat} (a b : BitVec w) : BitVec w := if b.toInt < a.toInt then b else a
def maxS {w : Nat} (a b : BitVec w) : BitVec w := if a.toInt < b.toInt then b else a
def minU {w : Nat} (a b : BitVec w) : BitVec w := if b.toNat < a.toNat then b else a
def maxU {w : Nat} (a b : BitVec w) : BitVec w := if a.toNat < b.toNat then b else a

/-- Two 16-bit results, each from the same half of a and b (R124). -/
def halves16 (f : Half16 → Half16 → Half16) (a b : Word) : Word :=
  (f (a.extractLsb' 16 16) (b.extractLsb' 16 16)) ++ (f (a.extractLsb' 0 16) (b.extractLsb' 0 16))

def popCount (a : Word) : Nat := ((List.range 32).filter fun i => a.getLsbD i).length
def leadZeros (a : Word) : Nat := if a = 0 then 32 else 31 - Nat.log2 a.toNat

/-- FCMP codes (R125): ordered comparisons with a NaN are false, NE is true. -/
def compareFloat (code : Nat) (a b : FVal) : Bool :=
  match code, a.cmp b with
  | 0, some o => o == .eq
  | 1, some o => o != .eq
  | 1, none => true
  | 2, some o => o == .lt
  | 3, some o => o != .gt
  | 4, some o => o == .gt
  | 5, some o => o != .lt
  | 6, o => o.isNone
  | 7, o => o.isSome
  | _, _ => false

/-- Class of a type code of R128: bits, and whether integer and signed. -/
def typeBits (t : Nat) : Nat := match t with | 0 => 32 | 1 => 16 | 2 => 16 | 3 => 8 | 4 => 8 | 5 => 32 | 6 => 32 | 7 => 8 | 8 => 8 | _ => 16
def typeInt (t : Nat) : Bool := 5 ≤ t
def typeSigned (t : Nat) : Bool := t == 5 || t == 7 || t == 9
def typeFmt (t : Nat) : FFmt := match t with | 0 => .fp32 | 1 => .fp16 | 2 => .bf16 | 3 => .e4m3 | _ => .e5m2

/-- Range of an integer type. -/
def typeRange (t : Nat) : Int × Int :=
  let w := typeBits t
  if typeSigned t then (-(2 ^ (w - 1) : Nat), (2 ^ (w - 1) : Nat) - 1) else (0, (2 ^ w : Nat) - 1)

/-- Conversion of the low bits of a source from `st` to `dt` (R129): the bits of the result. -/
def convertType (sat : Bool) (st dt v : Nat) : Nat :=
  let w := typeBits st
  let n := v % 2 ^ w
  if typeInt st then
    let x : Int := if typeSigned st then signedOf w n else n
    if typeInt dt then
      let r := typeRange dt
      wrapNat (typeBits dt) (if sat then max r.1 (min r.2 x) else x)
    else ((typeFmt dt).convert sat (FVal.ofInt x)).1
  else
    let x := (typeFmt st).decode n
    if typeInt dt then wrapNat (typeBits dt) (x.toInt (typeRange dt).1 (typeRange dt).2)
    else ((typeFmt dt).convert sat x).1

end Sys2Proof.Machine
end

