-- ==== Sys2Proof/Machine/Memory.lean ====
section
/-!
DEFINITION. Device physical memory: the address map, regions and channel locations, homes and controllers, ownership,
poison, and the bytes behind the controllers (chapter 08).
-/
namespace Sys2Proof.Machine

/-! The address map (R256). -/

def tier1Base : Nat := 0
def tier1Top : Nat := 0x00D800000000
def tier2Base : Nat := 0x010000000000
def tier2Top : Nat := 0x028000000000
def privateTop : Nat := 0x028300000000
def tier3Base : Nat := 0x040000000000
def tier3Top : Nat := 0x060000000000
def icsBase : Nat := 0xF00000000000

/-- What a device physical address names. -/
inductive AddrClass where
  | tier1 | tier2 | valacArea | tier3 | ics | reserved
deriving DecidableEq, Repr

def addrClass (a : Nat) : AddrClass :=
  if a < tier1Top then .tier1
  else if tier2Base ≤ a && a < tier2Top then .tier2
  else if tier2Top ≤ a && a < privateTop then .valacArea
  else if tier3Base ≤ a && a < tier3Top then .tier3
  else if icsBase ≤ a && a < 2 ^ 48 then .ics
  else .reserved

/-! Regions (R257 to R263). -/

def granuleBytes : Nat := 0x200000
/-- Bytes of a bay row of a strand: 16 MiB in Tier 1, 8 MiB in Tier 2 (R259). -/
def bayRow (t2 : Bool) : Nat := if t2 then 0x800000 else 0x1000000
/-- Region table entries 64 to 127 and 144 to 159 are Tier 2 (chapter 08, Registers). -/
def regionTier2 (r : Nat) : Bool := (64 ≤ r && r < 128) || 144 ≤ r
def Region.bytes (x : Region) (t2 : Bool) : Nat := x.strands.length * x.bays * bayRow t2

def Region.covers (x : Region) (t2 : Bool) (a : Nat) : Bool := x.base ≤ a && a < x.base + x.bytes t2

/-- The region that covers an address: its table index and itself. -/
def State.regionAt (s : State) (a : Nat) : Option (Nat × Region) :=
  let hit : List (Nat × Region) := s.store.regions.filterMap fun e =>
    match e.2 with
    | some x => if x.covers (regionTier2 e.1) a then some (e.1, x) else none
    | none => none
  hit.head?

/-- Where an address lies: tier, strand, die or hub, stripe in the channel, byte in the stripe (R261). -/
structure Spot where
  t2     : Bool
  strand : Nat
  unit   : Nat
  stripe : Nat
  byte   : Nat
deriving DecidableEq, Repr

/-- R261. -/
def Region.spot (x : Region) (t2 : Bool) (a : Nat) : Spot :=
  let n := x.strands.length
  if t2 then
    let i := (a - x.base) / 4096
    { t2, strand := x.strands.getD (i / 4 % n) 0, unit := i % 4, stripe := 512 * x.firstBay + i / (4 * n),
      byte := (a - x.base) % 4096 }
  else
    let i := (a - x.base) / 2048
    { t2, strand := x.strands.getD (i / 8 % n) 0, unit := i % 8, stripe := 1024 * x.firstBay + i / (8 * n),
      byte := (a - x.base) % 2048 }

/-- The key under which the model keeps a byte of a channel (assumption 8). -/
def Spot.loc (p : Spot) : Nat :=
  if p.t2 then 2 ^ 44 + ((p.strand * 4 + p.unit) * 4194304 + p.stripe) * 4096 + p.byte
  else ((p.strand * 8 + p.unit) * 589824 + p.stripe) * 2048 + p.byte

def State.spot (s : State) (a : Nat) : Option Spot :=
  match s.regionAt a with
  | some (r, x) => some (x.spot (regionTier2 r) a)
  | none => none

/-- The key of an address of Tier 1, Tier 2 or the Valac private area; none where no channel lies behind it (R262). -/
def State.locOf (s : State) (a : Nat) : Option Nat :=
  match addrClass a with
  | .valacArea => some (2 ^ 46 + (a - tier2Top))
  | .tier1 | .tier2 => (s.spot a).map Spot.loc
  | _ => none

/-- Package number 6·k + j of an address of the Valac private area (R262). -/
def privatePackage (a : Nat) : Nat := (a - tier2Top) / 0x20000000

/-- Half that homes a package's line in Tier 2 (R192): hub k, package j. -/
def tier2Half (k j a : Nat) : Nat := 2 * (if j ≤ 2 then k else k + 4) + bitsOf a 11 1

/-- The home half of an address (R191, R192, R257, R262). -/
def State.homeOf (s : State) (a : Nat) : Nat :=
  match addrClass a with
  | .valacArea => let p := privatePackage a; tier2Half (p / 6) (p % 6) a
  | _ => match s.spot a with
    | some p => if p.t2 then tier2Half p.unit (p.strand / 4) a else 2 * p.unit + (if p.strand < 48 then 0 else 1)
    | none => 0

/-- The controller of an address: 3·d + s, or 24 + 6·k + j (R257, R258). -/
def State.ctrlOf (s : State) (a : Nat) : Nat :=
  match addrClass a with
  | .valacArea => 24 + privatePackage a
  | _ => match s.spot a with
    | some p => if p.t2 then 24 + 6 * p.unit + p.strand / 4 else 3 * p.unit + p.strand / 32
    | none => 0

/-- Pseudo-channel or channel within the controller. -/
def State.chanOf (s : State) (a : Nat) : Nat :=
  match addrClass a with
  | .valacArea => (a - tier2Top) / 4096 % 4
  | _ => match s.spot a with
    | some p => if p.t2 then p.strand % 4 else p.strand % 32
    | none => 0

/-- DRAM bank and row of a stripe within its channel: the spec gives neither map (assumption 10). -/
def State.dramBank (s : State) (a : Nat) : Nat := match s.spot a with | some p => p.stripe % 64 | none => 0
def State.dramRow (s : State) (a : Nat) : Nat := match s.spot a with | some p => p.stripe / 64 | none => 0

/-! Bytes behind the controllers. -/

def State.memByte (s : State) (a : Nat) : Byte :=
  match s.locOf a with | some l => SMap.get 0 s.store.mem l | none => 0

def State.putMemByte (s : State) (a : Nat) (b : Byte) : State :=
  match s.locOf a with
  | some l => { s with store := { s.store with mem := SMap.set 0 s.store.mem l b } }
  | none => s

def State.putMem (s : State) (a : Nat) : List Byte → State
  | [] => s
  | b :: bs => (s.putMemByte a b).putMem (a + 1) bs

def State.memBytes (s : State) (a n : Nat) : List Byte := (List.range n).map fun i => s.memByte (a + i)

/-- Sector key of an address, for the poison set (R276). -/
def State.sectorKey (s : State) (a : Nat) : Option Nat := (s.locOf a).map (· / 32)

def State.poisoned (s : State) (a : Nat) : Bool :=
  match s.sectorKey a with | some k => s.store.poison.contains k | none => false

def insertKey (k : Nat) : List Nat → List Nat
  | [] => [k]
  | x :: r => if k < x then k :: x :: r else if k = x then x :: r else x :: insertKey k r

def State.setPoison (s : State) (a : Nat) (on : Bool) : State :=
  match s.sectorKey a with
  | some k => { s with store := { s.store with
      poison := if on then insertKey k s.store.poison else s.store.poison.filter (· != k) } }
  | none => s

/-! Tier 3 bytes. -/

def State.flashByte (s : State) (a : Nat) : Byte := SMap.get 0 s.store.flash (a - tier3Base)
def State.flashBytes (s : State) (a n : Nat) : List Byte := SMap.getBytes s.store.flash (a - tier3Base) n
def State.putFlash (s : State) (a : Nat) (bs : List Byte) : State :=
  { s with store := { s.store with flash := SMap.putBytes s.store.flash (a - tier3Base) bs } }

/-! Ownership (R279 to R281) and reload sources (R283). -/

def State.tagAt (s : State) (a : Nat) : Half16 := SMap.get 0 s.store.tags (a / granuleBytes)
def tagKind (t : Half16) : Nat := bitsOf t.toNat 14 2
def tagId (t : Half16) : Nat := bitsOf t.toNat 0 8
def mkTag (kind id : Nat) : Half16 := BitVec.ofNat 16 (kind * 2 ^ 14 + id)

def State.share (s : State) (g : Nat) : ShareGroup := SMap.get {} s.store.shares g
def ShareGroup.member (g : ShareGroup) (p : Nat) : Bool := (g.members ||| g.leaving).getLsbD p
def ShareGroup.loads (g : ShareGroup) (p : Nat) : Bool := g.loader == some p || g.leavingLoader == some p

/-- Outcome of the ownership check. -/
inductive Own where
  | pass | foreign | denied
deriving DecidableEq, Repr

/-- The check of R280 and R281 for partition `p`; `dma` marks a DMA request. -/
def State.owns (s : State) (p a : Nat) (write dma : Bool) : Own :=
  let t := s.tagAt a
  if tagKind t = 1 then (if tagId t = p then .pass else .foreign)
  else if tagKind t = 2 then
    let g := s.share (tagId t)
    if !write then (if g.member p then .pass else .foreign)
    else if dma && g.loads p then .pass
    else if g.member p || g.loads p then .denied
    else .foreign
  else .foreign

/-- A reload source covers the address (R283). -/
def ReloadSource.covers (x : ReloadSource) (a : Nat) : Bool := x.base ≤ a && a < x.base + x.len
/-- The address lies in a named Tier 3 copy (R283). -/
def ReloadSource.copyCovers (x : ReloadSource) (a : Nat) : Bool :=
  x.copies.any fun c => !c.1 && c.2 ≤ a && a < c.2 + x.len

def State.reloadAt (s : State) (a : Nat) : Option (Nat × ReloadSource) :=
  (s.store.reloads.filterMap fun e => match e.2 with
    | some x => if x.covers a then some (e.1, x) else none
    | none => none).head?

/-- Writes to the address are refused: covered data, or a named copy in Tier 3 (R283). -/
def State.writeProtected (s : State) (a : Nat) : Bool :=
  s.store.reloads.any fun e => match e.2 with
    | some x => x.covers a || x.copyCovers a
    | none => false

/-! Mirror windows (R473). -/

/-- The window that holds an address, OFF ones apart. -/
def State.winAt (s : State) (a : Nat) : Option (Nat × MirWin) :=
  (s.twin.windows.filterMap fun e =>
    if e.2.state != .off && e.2.start ≤ a && a < e.2.start + e.2.len then some (e.1, e.2) else none).head?

/-- The window receives and forwards writes. -/
def MirWin.mirrors (w : MirWin) : Bool := w.state == .active

end Sys2Proof.Machine
end

