-- ==== Sys2Proof/Machine/Lines.lean ====
section
/-!
DEFINITION. The lines of the cache halves and what moves between them and the memory controllers: lookup, victims, write-back,
merges, sweeps, replicas, reservations, and the arbiters' block numbers (chapters 05, 06, 08 and 10).
-/
namespace Sys2Proof.Machine

/-- Number of an ARB block, the key of Links.arbs. -/
def arbKey : ArbId → Nat
  | .tile c => 4096 + c.val
  | .dmaIssue c => 8192 + c.val
  | .bank h b => 16 * h.val + b.val
  | .memc m => 1024 + m.val
  | .seam d e => 1280 + 2 * d.val + bit e
  | .bnd (.die d p) => 1536 + 4 * d.val + p.val
  | .bnd (.hub k p) => 1792 + 4 * k.val + p.val
  | .bnd (.engine e p) => 2048 + 4 * e.val + p.val

/-- Kind, requester count and reset wait limit of a block (R333). -/
def arbInfo (k : Nat) : Nat × Nat × Nat :=
  if k < 1024 then (2, 13, 15)
  else if k < 1280 then (3, 8, 15)
  else if k < 1536 then (4, 8, 15)
  else if k < 1792 then
    let d := (k - 1536) / 4
    let p := k % 4
    if p = 2 then (6, 48, 63)
    else if (p = 0 && d % 4 == 0) || (p = 1 && d % 4 == 3) then (7, 8, 15)
    else (5, 40, 63)
  else if k < 2048 then (if k % 4 < 2 then (8, 48, 63) else (9, 8, 15))
  else if k < 4096 then (10, 8, 15)
  else if k < 8192 then (0, 4, 15)
  else (1, 16, 15)

/-- The limit as it acts: values below N - 1 act as N - 1 (R331). -/
def Arb.limit (a : Arb) (k : Nat) : Nat :=
  let i := arbInfo k
  Nat.max (match a.waitLimit with | some v => v | none => i.2.2) (i.2.1 - 1)

/-! Places of a line (R187, R188). -/

def lineOf (a : Nat) : Nat := a / 128 * 128
def bankOf (a : Nat) : Nat := bitsOf a 7 4 ^^^ bitsOf a 11 4
def setOf (a : Nat) : Nat := bitsOf a 15 12 ^^^ bitsOf a 27 12 ^^^ bitsOf a 39 9
def wayKey (a w : Nat) : Nat := 65536 * bankOf a + 16 * setOf a + w
def keyBank (key : Nat) : Nat := key / 65536
def keyWay (key : Nat) : Nat := key % 16

def Half.line (x : Half) (key : Nat) : CLine := SMap.get {} x.lines key
def Half.setLine (x : Half) (key : Nat) (l : CLine) : Half := { x with lines := SMap.set {} x.lines key l }

/-- The second way of a BF16 ACCUMULATE line (R217). -/
def CLine.second (l : CLine) : Bool := l.state == .accumulate && l.accType == .bf16 && l.pair.isNone

def CLine.isHomeOf (l : CLine) (a : Nat) : Bool :=
  l.addr == lineOf a && l.state != .invalid && l.state != .replica && l.state != .rfill && !l.second
def CLine.isReplicaOf (l : CLine) (a : Nat) : Bool := l.addr == lineOf a && (l.state == .replica || l.state == .rfill)
/-- States that hold a miss register or a fill (R198). -/
def CLine.transient (l : CLine) : Bool := l.state == .fill || l.state == .hold || l.state == .rfill

def Half.homeWay (x : Half) (a : Nat) : Option Nat :=
  ((List.range 16).map (wayKey a)).find? fun k => (x.line k).isHomeOf a
def Half.replicaWay (x : Half) (a : Nat) : Option Nat :=
  ((List.range 16).map (wayKey a)).find? fun k => (x.line k).isReplicaOf a

/-- The die's half of the same name as the line's home half (R203). -/
def State.replicaHalf (s : State) (d a : Nat) : Nat := 2 * d + s.homeOf a % 2

/-! Sectors. -/

def sectorBit (k : Nat) : BitVec 4 := BitVec.ofNat 4 (2 ^ k)
/-- The sectors that a list of byte offsets touches. -/
def sectorsOf (offs : List Nat) : BitVec 4 := offs.foldl (fun m o => m ||| sectorBit (o / 32 % 4)) 0
def sectorList (m : BitVec 4) : List Nat := (List.range 4).filter fun k => m.getLsbD k
/-- The sectors of which every byte is in the list. -/
def wholeSectors (offs : List Nat) : BitVec 4 :=
  (List.range 4).foldl (fun m k => if (List.range 32).all (fun i => offs.contains (32 * k + i)) then m ||| sectorBit k else m) 0

def CLine.byte (l : CLine) (o : Nat) : Byte := SMap.get 0 l.data o
def CLine.bytes (l : CLine) (o n : Nat) : List Byte := SMap.getBytes l.data o n
def CLine.put (l : CLine) (o : Nat) (b : Byte) : CLine := { l with data := SMap.set 0 l.data o b }
def CLine.putAll (l : CLine) (bs : List (Nat × Byte)) : CLine := bs.foldl (fun l e => l.put e.1 e.2) l

/-- The byte that a coherent read of a device physical address finds: in the home line, or behind the controllers. -/
def State.physByte (s : State) (a : Nat) : Byte :=
  match (s.half (s.homeOf a)).homeWay a with
  | some k =>
    let l := (s.half (s.homeOf a)).line k
    if l.valid.getLsbD (a % 128 / 32) then l.byte (a % 128) else s.memByte a
  | none => s.memByte a
def State.physBytes (s : State) (a n : Nat) : List Byte := (List.range n).map fun i => s.physByte (a + i)

/-! Counters, miss registers, reservations. -/

/-- Count a cache event of partition `p` in half `h` (R224). -/
def State.cacheCount (s : State) (h p off n : Nat) : State :=
  let x := s.half h
  if x.filterOn && x.filterPart != p then s else s.setHalf h { x with counters := bump x.counters off n }

/-- Miss registers of a bank held now (R209). -/
def Half.missBusy (x : Half) (b : Nat) : Nat :=
  (x.lines.filter fun e => keyBank e.1 == b && (e.2.state == .fill || e.2.state == .hold)).length

/-- Note the most registers held (missreg_hwm). -/
def Half.markHwm (x : Half) (b : Nat) : Half :=
  { x with hwm := SMap.set 0 x.hwm b (Nat.max (SMap.get 0 x.hwm b) (x.missBusy b)) }

/-- Every reservation with its holder. -/
def State.reservations (s : State) : List (Nat × Nat × Reservation) :=
  s.cores.flatMap fun c => c.2.groups.filterMap fun g => g.2.resv.map fun r => (c.1, g.1, r)

/-- End every reservation that `p` names (R176). -/
def State.dropResv (s : State) (p : Nat → Nat → Reservation → Bool) : State :=
  { s with cores := SMap.mapV {} s.cores fun c k =>
      { k with groups := SMap.mapV {} k.groups fun i g =>
        match g.resv with
        | some r => if p c i r then { g with resv := none } else g
        | none => g } }

/-- Removal of a line from its home ends the reservations it holds (R176 item 2). -/
def State.removalEndsResv (s : State) (line : Nat) : State := s.dropResv fun _ _ r => lineOf r.pa == line

/-- Reservations tracked by a bank (R177). -/
def State.bankResv (s : State) (h b : Nat) : Nat :=
  (s.reservations.filter fun e => s.homeOf e.2.2.pa == h && bankOf e.2.2.pa == b).length

/-! Controllers. -/

/-- The line an operation is about. -/
def MemOp.line : MemOp → Nat
  | .fetch a _ => lineOf a
  | .write a _ _ => lineOf a
  | .writePart a _ _ _ => lineOf a
  | .readFor a _ => lineOf a
  | .mend a _ _ _ _ => lineOf a
def MemOp.isMend : MemOp → Bool
  | .mend _ _ _ _ _ => true
  | _ => false

/-- Hand an operation to the controller of an address. -/
def State.pushMem (s : State) (a : Nat) (op : MemOp) : State :=
  let m := s.ctrlOf a
  s.setCtrl m { s.ctrl m with queue := (s.ctrl m).queue ++ [op] }

/-- Entries of the mender queue (R220). -/
def MemCtrl.menders (x : MemCtrl) : Nat := (x.queue.filter MemOp.isMend).length

/-! Write-back, reduce-writeback, eviction. -/

/-- Hand the dirty sectors of a line to its controller; the line keeps its state. -/
def State.writeDirty (s : State) (h key : Nat) : State :=
  let l := (s.half h).line key
  let s1 := (sectorList l.dirty).foldl (fun s k =>
    (s.pushMem l.addr (.write (l.addr + 32 * k) (l.bytes (32 * k) 32) (l.poison.getLsbD k))).cacheCount h l.part 0x148 1) s
  s1.setHalf h ((s1.half h).setLine key { l with dirty := 0 })

/-- Empty a way and, for a BF16 ACCUMULATE line, its second way. -/
def State.emptyWay (s : State) (h key : Nat) : State :=
  let l := (s.half h).line key
  let x := (s.half h).setLine key {}
  s.setHalf h (match l.pair with | some k => x.setLine k {} | none => x)

/-- Send the accumulators of a line to the mender (R220). -/
def State.reduceWriteback (s : State) (h key : Nat) : State :=
  let l := (s.half h).line key
  let s1 := (s.pushMem l.addr (.mend l.addr l.accOp l.accType l.touched l.accs)).cacheCount h l.part 0x158 1
  s1.emptyWay h key

/-- A line without replicas leaves its way (R199 eviction). -/
def State.evictNow (s : State) (h key : Nat) : State :=
  let l := (s.half h).line key
  let s1 := s.removalEndsResv l.addr
  match l.state with
  | .accumulate => s1.reduceWriteback h key
  | .clean | .dirty => (s1.writeDirty h key).emptyWay h key
  | _ => s1.emptyWay h key

/-- Put a line in HOLD and invalidate its replicas (R207, R208). -/
def State.startInvalidate (s : State) (h key : Nat) (after : AfterHold) (waiters : List Nat) : State :=
  let l := (s.half h).line key
  s.setHalf h (((s.half h).setLine key
    { l with state := .hold, why := .invalidate l.sharers, after, waiters := l.waiters ++ waiters }).markHwm (keyBank key))

/-- The state a line rests in when nothing is outstanding. -/
def CLine.rest (l : CLine) : LState := if l.dirty = 0 then .clean else .dirty

/-! Choice of a way (R195, R177). -/

/-- Ways of the mask in the asked role (R194); ways whose role is changing have none (R197). -/
def Half.eligible (x : Half) (mask : Half16) (replica : Bool) : List Nat :=
  let next := if x.cfgBusy then x.nNext else x.nReplica
  (List.range 16).filter fun w => mask.getLsbD w &&
    (if replica then decide (16 - Nat.min x.nReplica next ≤ w) else decide (w < 16 - Nat.max x.nReplica next))

/-- Least recently used of a list of ways. -/
def lruOf (x : Half) : List Nat → Option Nat
  | [] => none
  | k :: r => match lruOf x r with
    | none => some k
    | some j => if (x.line j).used < (x.line k).used then some j else some k

/-- What allocation finds: an empty way, a victim, or none. -/
inductive Choice where
  | empty (key : Nat)
  | victim (key : Nat)
  | none
deriving DecidableEq, Repr

/-- The way for a new line of partition `p` at address `a`; ways in `avoid` are passed over. -/
def State.chooseWay (s : State) (h p a : Nat) (replica : Bool) (avoid : List Nat) : Choice :=
  let x := s.half h
  let el := (x.eligible (SMap.get 0 x.waymask p) replica).map (wayKey a)
  match (el.filter fun k => !avoid.contains k).find? fun k => (x.line k).state == .invalid with
  | some k => .empty k
  | none =>
    let held := fun (l : CLine) => decide (2 ≤ el.length) && !replica && s.reservations.any fun e => lineOf e.2.2.pa == l.addr
    match lruOf x (el.filter fun k => !avoid.contains k && !(x.line k).transient && !held (x.line k)) with
    | some k => .victim k
    | none => .none

/-- Use stamp for least recently used. -/
def State.touch (s : State) (h key : Nat) : State :=
  let x := s.half h
  s.setHalf h { (x.setLine key { x.line key with used := x.clock + 1 }) with clock := x.clock + 1 }

/-! Fills and merges (R199, R219). -/

/-- Open a FILL for sectors of a line, with its first waiter. -/
def State.openFill (s : State) (h key : Nat) (mask : BitVec 4) (waiters : List Nat) : State :=
  let l := (s.half h).line key
  let s1 := s.setHalf h (((s.half h).setLine key
    { l with state := .fill, fetch := mask, waiters := l.waiters ++ waiters }).markHwm (keyBank key))
  s1.pushMem l.addr (.fetch l.addr mask)

/-- Begin the merge of an ACCUMULATE line (R219 step 1). -/
def State.beginMerge (s : State) (h key : Nat) (waiters : List Nat) : State :=
  let l := (s.half h).line key
  let s1 := s.cacheCount h l.part 0x160 1
  let s2 := s1.setHalf h ((s1.half h).setLine key { l with merging := true })
  s2.openFill h key l.touched waiters

/-! Replicas. -/

/-- Drop a replica; its home learns of it by an eviction notice (R206). -/
def State.dropReplica (s : State) (h key : Nat) : State :=
  let l := (s.half h).line key
  if l.state == .rfill then s.setHalf h ((s.half h).setLine key { l with doomed := true })
  else
    let s1 := s.cacheCount h l.part 0x140 1
    s1.setHalf h ((s1.half h).setLine key {})

/-! Sweeps (R196, R197, R223). -/

/-- Keys of the ways of a half that `p` names. -/
def Half.keys (x : Half) (p : Nat → CLine → Bool) : List Nat :=
  (x.lines.filter fun e => p e.1 e.2 && e.2.state != .invalid).map (·.1)

/-- Write back and invalidate a home line, or drop a replica; a line with replicas first invalidates them. -/
def State.clearWay (s : State) (h key : Nat) : State :=
  let l := (s.half h).line key
  match l.state with
  | .replica | .rfill => s.dropReplica h key
  | .fill | .hold => s
  | _ => if l.second then s
    else if l.sharers = 0 then s.evictNow h key
    else s.startInvalidate h key .evict []

/-- Lines a mode 0 sweep takes (R196). -/
def sweepTakes (part : Nat) (ways : Half16) (k : Nat) (l : CLine) : Bool := l.part == part && ways.getLsbD (keyWay k)

/-- Mode 0. -/
def State.sweepPart (s : State) (h part : Nat) (ways : Half16) : State :=
  ((s.half h).keys (sweepTakes part ways)).foldl (fun s k => s.clearWay h k) s

/-- Mode 1: write back, reduce-write back and drop the lines of a context (R223). -/
def State.sweepCtx (s : State) (h ctx : Nat) : State :=
  ((s.half h).keys fun _ l => l.ctx == ctx).foldl (fun s k =>
    let l := (s.half h).line k
    match l.state with
    | .dirty =>
      let s1 := s.writeDirty h k
      s1.setHalf h ((s1.half h).setLine k { (s1.half h).line k with state := .clean })
    | .accumulate => if l.second then s else s.reduceWriteback h k
    | .replica | .rfill => s.dropReplica h k
    | .fill | .hold => if l.merging then s else s.writeDirty h k
    | _ => s) s

/-- Every half's mode 1 sweep. -/
def State.sweepCtxAll (s : State) (ctx : Nat) : State := (List.range 16).foldl (fun s h => s.sweepCtx h ctx) s

end Sys2Proof.Machine
end

