-- ==== Sys2Proof/Machine/Requests.lean ====
section
/-!
DEFINITION. Requests in the memory fabric: their identity and order, what they read and write, how their results reach the
issuer, and the forwarding of window writes to the twin (R156 to R163, R172, R474 to R477).
-/
namespace Sys2Proof.Machine

/-! Fault kinds (R543). -/

def fkTranslation : Nat := 0x01
def fkUnpinned : Nat := 0x02
def fkForeign : Nat := 0x03
def fkPermission : Nat := 0x04
def fkDivergent : Nat := 0x05
def fkDeadlock : Nat := 0x06
def fkIllegal : Nat := 0x07
def fkMisaligned : Nat := 0x08
def fkPoison : Nat := 0x09
def fkUnreachable : Nat := 0x0A
def fkWatchdog : Nat := 0x0B
def fkMesh : Nat := 0x0C
def fkAborted : Nat := 0x10

/-- A fault of a core, with what its registers and its logbook entry record (R67, R311). -/
structure FaultRep where
  core   : Nat
  ctx    : Nat
  part   : Nat
  site   : Site
  kind   : Nat
  detail : Nat := 0
  cause  : Nat := 0
  addr   : Nat := 0
deriving DecidableEq, Repr

/-! The request list. -/

def State.req (s : State) (id : Nat) : Option Req := s.fab.reqs.find? fun r => r.id == id
def State.setReq (s : State) (r : Req) : State :=
  { s with fab := { s.fab with reqs := s.fab.reqs.map fun x => if x.id = r.id then r else x } }
def State.dropReq (s : State) (id : Nat) : State :=
  { s with fab := { s.fab with reqs := s.fab.reqs.filter fun x => x.id != id } }
def State.place (s : State) (id : Nat) (p : Place) : State :=
  { s with fab := { s.fab with reqs := s.fab.reqs.map fun x => if x.id = id then { x with place := p } else x } }

/-- Append a request under the next number. -/
def State.addReq (s : State) (r : Req) : State :=
  { s with fab := { s.fab with reqs := s.fab.reqs ++ [{ r with id := s.fab.nextReq }], nextReq := s.fab.nextReq + 1 } }

def Agent.core : Agent → Option Nat
  | .vec c _ => some c
  | .ldk c _ => some c
  | .wbuf c _ => some c
  | .dma c _ => some c
  | _ => none
def Agent.isDma : Agent → Bool
  | .dma _ _ => true
  | _ => false
/-- Agents whose requests no home allocates for (R199). -/
def Agent.noAlloc : Agent → Bool
  | .host _ => true
  | .mirror => true
  | .valac => true
  | _ => false

def Req.die (r : Req) : Nat := match r.agent.core with | some c => c / 80 | none => 0

/-- The place where a request is performed: half of its home, hub of its page, or the PCIe controller. -/
def State.target (s : State) (r : Req) : Nat :=
  match r.kind with
  | .module => if addrClass r.addr = .tier3 then 100 + (r.addr - tier3Base) / 16384 % 4 else s.homeOf r.addr
  | _ => 200

/-- Two requests have one identifier (R162): core, engine and stream tag; the twin apart. -/
def sameIdentity (a b : Req) : Bool :=
  match a.agent, b.agent with
  | .vec c _, .vec d _ => c == d && a.tag == b.tag
  | .dma c _, .dma d _ => c == d && a.tag == b.tag
  | .ldk c _, .ldk d _ => c == d
  | .mirror, .mirror => true
  | _, _ => false

/-- Accesses of one engine to one line keep program order (R157); the write buffer is part of the vector engine. -/
def sameEngine (a b : Req) : Bool :=
  match a.agent, b.agent with
  | .vec c _, .vec d _ => c == d
  | .vec c _, .wbuf d _ => c == d
  | .wbuf c _, .vec d _ => c == d
  | .wbuf c _, .wbuf d _ => c == d
  | .dma c _, .dma d _ => c == d
  | _, _ => false

def ReqOp.isWrite : ReqOp → Bool
  | .write _ | .atomic _ _ _ _ _ | .reduce _ _ _ | .stcond _ _ _ _ | .range .discard => true
  | _ => false

/-- A write of an epoch that the module applies for its twin (R477): such requests carry no SYNC tag. -/
def Req.ofEpoch (r : Req) : Bool := r.agent == .mirror && decide (2 ^ 32 ≤ r.tag)

/-- Host order (R178): a write with Relaxed Ordering clear after every earlier host write, a read after every earlier write
of its requester. The tag of a host write is its Relaxed Ordering attribute. -/
def hostBehind (r x : Req) : Bool :=
  match r.agent, x.agent with
  | .host f, .host g => x.op.isWrite && x.place != .twin && (if r.op.isWrite then r.tag == 0 else f == g)
  | _, _ => false

/-- Two addresses lie in one mirror window. -/
def State.sameWindow (s : State) (a b : Nat) : Bool :=
  match s.winAt a, s.winAt b with
  | some x, some y => x.1 == y.1
  | _, _ => false

/-- A request waits for an earlier one: same identifier and target (R162), same engine and line (R157), a Device access of
the same vector engine, a DMA write of an earlier descriptor with the same tag (R163), or an epoch that is being applied to
its window (R477). -/
def State.behind (s : State) (r x : Req) : Bool :=
  decide (x.id < r.id) &&
  ((sameIdentity r x && s.target r == s.target x && x.place != .twin) ||
   (sameEngine r x && lineOf r.addr == lineOf x.addr && r.kind == x.kind) ||
   hostBehind r x ||
   (x.ofEpoch && !r.ofEpoch && r.kind == .module && s.sameWindow r.addr x.addr) ||
   (sameEngine r x && !r.agent.isDma && r.type == .device && x.type == .device) ||
   (r.agent.isDma && sameIdentity r x && r.op.isWrite && x.op.isWrite && r.agent != x.agent))

/-- No earlier request stands before it. -/
def State.turnOf (s : State) (r : Req) : Bool := !s.fab.reqs.any fun x => s.behind r x

/-! What a request touches. -/

def sizeBytes (size : Nat) : Nat := 2 ^ size

/-- Byte offsets in the line that an operation reads or writes. -/
def ReqOp.offsets : ReqOp → List Nat
  | .load _ size _ _ lanes _ => lanes.flatMap fun l => (List.range (sizeBytes size)).map (l.2 + ·)
  | .ldk _ off => (List.range 8).map (off + ·)
  | .write bytes => bytes.map (·.1)
  | .atomic _ _ size _ lanes => lanes.flatMap fun l => (List.range (sizeBytes size)).map (l.2.1 + ·)
  | .reduce _ type elems => elems.flatMap fun e => (List.range (if type == .bf16 then 2 else 4)).map (e.1 + ·)
  | .ldres size _ off _ => (List.range (sizeBytes size)).map (off + ·)
  | .stcond size off _ _ => (List.range (sizeBytes size)).map (off + ·)
  | .range _ => []
  | .dmaRead off len _ _ => (List.range len).map (off + ·)
  | .hostRead off len => (List.range len).map (off + ·)

/-- Reads the value it finds, so that a poisoned sector is consumed (R285). -/
def ReqOp.consumes : ReqOp → Bool
  | .write _ | .range _ | .hostRead _ _ => false
  | _ => true

/-- Sectors that must be valid before the operation acts (R199). -/
def ReqOp.needs (op : ReqOp) : BitVec 4 :=
  match op with
  | .write bytes => let o := bytes.map (·.1); sectorsOf o &&& ~~~(wholeSectors o)
  | .range .prefetch => 0xF
  | .load _ _ _ ro _ _ => if ro then 0xF else sectorsOf op.offsets
  | .ldk _ _ => 0xF
  | op => sectorsOf op.offsets

/-! Results. -/

def Group.setT (g : Group) (lane reg : Nat) (v : Word) : Group := { g with t := SMap.set 0 g.t (256 * lane + reg) v }
def Group.getT (g : Group) (lane reg : Nat) : Word := SMap.get 0 g.t (256 * lane + reg)
def Group.getU (g : Group) (n : Nat) : DWord := SMap.get 0 g.u n
def Group.setU (g : Group) (n : Nat) (v : DWord) : Group := { g with u := SMap.set 0 g.u n v }
/-- p0 reads 1 in every lane; a write to p0 is discarded (R40). -/
def Group.getP (g : Group) (n : Nat) : Mask := if n = 0 then BitVec.allOnes 64 else SMap.get 0 g.p n
/-- Write predicate `n` in the lanes of `lanes`. -/
def Group.setP (g : Group) (n : Nat) (lanes v : Mask) : Group :=
  if n = 0 then g else { g with p := SMap.set 0 g.p n ((SMap.get 0 g.p n &&& ~~~lanes) ||| (v &&& lanes)) }

/-- Lanes of a mask, ascending. -/
def lanesOf (m : Mask) : List Nat := (List.range 64).filter fun i => m.getLsbD i

/-- Write an element of `size` into consecutive registers of a lane, extended as a load does (R131). -/
def Group.putElem (g : Group) (lane d size : Nat) (sign : Bool) (v : Nat) : Group :=
  let w := 8 * sizeBytes size
  if size ≤ 2 then
    g.setT lane d (if sign then BitVec.ofInt 32 (signedOf w v) else BitVec.ofNat 32 (v % 2 ^ w))
  else (List.range (sizeBytes size / 4)).foldl (fun g i => g.setT lane (d + i) (BitVec.ofNat 32 (bitsOf v (32 * i) 32))) g

def State.updGroup (s : State) (c i : Nat) (f : Group → Group) : State :=
  s.updCore c fun k => if (k.group i).occupied then k.setGroup i (f (k.group i)) else k

/-- Little-endian value of `n` bytes that `get` supplies from an offset on. -/
def gather (get : Nat → Byte) (off n : Nat) : Nat := leNat ((List.range n).map fun i => get (off + i))

/-- Key of a line in the read-only L1: host lines lie above the module's. -/
def l1Key (kind : OutKind) (line : Nat) : Nat := if kind == .module then line else 2 ^ 64 + line

/-- Fill a line of the read-only L1 of a core; the line used longest ago leaves (R49, R171). -/
def State.fillL1 (s : State) (c key : Nat) (bytes : List Byte) : State :=
  s.updCore c fun k => { k with l1 := ({ line := key, bytes } :: k.l1.filter fun x => x.line != key).take 1024 }

/-- Write loaded elements into the registers of a group. -/
def State.loadLanes (s : State) (c slot d size : Nat) (sign : Bool) (lanes : List (Nat × Nat)) (get : Nat → Byte) : State :=
  s.updGroup c slot fun g => lanes.foldl (fun g l => g.putElem l.1 d size sign (gather get l.2 (sizeBytes size))) g

/-- The bytes that the write buffer forwards come before the loaded ones (R160). -/
def forwarded (fwd : List (Nat × Byte)) (get : Nat → Byte) (o : Nat) : Byte :=
  match fwd.find? (fun e => e.1 == o) with
  | some e => e.2
  | none => get o

/-- Loaded bytes reach the registers of the issuing group, and the L1 when the load passes through it (R49). -/
def State.deliverLoad (s : State) (r : Req) (get : Nat → Byte) : State :=
  match r.agent, r.op with
  | .vec c slot, .load d size sign ro lanes fwd =>
    let s1 := if ro then s.fillL1 c (l1Key r.kind (lineOf r.addr)) ((List.range 128).map get) else s
    s1.loadLanes c slot d size sign lanes (forwarded fwd get)
  | .ldk c slot, .ldk d off =>
    (s.fillL1 c (lineOf r.addr) ((List.range 128).map get)).updGroup c slot fun g => g.setU d (BitVec.ofNat 64 (gather get off 8))
  | _, _ => s

/-- The request reads the line as a replica would. -/
def Req.replicable (r : Req) : Bool :=
  r.type == .replicable && !r.agent.isDma &&
    (match r.op with | .load _ _ _ _ _ _ | .range .prefetch => true | _ => false)

/-- Put a request on its way: module memory through the replica half of its die or to the home, host memory to the PCIe
controller (R193, R204). -/
def State.send (s : State) (r : Req) : State :=
  match r.kind with
  | .module => s.addReq { r with place := if r.replicable && r.die != s.homeOf r.addr / 2 then .replica else .home }
  | _ => (s.addReq { r with place := .host }).emit (.hostRequest s.fab.nextReq)

/-- Write requests of a descriptor for read bytes, line by line; `bad` marks bytes that came poisoned (R273). -/
def State.dmaLines (s : State) (r : Req) (bad : Nat → Bool) : List Byte → Nat → List (Nat × Nat × OutKind × MemType × Nat) → State
  | _, _, [] => s
  | bytes, done, (a, va, kind, type, n) :: rest =>
    let now : List (Nat × Byte) := (bytes.take n).zipIdx.map fun e => (a % 128 + e.2, e.1)
    let poison := sectorsOf (((List.range n).filter fun j => bad (done + j)).map (a % 128 + ·))
    (s.send { r with kind, type, va, addr := lineOf a, waited := 0, op := .write now, poison }).dmaLines r bad (bytes.drop n) (done + n) rest

/-- DMA read bytes reach tile memory, leave as writes of the descriptor, or join a page of Tier 3. -/
def State.deliverDma (s : State) (r : Req) (bytes : List Byte) (dest : DmaDest) (bad : Nat → Bool) : State :=
  match dest with
  | .tile a =>
    match r.agent.core with
    | some c => s.updCore c fun k => { k with tile := SMap.putBytes k.tile a bytes }
    | none => s
  | .lines l => s.dmaLines r bad bytes 0 l
  | .gather rid off =>
    match s.req rid with
    | some w =>
      match w.op with
      | .write old => s.setReq { w with op := .write (old ++ bytes.zipIdx.map fun e => (off + e.2, e.1)) }
      | _ => s
    | none => s

/-! Forwarding to the twin (R473 to R477, R484). -/

def State.specCount (s : State) (off n : Nat) : State :=
  { s with twin := { s.twin with counters := bump s.twin.counters off n } }

/-- Body of a write record after its head: byte enables, then the sectors of the mask (R484). -/
def recordBody (bytes : List (Nat × Byte)) : List Byte :=
  let offs := bytes.map (·.1)
  let en := (List.range 16).map fun i => (List.range 8).foldl (fun b j => if offs.contains (8 * i + j) then b ||| BitVec.ofNat 8 (2 ^ j) else b) (0 : Byte)
  en ++ (sectorList (sectorsOf offs)).flatMap fun k => (List.range 32).map fun i =>
    match bytes.find? (fun e => e.1 == 32 * k + i) with | some e => e.2 | none => 0

/-- Bytes of a write record with its head. -/
def recordBytes (bytes : List (Nat × Byte)) : Nat := 24 + 32 * (sectorList (sectorsOf (bytes.map (·.1)))).length

/-- Send a record on the speculum link, one record to a data flit, the rest of it pad (R484). -/
def State.sendRecord (s : State) (kind window value : Nat) (bytes : List Byte) : State :=
  let s1 := s.emit (.record kind window value bytes)
  { s1 with twin := { s1.twin with nextSeq := (s1.twin.nextSeq + 1) % 65536 } }

/-- The window becomes BROKEN; the twin discards the open epoch (R475, R477). -/
def State.epochOverflow (s : State) (w : Nat) : State :=
  let s1 := s.setWin w { s.win w with state := .broken, fill := 0 }
  s1.warn { code := 0x0703, severity := 1, data := leBytes 1 w }

/-- Unacknowledged SYNC records of the module. -/
def State.syncFull (s : State) (a : Nat) : Bool :=
  match s.winAt a with
  | some (_, w) => w.state == .active && w.mode == 1 && decide (4096 ≤ (s.twin.syncs.filter fun o => !o.dead).length)
  | none => false

/-- A write of these bytes of a line has been performed at its home for request `rid`: answers whether the write must
still wait for the twin. -/
def State.mirrorOut (s : State) (agent : Agent) (line : Nat) (bytes : List (Nat × Byte)) (rid : Nat) : State × Bool :=
  if agent = .mirror then (s, false) else
  match s.winAt line with
  | none => (s, false)
  | some (w, x) =>
    match x.state with
    | .off => (s, false)
    | .waiting => (s.specCount 0x220 1, false)
    | .broken => (s.specCount 0x220 1, x.mode == 1)
    | .active =>
      if x.mode = 1 then
        let tag := s.twin.nextTag
        let s1 := s.sendRecord 2 w line (leBytes 4 tag ++ leBytes 4 0 ++ recordBody bytes)
        let out : SyncOut := { tag, window := w, rid := some rid, addr := line }
        let s2 : State := { s1 with twin := { s1.twin with nextTag := (tag + 1) % 2 ^ 32, syncs := s1.twin.syncs ++ [out] } }
        (s2.specCount 0x218 1, true)
      else if 0x200000 < x.fill + recordBytes bytes then ((s.epochOverflow w).specCount 0x220 1, false)
      else
        let s1 := s.sendRecord 1 w line (recordBody bytes)
        ((s1.setWin w { x with fill := x.fill + recordBytes bytes }).specCount 0x218 1, false)

/-- A write that came from the twin has been performed: its acknowledgement, or the notice that its epoch is applied when it
was the last one (R476, R477). -/
def State.mirrorDone (s : State) (r : Req) : State :=
  if r.agent != .mirror then s
  else if !r.ofEpoch then s.sendRecord 4 0 0 (leBytes 4 r.tag ++ leBytes 4 0)
  else
    match s.winAt r.addr with
    | none => s
    | some (w, x) =>
      if s.fab.reqs.any fun q => q.id != r.id && q.ofEpoch && s.sameWindow q.addr r.addr then s
      else
        match x.closedHere with
        | none => s
        | some (e, _) => (s.setWin w { x with applied := e, closedHere := none }).sendRecord 5 w e []

/-- A write of a request has been performed: it leaves, or waits for the twin. -/
def State.finishWrite (s : State) (r : Req) (bytes : List (Nat × Byte)) : State :=
  let holder := match r.agent with
    | .vec c i => some (c, i)
    | .wbuf c only => only.map fun i => (c, i)
    | _ => none
  let s1 := s.dropResv fun c i v => holder != some (c, i) &&
    r.op.offsets.any fun o => decide (v.base ≤ lineOf r.addr + o ∧ lineOf r.addr + o < v.base + v.len)
  let m := s1.mirrorOut r.agent (lineOf r.addr) bytes r.id
  if m.2 then m.1.place r.id .twin else (m.1.mirrorDone r).dropReq r.id

end Sys2Proof.Machine
end

