-- ==== Sys2Proof/Machine/Accumulate.lean ====
section
/-!
DEFINITION. Values at a home: reduction accumulators (R217 to R220) and atomic operations (R132, R172).
-/
namespace Sys2Proof.Machine

/-- Identity of an operation and type (R217). -/
def redIdentity : RedOp → RedType → Word
  | .add, .int32 => 0
  | .add, _ => 0x80000000
  | .max, .int32 => 0x80000000
  | .max, _ => 0xFF800000
  | .min, .int32 => 0x7FFFFFFF
  | .min, _ => 0x7F800000

/-- Combine two values of the accumulator's type (R218); BF16 is held in FP32. -/
def redCombine (op : RedOp) (type : RedType) (a b : Word) : Word :=
  match type, op with
  | .int32, .add => a + b
  | .int32, .max => if a.toInt < b.toInt then b else a
  | .int32, .min => if b.toInt < a.toInt then b else a
  | _, .add => redFp32 none a b
  | _, .max => redFp32 (some true) a b
  | _, .min => redFp32 (some false) a b

def redSize (type : RedType) : Nat := if type == .bf16 then 2 else 4

/-- The bytes of an element after an accumulator is combined into it: an identity accumulator changes nothing (R219). -/
def redApply (op : RedOp) (type : RedType) (old : Nat) (acc : Word) : List Byte :=
  if acc = redIdentity op type then leBytes (redSize type) old
  else if type == .bf16 then leBytes 2 (fp32ToBf16 (redCombine op type (bf16To32 old) acc))
  else leBytes 4 (redCombine op type (BitVec.ofNat 32 old) acc).toNat

/-- Add contributions to accumulators keyed by element index; the touched sectors grow. -/
def CLine.accumulate (l : CLine) (elems : List (Nat × Word)) : CLine :=
  elems.foldl (fun l e =>
    let i := e.1 / redSize l.accType
    let d := redIdentity l.accOp l.accType
    { l with accs := SMap.set d l.accs i (redCombine l.accOp l.accType (SMap.get d l.accs i) e.2),
             touched := l.touched ||| sectorBit (e.1 / 32) }) l

/-- Combine the accumulators of a sector into its bytes. -/
def redSector (op : RedOp) (type : RedType) (accs : SMap Word) (k : Nat) (get : Nat → Byte) : List Byte :=
  (List.range (32 / redSize type)).flatMap fun j =>
    let o := 32 * k + redSize type * j
    redApply op type (gather get o (redSize type)) (SMap.get (redIdentity op type) accs (o / redSize type))

/-- Read-modify-write of contributions into a line (R218): the resulting bytes. -/
def redInto (l : CLine) (op : RedOp) (type : RedType) (elems : List (Nat × Word)) : CLine :=
  elems.foldl (fun l e =>
    let n := redSize type
    let new :=
      if type == .bf16 then leBytes 2 (fp32ToBf16 (redCombine op type (bf16To32 (gather l.byte e.1 2)) e.2))
      else leBytes 4 (redCombine op type (BitVec.ofNat 32 (gather l.byte e.1 n)) e.2).toNat
    { l with data := SMap.putBytes l.data e.1 new }) l

/-- New value of an atomic (R132); `w` is the width in bits. -/
def atomicValue (aop w : Nat) (old x : Nat) : Nat :=
  match aop with
  | 0x0 => (old + x) % 2 ^ w
  | 0x1 => if signedOf w x < signedOf w old then x else old
  | 0x2 => if signedOf w old < signedOf w x then x else old
  | 0x3 => Nat.min old x
  | 0x4 => Nat.max old x
  | 0x5 => old &&& x
  | 0x6 => old ||| x
  | 0x7 => old ^^^ x
  | 0x8 => x
  | _ => (redFp32 none (BitVec.ofNat 32 old) (BitVec.ofNat 32 x)).toNat

/-- One lane of ATOM or ATOM.CAS: what it leaves. -/
def atomicNew (cas : Bool) (aop size old : Nat) (operand swap : DWord) : Nat :=
  let w := 8 * sizeBytes size
  if cas then (if old = operand.toNat % 2 ^ w then swap.toNat % 2 ^ w else old)
  else atomicValue aop w old (operand.toNat % 2 ^ w)

/-- Apply the lanes one after another, ascending (R132): the line, and the value that each lane found. -/
def atomicInto (l : CLine) (cas : Bool) (aop size : Nat) (lanes : List (Nat × Nat × DWord × DWord)) :
    CLine × List (Nat × Nat) :=
  lanes.foldl (fun acc e =>
    let old := gather acc.1.byte e.2.1 (sizeBytes size)
    let new := atomicNew cas aop size old e.2.2.1 e.2.2.2
    ({ acc.1 with data := SMap.putBytes acc.1.data e.2.1 (leBytes (sizeBytes size) new) }, acc.2 ++ [(e.1, old)])) (l, [])

end Sys2Proof.Machine
end

