-- ==== Sys2Proof/Machine/Home.lean ====
section
/-!
DEFINITION. What a home slice does with a request: checks, allocation, fills, merges, replicas, and the operation itself
(R154, R155, R176, R177, R199 to R222, R267, R280 to R285). Faults are answered, to be taken by the command that serves.
-/
namespace Sys2Proof.Machine

/-- What a serving step answers: the state, and the faults it found. -/
abbrev Served := State × List FaultRep

def Req.fault (r : Req) (kind detail cause : Nat) : List FaultRep :=
  match r.agent.core with
  | some c => [{ core := c, ctx := r.ctx, part := r.part, site := r.site, kind, detail, cause, addr := r.va }]
  | none => []

/-- Record and count a request that R497 refuses or marks. -/
def State.hostRefuse (s : State) (fn off cause : Nat) : State :=
  let h := { s.host with cntRefused := s.host.cntRefused + 1 }
  { s with host := if h.refused then h else
      { h with refused := true, refusedFn := fn, refusedCause := cause, refusedAddr := BitVec.ofNat 64 off } }

/-- The answer to a BAR4 read, or to the piece of it that lies in one line; the tag of the request is its BAR4 offset. -/
def State.hostAnswer (s : State) (r : Req) (bytes : List Byte) (poisoned : Bool) : State :=
  let fn := match r.agent with | .host f => f | _ => 0
  let s1 := s.emit (.completion fn r.tag 0 bytes poisoned)
  if poisoned then s1.hostRefuse fn r.tag 7 else s1

/-- The checks of R256, R280, R281 and R283 at acceptance; none when they pass. -/
def State.homeCheck (s : State) (r : Req) : Option Nat :=
  if r.agent.noAlloc then none
  else if (match addrClass r.addr with | .tier1 | .tier2 => (s.spot r.addr).isNone | _ => true) then some fkForeign
  else match s.owns r.part r.addr r.op.isWrite r.agent.isDma with
    | .foreign => some fkForeign
    | .denied => some fkPermission
    | .pass => if r.op.isWrite && s.writeProtected r.addr then some fkPermission else none

/-- A miss register is free for this request (R210, R212). -/
def State.regFree (s : State) (h a id : Nat) : Bool :=
  let x := s.half h
  decide (x.missBusy (bankOf a) < 64) && (match SMap.get none x.force (bankOf a) with | some f => f == id | none => true)

/-- Refuse with RETRY: only the counter changes; a forced request is held in the force stage (R210, R212). -/
def State.retry (s : State) (h : Nat) (r : Req) (needsReg : Bool) : State :=
  let s1 := (s.place r.id .home).cacheCount h r.part 0x118 1
  let b := bankOf r.addr
  let x := s1.half h
  if needsReg && decide ((s.arb (16 * h + b)).limit (16 * h + b) ≤ r.waited) && (SMap.get none x.force b).isNone then
    s1.setHalf h { x with force := SMap.set none x.force b (some r.id) }
  else s1

/-- Counters of an accepted request, and the end of its force stage. -/
def State.accepted (s : State) (h : Nat) (r : Req) (first : Bool) (off : Nat) : State :=
  let b := bankOf r.addr
  let x := s.half h
  let s1 := if SMap.get none x.force b = some r.id then s.setHalf h { x with force := SMap.set none x.force b none } else s
  if !first then s1 else
  let s2 := (s1.cacheCount h r.part 0x100 1).cacheCount h r.part off 1
  if (s.arb (16 * h + b)).limit (16 * h + b) ≤ r.waited then s2.cacheCount h r.part 0x120 1 else s2

/-- Join the waiting list of a line in a transient state (R200). -/
def State.joinLine (s : State) (h key : Nat) (r : Req) (first : Bool) : State :=
  let l := (s.half h).line key
  if 16 ≤ l.waiters.length then s.retry h r true
  else
    let s1 := s.setHalf h ((s.half h).setLine key { l with waiters := l.waiters ++ [r.id] })
    (s1.accepted h r first (if l.state == .fill then 0x110 else 0x108)).place r.id .waiting

/-! Allocation. -/

/-- What allocation answers: a way that is empty now, a wait on a victim's replicas, or a refusal. -/
inductive Alloc where
  | way (key : Nat) (s : State)
  | wait (s : State)
  | refuse
deriving DecidableEq, Repr

/-- Find or free a home way for the line of a request. -/
def State.allocate (s : State) (h : Nat) (r : Req) (avoid : List Nat) : Alloc :=
  match s.chooseWay h r.part r.addr false avoid with
  | .empty k => .way k s
  | .none => .refuse
  | .victim k =>
    let l := (s.half h).line k
    if l.sharers != 0 then
      if s.regFree h r.addr r.id then .wait (s.startInvalidate h k .evict [r.id]) else .refuse
    else if l.state == .accumulate && decide (64 ≤ (s.ctrl (s.ctrlOf l.addr)).menders) then .refuse
    else .way k (s.evictNow h k)

/-- A fresh line for a request. -/
def Req.newLine (r : Req) (state : LState) : CLine :=
  { state, addr := lineOf r.addr, part := r.part, ctx := r.ctx }

/-! Replicas at the requester's die (R203, R204). -/

/-- The way of a replica being filled on the requester's die. -/
def State.fillingReplica (s : State) (r : Req) : Option (Nat × Nat) :=
  let h := s.replicaHalf r.die r.addr
  match (s.half h).replicaWay r.addr with
  | some k => if ((s.half h).line k).state == .rfill && h != s.homeOf r.addr then some (h, k) else none
  | none => none

/-- Distance of two dies (R205). -/
def dieDistance (a b : Nat) : Nat :=
  (if a % 4 ≤ b % 4 then b % 4 - a % 4 else a % 4 - b % 4) + 2 * bit (a / 4 != b / 4)

/-- The nearest sharer that is nearer to die `r` than the home, the lowest number among equals. -/
def nearestSharer (sharers : BitVec 8) (r home : Nat) : Option Nat :=
  (List.range 8).foldl (fun best d =>
    if sharers.getLsbD d && decide (dieDistance d r < dieDistance home r) && d != r &&
      (match best with | some b => decide (dieDistance d r < dieDistance b r) | none => true)
    then some d else best) none

/-- Send the whole line to the replica way that waits for it. -/
def State.sendReplica (s : State) (r : Req) (l : CLine) : State :=
  match s.fillingReplica r with
  | some (h, k) =>
    let x := s.half h
    s.setHalf h (x.setLine k { x.line k with valid := 0xF, data := l.data, poison := l.poison })
  | none => s

/-- The request that a write buffer entry becomes when it leaves. -/
def WbEntry.request (e : WbEntry) (c : Nat) : Req :=
  { id := 0, agent := .wbuf c (match e.groups with | [g] => some g | _ => none), tag := e.tag, part := e.part, ctx := e.ctx,
    type := .normal, kind := e.kind, addr := e.line, op := .write (e.bytes.filterMap fun b => b.2.map fun v => (b.1, v)),
    place := .home, lc := false, waited := 0, site := e.site, va := e.va }

/-! The operation itself, on a CLEAN or DIRTY line whose needed sectors are valid. -/

/-- Store bytes into a line; whole sectors clear their poison (R276). -/
def CLine.store (l : CLine) (r : Req) (bytes : List (Nat × Byte)) : CLine :=
  let offs := bytes.map (·.1)
  let whole := wholeSectors offs
  { l.putAll bytes with state := .dirty, valid := l.valid ||| sectorsOf offs, dirty := l.dirty ||| sectorsOf offs,
                        poison := (l.poison &&& ~~~whole) ||| r.poison, ctx := if r.agent.noAlloc then l.ctx else r.ctx }

def State.putLine (s : State) (h key : Nat) (l : CLine) : State := s.setHalf h ((s.half h).setLine key l)

/-- Bytes at offsets of a line. -/
def CLine.pick (l : CLine) (offs : List Nat) : List (Nat × Byte) := offs.map fun o => (o, l.byte o)

/-- The range operations of R214 on a line without replicas that need invalidation. -/
def State.rangeAct (s : State) (h key : Nat) (r : Req) (op : RangeOp) : State :=
  let l := (s.half h).line key
  match op with
  | .prefetch => (s.sendReplica r l).dropReq r.id
  | .flush =>
    let s1 := s.writeDirty h key
    (s1.putLine h key { (s1.half h).line key with state := .clean }).dropReq r.id
  | .invalidate => (s.evictNow h key).dropReq r.id
  | .discard =>
    let s1 := s.removalEndsResv l.addr
    (s1.putLine h key { state := .dead, addr := l.addr, part := l.part, ctx := l.ctx, used := l.used }).dropReq r.id

def State.perform (s : State) (h key : Nat) (r : Req) : Served :=
  let l := (s.half h).line key
  if r.op.consumes && (sectorsOf r.op.offsets &&& l.poison) != 0 then (s.dropReq r.id, r.fault fkPoison 0 0)
  else match r.op with
  | .load _ _ _ _ _ _ =>
    match (if r.replicable then s.fillingReplica r else none) with
    | some _ => ((s.sendReplica r l).place r.id .replica, [])
    | none => ((s.deliverLoad r l.byte).dropReq r.id, [])
  | .ldk _ _ => ((s.deliverLoad r l.byte).dropReq r.id, [])
  | .dmaRead off len dest _ => ((s.dropReq r.id).deliverDma r (l.bytes off len) dest fun _ => false, [])
  | .hostRead off len =>
    ((s.dropReq r.id).hostAnswer r (l.bytes off len) ((sectorsOf r.op.offsets &&& l.poison) != 0), [])
  | .write bytes => ((s.putLine h key (l.store r bytes)).finishWrite r bytes, [])
  | .atomic cas aop size d lanes =>
    let res := atomicInto l cas aop size lanes
    let offs := r.op.offsets
    let s1 := s.putLine h key (l.store r (res.1.pick offs))
    let s2 := match r.agent with
      | .vec c slot => s1.updGroup c slot fun g => res.2.foldl (fun (g : Group) (e : Nat × Nat) => g.putElem e.1 d size false e.2) g
      | _ => s1
    (s2.finishWrite r (res.1.pick offs), [])
  | .reduce op type elems =>
    let new := redInto l op type elems
    let sectors := sectorsOf r.op.offsets
    let offs := if (s.winAt r.addr).isSome then (sectorList sectors).flatMap fun k => (List.range 32).map (32 * k + ·) else r.op.offsets
    ((s.putLine h key { (l.store r (new.pick r.op.offsets)) with poison := l.poison }).finishWrite r (new.pick offs), [])
  | .ldres size d off granule =>
    let len := 128 * 2 ^ (if granule = 0 then 0 else if granule = 1 then 3 else 5)
    let pa := lineOf r.addr + off
    match r.agent with
    | .vec c slot =>
      ((s.updGroup c slot fun g =>
        { (g.setU d (BitVec.ofNat 64 (gather l.byte off (sizeBytes size)))) with
          resv := some { pa, base := pa / len * len, len, age := 0 } }).dropReq r.id, [])
    | _ => (s.dropReq r.id, [])
  | .stcond size off p value =>
    let bytes : List (Nat × Byte) := (leBytes (sizeBytes size) value.toNat).zipIdx.map fun e => (off + e.2, e.1)
    let s1 := s.putLine h key (l.store r bytes)
    let s2 := match r.agent with
      | .vec c slot => s1.updGroup c slot fun g => { g.setP p r.site.active (BitVec.allOnes 64) with resv := none }
      | _ => s1
    (s2.finishWrite r bytes, [])
  | .range op => (s.rangeAct h key r op, [])

/-! Serving a request. -/

/-- A write to a window waits for a free SYNC record (R476). -/
def State.mustWaitSync (s : State) (r : Req) : Bool :=
  (match r.op with | .write _ | .atomic _ _ _ _ _ | .reduce _ _ _ | .stcond _ _ _ _ => true | _ => false) &&
    r.agent != .mirror && s.syncFull r.addr

/-- CDISC and DISCARD on a mirror window (R474). -/
def State.discardsWindow (s : State) (r : Req) : Bool := r.op == .range .discard && (s.winAt r.addr).isSome

/-- The line is CLEAN or DIRTY. -/
def State.serveHit (s : State) (h key : Nat) (r : Req) (first : Bool) : Served :=
  let l := (s.half h).line key
  let home := h / 2
  let toReplica := r.replicable && (s.fillingReplica r).isSome
  let missing := (if toReplica then 0xF else r.op.needs) &&& ~~~l.valid
  let invalidates := l.sharers != 0 &&
    (r.op.isWrite || r.op == .range .invalidate || (r.op == .range .discard))
  if missing != 0 then
    if s.regFree h r.addr r.id then
      (((s.accepted h r first 0x110).openFill h key missing [r.id]).place r.id .waiting, [])
    else (s.retry h r true, [])
  else if invalidates then
    if s.regFree h r.addr r.id then
      (((s.accepted h r first 0x108).startInvalidate h key .serve [r.id]).place r.id .waiting, [])
    else (s.retry h r true, [])
  else if r.replicable && r.die != home && r.place != .missed &&
      (nearestSharer l.sharers r.die home).isSome then
    if s.regFree h r.addr r.id then
      let d := (nearestSharer l.sharers r.die home).getD 0
      let s1 := (s.accepted h r first 0x108).cacheCount h r.part 0x138 1
      let l1 := (s1.half h).line key
      let s2 := s1.setHalf h (((s1.half h).setLine key
        { l1 with state := .hold, why := .forward r.die, after := .serve,
                  sharers := if toReplica then l1.sharers ||| BitVec.ofNat 8 (2 ^ r.die) else l1.sharers }).markHwm (keyBank key))
      (s2.place r.id (.forwarded d), [])
    else (s.retry h r true, [])
  else
    let s1 := (s.accepted h r first 0x108).touch h key
    let s2 := if toReplica then
        s1.putLine h key { (s1.half h).line key with sharers := ((s1.half h).line key).sharers ||| BitVec.ofNat 8 (2 ^ r.die) }
      else s1
    s2.perform h key r

/-- The line is INVALID or DEAD: what no home allocates for goes to the controller (R155, R199). -/
def State.serveUncached (s : State) (h : Nat) (r : Req) (first : Bool) : Served :=
  match r.op with
  | .write bytes =>
    let s1 := (s.accepted h r first 0x108).pushMem r.addr (.writePart (lineOf r.addr) bytes (if r.agent.noAlloc then 0 else r.id) r.poison)
    if r.agent.noAlloc then (s1.finishWrite r bytes, []) else (s1.place r.id .waiting, [])
  | .hostRead _ _ | .load _ _ _ _ _ _ | .dmaRead _ _ _ _ =>
    (((s.accepted h r first 0x108).pushMem r.addr (.readFor (lineOf r.addr) r.id)).place r.id .waiting, [])
  | _ => (s.dropReq r.id, [])

/-- A DMA read of the needle path (R267). -/
def Req.needle (r : Req) : Bool :=
  match r.op with
  | .dmaRead _ _ _ ndl => ndl && r.type != .device
  | _ => false

/-- Find a way and put a fresh line there, then go on. -/
def State.withWay (s : State) (h : Nat) (r : Req) (needsReg : Bool) (dead : Option Nat)
    (go : State → Nat → Served) : Served :=
  if needsReg && !s.regFree h r.addr r.id then (s.retry h r true, [])
  else match dead with
  | some k => go s k
  | none =>
    match s.allocate h r [] with
    | .refuse => (s.retry h r false, [])
    | .wait s1 => ((s1.accepted h r false 0x108).place r.id .waiting, [])
    | .way k s1 => go s1 k

/-- The line is INVALID, or DEAD in way `dead` (R199, R214, R217). -/
def State.serveMiss (s : State) (h : Nat) (dead : Option Nat) (r : Req) (first : Bool) : Served :=
  let isLoad := match r.op with
    | .load _ _ _ _ _ _ | .ldk _ _ | .dmaRead _ _ _ _ | .hostRead _ _ | .ldres _ _ _ _ => true
    | _ => false
  let s := if isLoad && dead.isSome && first then s.cacheCount h r.part 0x168 1 else s
  let noAcc := (s.winAt r.addr).isSome
  if r.agent.noAlloc || r.type == .device then s.serveUncached h r first
  else if r.needle then ((s.accepted h r first 0x108).place r.id .needle, [])
  else match r.op with
  | .range .flush => ((s.accepted h r first 0x108).dropReq r.id, [])
  | .range .invalidate =>
    let s1 := s.accepted h r first 0x108
    ((match dead with | some k => s1.emptyWay h k | none => s1).dropReq r.id, [])
  | .range .discard => ((s.accepted h r first 0x108).dropReq r.id, [])
  | .reduce op type elems =>
    if noAcc then
      s.withWay h r true dead fun s k =>
        (((s.accepted h r first 0x110).putLine h k (r.newLine .clean)).openFill h k r.op.needs [r.id] |>.place r.id .waiting, [])
    else
      s.withWay h r false dead fun s k =>
        let fresh : CLine := { r.newLine .accumulate with accOp := op, accType := type }
        let done := fun (s : State) (second : Option Nat) =>
          let s1 := (s.accepted h r first 0x108).cacheCount h r.part 0x150 1
          let s2 := s1.putLine h k ({ fresh with pair := second }.accumulate elems)
          let s3 := match second with | some j => s2.putLine h j fresh | none => s2
          ((s3.touch h k).finishWrite r [], [])
        if type == .bf16 then
          match s.allocate h r [k] with
          | .way j s1 => if j = k then (s.retry h r false, []) else done s1 (some j)
          | .wait s1 => (s1.place r.id .waiting, [])
          | .refuse => (s.retry h r false, [])
        else done s none
  | .write bytes =>
    let need := r.op.needs
    if need = 0 then
      s.withWay h r false dead fun s k =>
        let s1 := (s.accepted h r first 0x108).putLine h k ((r.newLine .dirty).store r bytes)
        ((s1.touch h k).finishWrite r bytes, [])
    else
      s.withWay h r true dead fun s k =>
        (((s.accepted h r first 0x110).putLine h k (r.newLine .clean)).openFill h k need [r.id] |>.place r.id .waiting, [])
  | _ =>
    s.withWay h r true dead fun s k =>
      let need := if r.replicable && (s.fillingReplica r).isSome then 0xF else r.op.needs
      (((s.accepted h r first 0x110).putLine h k (r.newLine .clean)).openFill h k need [r.id] |>.place r.id .waiting, [])

/-- An ACCUMULATE line (R199, R214, R219). -/
def State.serveAccum (s : State) (h key : Nat) (r : Req) (first : Bool) : Served :=
  let l := (s.half h).line key
  let merge : Unit → Served := fun _ =>
    if l.touched = 0 then
      let s1 := (s.emptyWay h key).putLine h key { state := .clean, addr := l.addr, part := l.part, ctx := l.ctx }
      s1.serveHit h key r first
    else if s.regFree h r.addr r.id then
      (((s.accepted h r first 0x110).beginMerge h key [r.id]).place r.id .waiting, [])
    else (s.retry h r true, [])
  match r.op with
  | .reduce op type elems =>
    if op = l.accOp && type = l.accType then
      (((s.accepted h r first 0x108).putLine h key { l.accumulate elems with ctx := r.ctx }).touch h key |>.finishWrite r [], [])
    else merge ()
  | .range .prefetch => ((s.accepted h r first 0x108).dropReq r.id, [])
  | .range .discard =>
    let s1 := ((s.accepted h r first 0x108).removalEndsResv l.addr).emptyWay h key
    ((s1.putLine h key { state := .dead, addr := l.addr, part := l.part, ctx := l.ctx, used := l.used }).dropReq r.id, [])
  | .range _ =>
    if 64 ≤ (s.ctrl (s.ctrlOf l.addr)).menders then (s.retry h r false, [])
    else ((((s.accepted h r first 0x108).removalEndsResv l.addr).reduceWriteback h key).dropReq r.id, [])
  | _ => merge ()

/-- STCOND whose reservation does not hold fails and writes nothing (R175). -/
def State.stcondFails (s : State) (r : Req) : Bool :=
  match r.op, r.agent with
  | .stcond _ off _ _, .vec c slot =>
    match ((s.core c).group slot).resv with
    | some v => !(decide (v.base ≤ lineOf r.addr + off) && decide (lineOf r.addr + off < v.base + v.len))
    | none => true
  | _, _ => false

/-- LDRES finds the reservation table of the bank full (R177); a reservation that it replaces does not count. -/
def State.ldresFull (s : State) (h : Nat) (r : Req) : Bool :=
  match r.op, r.agent with
  | .ldres _ _ _ _, .vec c slot =>
    let own := s.reservations.any fun e => e.1 == c && e.2.1 == slot && s.homeOf e.2.2.pa == h && bankOf e.2.2.pa == bankOf r.addr
    !own && decide (128 ≤ s.bankResv h (bankOf r.addr))
  | _, _ => false

/-- Serve request `id` at its home. -/
def State.homeServe (s : State) (id : Nat) (first : Bool) : Served :=
  match s.req id with
  | none => (s, [])
  | some r =>
    let h := s.homeOf r.addr
    match (if first then s.homeCheck r else none) with
    | some kind => (s.dropReq id, if r.op == .range .prefetch then [] else r.fault kind 0 0)
    | none =>
      if s.discardsWindow r then (s.dropReq id, r.fault fkPermission 0 0)
      else if s.mustWaitSync r then (s.place id .home, [])
      else if s.stcondFails r then
        match r.agent, r.op with
        | .vec c slot, .stcond _ _ p _ =>
          (((s.accepted h r first 0x108).updGroup c slot fun g => { g.setP p r.site.active 0 with resv := none }).dropReq id, [])
        | _, _ => (s.dropReq id, [])
      else if s.ldresFull h r then (s.retry h r false, [])
      else match (s.half h).homeWay r.addr with
      | none => s.serveMiss h none r first
      | some key =>
        match ((s.half h).line key).state with
        | .dead => s.serveMiss h (some key) r first
        | .fill | .hold => (s.joinLine h key r first, [])
        | .accumulate => s.serveAccum h key r first
        | _ => s.serveHit h key r first

/-- Serve waiters in arrival order (R200). -/
def State.serveAll (s : State) (ids : List Nat) : Served :=
  ids.foldl (fun acc id =>
    let m := (acc.1.place id .home).homeServe id false
    (m.1, acc.2 ++ m.2)) (s, [])

/-- A line leaves HOLD or FILL: it rests, and its waiters are served. -/
def State.releaseLine (s : State) (h key : Nat) : Served :=
  let l := (s.half h).line key
  let s1 := s.putLine h key { l with state := l.rest, why := .none, after := .serve, waiters := [], fetch := 0, merging := false }
  s1.serveAll l.waiters

/-- Every replica has acknowledged (R207, R208). -/
def State.holdDone (s : State) (h key : Nat) : Served :=
  let l := (s.half h).line key
  match l.after with
  | .evict =>
    let s1 := s.putLine h key { l with state := l.rest, sharers := 0, why := .none, waiters := [] }
    let s2 := s1.evictNow h key
    (l.waiters.foldl (fun s id => s.place id .home) s2, [])
  | .serve => (s.putLine h key { l with sharers := 0 }).releaseLine h key

end Sys2Proof.Machine
end

