-- ==== Sys2Proof/Machine/Contain.lean ====
section
/-!
DEFINITION. Fault containment: what ends an operation, a queue, a launch, a core, a context and the module's service (R66, R67,
R183, R343, R371, R388 to R396, R424, R436, R437, R539).
-/
namespace Sys2Proof.Machine

/-! Mailbox events and operations (R343, R371). -/

/-- The function of a mailbox; none for the console (R338). -/
def mbxFn (m : Nat) : Option Nat := if m ≤ 1 then some 0 else if m ≤ 65 then some (m - 1) else none

/-- The partition bound to VF `v`. -/
def State.partOfFn (s : State) (v : Nat) : Option Nat :=
  if v = 0 then none
  else (s.work.parts.find? fun e => match e.2 with | some p => p.fn == v | none => false).map (·.1)

/-- MBX_DONE and OP_DONE go to the mailbox's own function, with a copy for the manager, or to the console (R371). -/
def State.mbxEvent (s : State) (m type : Nat) (payload : List Byte) : State :=
  match mbxFn m with
  | none => s.consoleEvent type payload
  | some fn =>
    let part := (s.partOfFn fn).getD 0xFF
    let e : Event := { type, partition := part, copy := false, time := BitVec.ofNat 64 s.now, payload }
    if fn = 0 then s.evrPut 0 e else (s.evrPut fn e).evrPut 0 { e with copy := true }

/-- Status codes (R350). -/
def stSuccess : Nat := 0
def stBusy : Nat := 1
def stInvalidOpcode : Nat := 2
def stInvalid : Nat := 3
def stNotPermitted : Nat := 4
def stNoResources : Nat := 5
def stNotQuiesced : Nat := 6
def stExhausted : Nat := 7
def stComplete : Nat := 8
def stVerify : Nat := 9
def stNotReady : Nat := 10

def State.op (s : State) (id : Nat) : Option Op := s.valac.ops.find? fun o => o.id == id
def State.opOf (s : State) (opcode : Nat) : Option Op := s.valac.ops.find? fun o => o.cmd.opcode == opcode

/-- End an operation with its OP_DONE event (R343). -/
def State.opDone (s : State) (id status : Nat) (cancelled : Bool) (result : List Byte) : State :=
  match s.op id with
  | none => s
  | some o =>
    let s1 := { s with valac := { s.valac with ops := s.valac.ops.filter fun x => x.id != id } }
    s1.mbxEvent o.cmd.mbx 2 (leBytes 1 o.cmd.mbx ++ leBytes 1 (bit cancelled) ++ leBytes 2 o.cmd.opcode ++
      leBytes 2 o.cmd.seq.toNat ++ leBytes 2 status ++ leBytes 8 o.cmd.token.toNat ++ padTo 32 result)

/-! Queues (R374, R392). -/

def QueueState.code : QueueState → Nat
  | .active => 0
  | .halting => 1
  | .halted => 2
  | .haltedFault => 3
  | .haltedUndeliverable => 4
  | .haltedError => 5

/-- Move a queue to a halted state, with the QUEUE_HALTED event. -/
def State.haltQueue (s : State) (q : Nat) (state : QueueState) (reason : Nat) : State :=
  match s.queue q with
  | none => s
  | some x =>
    let s1 := s.setQueue q (some { x with state, reason })
    s1.postPart 0x10 x.part (leBytes 2 q ++ leBytes 2 state.code ++ leBytes 4 0 ++ leBytes 8 x.lastLaunch.toNat)

/-- An open QUEUE_HALT receives OP_DONE. -/
def State.endHaltOp (s : State) (q : Nat) : State :=
  match s.queue q with
  | some x => match x.haltOp with
    | some o => (s.setQueue q (some { x with haltOp := none })).opDone o stSuccess false []
    | none => s
  | none => s

/-! Launches. -/

def State.launch (s : State) (id : DWord) : Option Launch := s.work.launches.find? fun l => l.id == id
def State.setLaunch (s : State) (l : Launch) : State :=
  { s with work := { s.work with launches := s.work.launches.map fun x => if x.id = l.id then l else x } }
def State.dropLaunch (s : State) (id : DWord) : State :=
  { s with work := { s.work with launches := s.work.launches.filter fun x => x.id != id } }

def Status.code : Status → Nat
  | .ok => 0
  | .fault => 1
  | .aborted => 2
  | .skipped => 3
  | .timeout => 4

/-- Its cores have started and it has not committed (R305). -/
def Launch.running (l : Launch) : Bool := l.phase == .running || l.phase == .ended

/-- Fields of a launch descriptor (R377, R378). -/
def Launch.flag (l : Launch) (i : Nat) : Bool := bitsOf (fieldAt l.desc 7 1) i 1 == 1
def Launch.cringNo (l : Launch) : Nat := fieldAt l.desc 4 2

def Verdict.failed (v : Verdict) : Bool := v.status != .ok

/-- First node of a graph launch that failed in commit order: its number and verdict (R399). -/
def Launch.firstFailed (l : Launch) : Option (Nat × Verdict) :=
  let bad := l.nodes.zipIdx.filterMap fun (e : Node × Nat) => e.1.verdict.bind fun v =>
    if v.failed then some (e.1.stamp, e.2 + 1, v) else none
  (bad.foldl (fun (best : Option (Nat × Nat × Verdict)) e => match best with
    | some b => if e.1 < b.1 then some e else some b
    | none => some e) none).map (·.2)
def Launch.failedNode (l : Launch) : Nat := match l.firstFailed with | some e => e.1 | none => 0

/-- The completion record of R388, but for the phase and signal_lost flags. -/
def State.recordOf (s : State) (l : Launch) (v : Verdict) : List Byte :=
  leBytes 8 l.id.toNat ++ leBytes 1 v.status.code ++ leBytes 1 v.fault ++ leBytes 1 v.reason ++
  leBytes 1 (2 * bit l.overlap + 4 * bit v.notRun + 16 * bit l.late + 32 * bit l.recordsLost) ++
  leBytes 2 l.queue ++ leBytes 2 (if l.graph.isSome then l.failedNode else 0) ++
  leBytes 8 l.start ++ leBytes 8 s.now ++ leBytes 8 l.energyStart ++ leBytes 8 s.power.energy ++
  leBytes 2 l.ctx ++ leBytes 2 0 ++ leBytes 4 (match l.graph with | some g => g.2 | none => 0) ++ leBytes 8 0

/-- One launch less is bound to a graph version; a version that is not the newest, or whose graph is released, is freed with its
last launch (R400). -/
def State.unbind (s : State) (g : Nat × Nat) : State :=
  match s.graph g.1 with
  | none => s
  | some x =>
    let vs := (x.versions.map fun v => if v.version = g.2 then { v with users := v.users - 1 } else v).filter fun v =>
      0 < v.users || (v.version == x.newest && !x.released)
    s.setGraph g.1 (if vs.isEmpty && x.released then none else some { x with versions := vs })

/-- A queue's hold on its cores breaks when it has no further consumed launch (R431). -/
def State.breakHold (s : State) (q : Nat) : State :=
  if s.work.launches.any fun l => l.queue == q && l.verdict.isNone then s
  else match s.queue q with
  | some x => s.setQueue q (some { x with holdFrom := none })
  | none => s

/-- At a kernel boundary of a partition, the share groups it has left forget it (R281). -/
def State.leaveShares (s : State) (p : Nat) : State :=
  if s.work.launches.any fun l => l.part == p && l.running then s
  else { s with store := { s.store with shares := SMap.mapV {} s.store.shares fun _ g =>
    { g with leaving := g.leaving &&& ~~~BitVec.ofNat 64 (2 ^ p), leavingLoader := if g.leavingLoader = some p then none else g.leavingLoader } } }

/-- Commit a launch: its record is fixed and its queue counts it as retired (R374, R390, R394). Signal and record follow in
LAUNCH_COMMIT. -/
def State.commitLaunch (s : State) (id : DWord) (v : Verdict) : State :=
  match s.launch id with
  | none => s
  | some l =>
    if l.verdict.isSome then s else
    let l1 : Launch := if l.running then l else { l with start := s.now, energyStart := s.power.energy }
    let s0 := s.setLaunch { l1 with phase := .committed, verdict := some v, busy := [], record := some (s.recordOf l1 v),
                                    stamp := s.work.stamps }
    let s1 := { s0 with work := { s0.work with stamps := s0.work.stamps + 1 } }
    let s2a := match s1.queue l.queue with
      | some q => s1.setQueue l.queue (some { q with retired := q.retired + 1, lastLaunch := id })
      | none => s1
    let s2b := match l.graph with
      | some g => (s2a.unbind g).breakHold l.queue
      | none => s2a.breakHold l.queue
    let s2 := s2b.leaveShares l.part
    let late := match l.admittedEnd with | some e => decide (e < s.now) | none => false
    if !late then s2
    else
      let s3 := match s2.part l.part with
        | some p => s2.setPart l.part (some { p with overruns := p.overruns + 1 })
        | none => s2
      s3.warn { code := 0x0221, severity := 1, partition := l.part, ctx := l.ctx,
                data := leBytes 8 id.toNat ++ leBytes 8 (l.admittedEnd.getD 0) ++ leBytes 8 s.now }

/-! Cores. -/

/-- Ordinary requests of a core that leave nothing behind when they are dropped: reads and DMA; the rest have been accepted
and complete (R183). -/
def Req.dropsWith (r : Req) (c : Nat) (keepWrites : Bool) : Bool :=
  match r.agent with
  | .vec d _ => d == c && (!keepWrites || (match r.op with | .write _ | .atomic _ _ _ _ _ | .reduce _ _ _ => false | _ => true))
  | .ldk d _ => d == c
  | .wbuf d _ => d == c && !keepWrites
  | .dma d _ => d == c
  | _ => false

/-- Cancel the rows of a core's descriptors (R309). -/
def State.cancelRows (s : State) (c : Nat) : State :=
  let mine := fun (x : Option XRow) => match x with | some r => (match r.dma with | some d => d.1 == c | none => false) | none => false
  let ids := (s.xlat.rows.filter fun e => mine e.2).map (·.1)
  let s1 := { s with xlat := { s.xlat with rows := SMap.keep s.xlat.rows fun k _ => !ids.contains k } }
  { s1 with xlat := { s1.xlat with pri := SMap.mapV {} s1.xlat.pri fun _ p =>
      { p with busy := p.busy.map fun b => if ids.contains b.row then { b with cancelled := true } else b } } }

/-- Cancel the PIN rows of a context that wait for a page (R309): the page stays not present. -/
def State.cancelPins (s : State) (ctx : Nat) : State :=
  let hit := fun (r : XRow) => r.ctx == ctx && r.pin.isSome && (r.state == .waitSlot || r.state == .waitPri)
  let ids := (s.xlat.rows.filter fun e => match e.2 with | some r => hit r | none => false).map (·.1)
  let rows := SMap.mapV none s.xlat.rows fun _ r => r.map fun r => if hit r then
      { r with state := .done, pin := r.pin.map fun w => { w with failed := some (3, r.va) } } else r
  let pri := SMap.mapV {} s.xlat.pri fun _ p =>
      { p with busy := p.busy.map fun b => if ids.contains b.row then { b with cancelled := true } else b }
  { s with xlat := { s.xlat with rows := rows, pri := pri } }

/-- The router as the end of a kernel or a teardown leaves it: stopped and empty (R233, R237). -/
def Router.halt (r : Router) : Router :=
  { r with run := false, running := false, inputs := [], sendQ := [], recvQ := [], crossQ := [], crossB := [] }

/-- Teardown of a core (R66): tokens, groups and queues are discarded; the write buffer drains or is discarded (R183). -/
def State.teardownCore (s : State) (c : Nat) (keepWrites : Bool) : State :=
  let k := s.core c
  if k.mode = .idle then s else
  let s1 := { s with fab := { s.fab with reqs := s.fab.reqs.filter fun r => !r.dropsWith c keepWrites } }
  let s2 := (s1.cancelRows c).setCore c
    { k with mode := .idle, stopPending := false, clearCount := 0, groups := [], mtxQ := [], dmaQ := [], wb := [],
             fault := { k.fault with valid := false }, router := k.router.halt, share := {} }
  if !keepWrites then s2
  else k.wb.foldl (fun s e =>
    let id := s.fab.nextReq
    let s1 := s.send (e.request c)
    if e.kind = .module then (s1.homeServe id true).1 else s1) s2

/-! Contexts (R288, R436, R437). -/

def ctxSlot (id : Nat) : Nat := id % 1024
/-- The context that an identifier names, when its generation is in force. -/
def State.ctxById (s : State) (id : Nat) : Option Ctx :=
  let x := s.ctx (ctxSlot id)
  if x.state != 0 && x.gen == id / 1024 then some x else none

/-- Queues of a context. -/
def State.queuesOf (s : State) (ctx : Nat) : List Nat :=
  (s.work.queues.filter fun e => match e.2 with | some q => q.ctx == ctx | none => false).map (·.1)

/-- Cores that run a context. -/
def State.coresOf (s : State) (ctx : Nat) : List Nat :=
  (s.cores.filter fun e => e.2.mode != .idle && e.2.context == ctx).map (·.1)

/-- The launch that a context's teardown commits as its own cause, and how. -/
structure Cause where
  kind    : Nat
  code    : Nat
  addr    : Nat := 0
  launch  : Option DWord := none
  /-- Number of the node of a graph launch that is the cause, 0 for none. -/
  node    : Nat := 0
  verdict : Verdict := { status := .fault, fault := 0, reason := 0, notRun := false }
  /-- Reason of every other launch: 0x20, or 0x23 for a partition reset. -/
  others  : Nat := 0x20
  keepWrites : Bool := true
deriving DecidableEq, Repr

/-- Commit what an uncommitted launch of a torn-down context commits (R396). -/
def State.commitTorn (s : State) (k : Cause) (l : Launch) : State :=
  if l.verdict.isSome then s
  else if k.launch = some l.id then
    let nodes := l.nodes.zipIdx.map fun (e : Node × Nat) =>
      if e.2 + 1 = k.node then { e.1 with phase := .committed, verdict := some k.verdict, stamp := s.work.stamps } else e.1
    (s.setLaunch { l with nodes }).commitLaunch l.id k.verdict
  else match l.stop with
    | some v => s.commitLaunch l.id { v with notRun := !l.running }
    | none => s.commitLaunch l.id { status := .aborted, fault := fkAborted, reason := k.others, notRun := !l.running }

/-- Teardown of a context in the order of R437; a later cause changes nothing (R436). -/
def State.tearContext (s : State) (ctx : Nat) (k : Cause) : State :=
  match s.ctxById ctx with
  | none => s
  | some x =>
    if x.state != 1 then s else
    let s1 := s.setCtx (ctxSlot ctx) { x with state := 2 }
    let qs := s1.queuesOf ctx
    let s2 := qs.foldl (fun s q => s.haltQueue q .haltedFault 0) s1
    let cs := s2.coresOf ctx
    let s3a := cs.foldl (fun s c => s.teardownCore c k.keepWrites) s2
    let s3 := { s3a with cores := SMap.mapV {} s3a.cores fun _ c => if c.context == ctx then { c with router := c.router.halt } else c }
    let asked := (s3.pri x.fn).busy.any fun b => b.ctx == ctx
    let s4 := if asked then (s3.cancelPins ctx).emit (.stopMarker x.fn x.pasid) else s3.cancelPins ctx
    let s5 := (s4.sweepCtxAll ctx).dropResv fun c _ _ => cs.contains c
    let s6 := { s5 with cores := SMap.mapV {} s5.cores fun _ c =>
      if (match c.lastCtx with | some e => e.1 == ctx | none => false) then { c with l1 := [] } else c }
    let s7 := (s6.work.launches.filter fun l => l.ctx == ctx).foldl (fun s l => s.commitTorn k l) s6
    let s8 := s7.postPart 0x12 x.partition (leBytes 2 ctx ++ leBytes 1 k.kind ++ leBytes 1 k.code ++ leBytes 4 0 ++ leBytes 8 k.addr)
    qs.foldl (fun s q => s.endHaltOp q) s8

/-! Faults of a core (R66, R67). -/

/-- The code that R389 gives for the record. -/
def FaultRep.code (f : FaultRep) : Nat :=
  if f.kind = fkTranslation || f.kind = fkUnpinned || f.kind = fkMesh then f.cause else f.detail

/-- The launch whose share core `c` took is still running or draining in this context: a fault of its stores is its own (R181, R396). -/
def State.shareRuns (s : State) (c ctx : Nat) : Bool :=
  match s.launch ((s.core c).share.launch &&& ~~~(0x1FFF : DWord)) with
  | some l => l.running && l.verdict.isNone && l.ctx == ctx && l.cores.contains c
  | none => false

/-- A fault stops the core, fixes its fault registers, is logged, and its context is torn down; with `force`, or while the core's launch has
not committed, it is recorded whatever the core's state (R67, R233). -/
def State.takeFaultAs (s : State) (f : FaultRep) (force : Bool) : State :=
  let k := s.core f.core
  let running := k.mode == .running || k.mode == .draining
  let always := force || s.shareRuns f.core f.ctx
  let live := running || always
  let s1 := if running then
      s.setCore f.core { k with mode := .faulted, mtxQ := [], dmaQ := [], fault :=
        { valid := true, more := false, group := f.site.slot, detail := f.detail, kind := f.kind, pc := f.site.pc,
          active := f.site.active, live := f.site.live } }
    else if k.mode = .faulted || (always && k.fault.valid) then s.setCore f.core { k with fault := { k.fault with more := true } }
    else if always then
      s.setCore f.core { k with fault := { valid := true, group := f.site.slot, detail := f.detail, kind := f.kind, pc := f.site.pc,
                                           active := f.site.active, live := f.site.live } }
    else s
  let launch := k.share.launch
  let s2 := s1.note { code := 0x0200 + f.kind, severity := 2, source := 1, unit := f.core / 80, partition := f.part, fault := f.kind,
                      ctx := f.ctx, cause := f.code,
                      data := leBytes 8 launch.toNat ++ leBytes 8 f.addr ++
                        leBytes 1 (10 * (f.core / 80 % 4) + 5 * (f.core % 80 / 40) + f.core % 40 % 5) ++
                        leBytes 1 (8 * (f.core / 320) + f.core % 40 / 5) ++ leBytes 4 f.site.pc.toNat }
  s2.tearContext f.ctx { kind := f.kind, code := f.code, addr := f.addr, launch := if live then some (launch &&& ~~~(0x1FFF : DWord)) else none,
                         node := bitsOf launch.toNat 0 13,
                         verdict := { status := .fault, fault := f.kind, reason := f.code, notRun := false } }

def State.takeFault (s : State) (f : FaultRep) : State := s.takeFaultAs f false

/-- Take every fault that a serving step found. -/
def State.settle (r : Served) : State := r.2.foldl (fun s f => s.takeFault f) r.1

/-! Stops of a launch (R66, R393, R395). -/

/-- The stop event of a core (R66). -/
def Core.stop (k : Core) : Core :=
  match k.mode with
  | .clearing => { k with stopPending := true }
  | .running => { k with mode := .draining }
  | _ => k

/-- Stop a launch with a verdict: at once when none of its cores started, otherwise once they have drained. -/
def State.stopLaunch (s : State) (id : DWord) (v : Verdict) (notStarted : Verdict) : State :=
  match s.launch id with
  | none => s
  | some l =>
    if l.verdict.isSome || l.stop.isSome then s
    else if !l.running then s.commitLaunch id { notStarted with notRun := true }
    else
      let s1 := s.setLaunch { l with stop := some v }
      l.busy.foldl (fun s c => s.updCore c Core.stop) s1

def verdictAborted (reason : Nat) : Verdict := { status := .aborted, fault := fkAborted, reason, notRun := false }

/-- Abort every running launch (R329, R334). -/
def State.abortRunning (s : State) (reason : Nat) : State :=
  (s.work.launches.filter Launch.running).foldl (fun s l => s.stopLaunch l.id (verdictAborted reason) (verdictAborted reason)) s

/-! Device errors (R539). -/

def PartState.code : PartState → Nat
  | .running => 0
  | .quiescing => 1
  | .quiesced => 2
  | .resetting => 3

/-- Move every running partition to QUIESCING. -/
def State.quiesceAll (s : State) : State :=
  { s with work := { s.work with parts := SMap.mapV none s.work.parts fun _ p =>
      match p with
      | some x => some (if x.state = .running then { x with state := .quiescing } else x)
      | none => none } }

/-- An event for the PF ring and the console (R371). -/
def State.postBoth (s : State) (type : Nat) (payload : List Byte) : State := (s.post type 0xFF payload).consoleEvent type payload

/-- State 3 with its entry, severity 3, and its event. -/
def State.haltOn (s : State) (i : LogItem) : State :=
  let r := s.logPut { i with severity := 3 }
  let s1 := { r.2 with sys := { r.2.sys with state := 3 } }
  s1.quiesceAll.postBoth 0x20 (leBytes 2 i.code ++ List.replicate 6 0 ++ leBytes 8 (r.1.getD 0))

/-- A device error: state 3, quiesce, the entry, the event; during steps 3 to 9 of a start it is a STEP_FAIL. -/
def State.deviceError (s : State) (i : LogItem) : State :=
  s.haltOn (if s.sys.state = 1 then { i with code := 0x0180 + s.sys.step } else i)

end Sys2Proof.Machine
end

