-- ==== Sys2Proof/Machine/Translate.lean ====
section
/-!
DEFINITION. Address translation for the cores: translation caches, the pin table, memory types and permissions (R153, R154, R292,
R299 to R303).
-/
namespace Sys2Proof.Machine

/-- The page of an entry holds the address for this context. -/
def TlbEntry.hits (e : TlbEntry) (ctx va : Nat) : Bool := e.ctx == ctx && e.va ≤ va && va < e.va + e.size

/-- The address that the page maps `va` to. -/
def TlbEntry.addr (e : TlbEntry) (va : Nat) : Nat := e.out + (va - e.va)

/-- Bring an entry to the front of a cache of at most `n` entries (least recently used). -/
def tlbUse (n : Nat) (l : List TlbEntry) (e : TlbEntry) : List TlbEntry := (e :: l.filter (· != e)).take n

/-- The pinned leaf of a context that covers an address (R302). -/
def State.pinned (s : State) (ctx va : Nat) : Option TlbEntry :=
  match s.ctxById ctx with
  | none => none
  | some x => (x.windows.flatMap Window.leaves).find? fun e => e.hits ctx va

/-- The window that holds an address. -/
def State.windowAt (s : State) (ctx va : Nat) : Option Window :=
  match s.ctxById ctx with
  | none => none
  | some x => x.windows.find? fun w => w.va ≤ va && va < w.va + w.len

def State.l2tlb (s : State) (h : Nat) : List TlbEntry := SMap.get [] s.xlat.l2 h
def State.setL2tlb (s : State) (h : Nat) (l : List TlbEntry) : State :=
  { s with xlat := { s.xlat with l2 := SMap.set [] s.xlat.l2 h l } }

/-- Count an event of a die's translation block (R313). -/
def State.xlatCount (s : State) (d off n : Nat) : State :=
  { s with xlat := { s.xlat with counters := bump s.xlat.counters (4096 * d + off) n } }

def Core.count (k : Core) (off n : Nat) : Core := { k with counters := bump k.counters off n }

/-- Put an entry into a core's micro-TLB. -/
def State.useUtlb (s : State) (c : Nat) (dma : Bool) (e : TlbEntry) : State :=
  s.updCore c fun k => if dma then { k with dtlb := tlbUse 32 k.dtlb e } else { k with utlb := tlbUse 64 k.utlb e }

/-- Look an address up: micro-TLB, second level, pin table, in the order of R300. The compute path takes pinned leaves
only (R303). -/
def State.lookup (s : State) (c : Nat) (dma : Bool) (ctx va : Nat) : Option TlbEntry × State :=
  let k := s.core c
  let usable := fun (e : TlbEntry) => e.hits ctx va && (dma || e.pinned)
  let off := if dma then 0x710 else 0x700
  match (if dma then k.dtlb else k.utlb).find? usable with
  | some e => (some e, (s.updCore c fun k => k.count off 1).useUtlb c dma e)
  | none =>
    let s1 := s.updCore c fun k => k.count (off + 8) 1
    let h := c / 40
    let l2off := 0x100 + 0x10 * (h % 2)
    match (s1.l2tlb h).find? usable with
    | some e => (some e, ((s1.xlatCount (h / 2) l2off 1).setL2tlb h (tlbUse 4096 (s1.l2tlb h) e)).useUtlb c dma e)
    | none =>
      let s2 := s1.xlatCount (h / 2) (l2off + 8) 1
      match s2.pinned ctx va with
      | some e => (some e, ((s2.xlatCount (h / 2) 0x120 1).setL2tlb h (tlbUse 4096 (s2.l2tlb h) e)).useUtlb c dma e)
      | none => (none, s2)

/-- Memory type of a page (R153). -/
def State.typeOf (s : State) (ctx : Nat) (e : TlbEntry) : MemType :=
  match s.ctxById ctx with
  | none => .reserved
  | some x => match bitsOf x.attrMap.toNat (8 * e.attr) 2 with
    | 0 => .normal
    | 1 => .replicable
    | 2 => .device
    | _ => .reserved

/-- Where one access of a core goes. -/
structure Target where
  addr : Nat
  kind : OutKind
  type : MemType
  /-- The virtual address it was translated from. -/
  va   : Nat := 0
deriving DecidableEq, Repr

/-- What a compute access asks of its page. -/
inductive Use where
  | load | store | atomic (fetchAdd : Bool) | reduce | ldres | stcond | flush | discard
deriving DecidableEq, Repr

def Use.writes : Use → Bool
  | .store | .atomic _ | .reduce | .stcond | .discard => true
  | _ => false

/-- The address is canonical for its context (R295). -/
def State.canonical (s : State) (ctx va : Nat) : Bool :=
  match s.ctxById ctx with
  | none => true
  | some x =>
    if x.ats then true else
    let f := SMap.get {} s.xlat.formats x.fmt
    let bits := (match f.index with | (lo, n) :: _ => lo + n | [] => 64)
    if bits = 0 || 64 ≤ bits then true
    else if f.flags.getLsbD 0 then va / 2 ^ (bits - 1) == 0 || va / 2 ^ (bits - 1) == 2 ^ (65 - bits) - 1
    else va < 2 ^ bits

/-- What a compute access meets at the core: a place, or a fault kind with its cause (R154, R269, R292, R303). -/
def State.compute (s : State) (c : Nat) (va : Nat) (use : Use) : (Target ⊕ Nat × Nat) × State :=
  let ctx := (s.core c).context
  match s.lookup c false ctx va with
  | (none, s1) => (.inr (fkUnpinned, if s1.canonical ctx va then 0x10 else 0x01), s1)
  | (some e, s1) =>
    let w := match s1.windowAt ctx va with | some w => w.writable | none => false
    let type := s1.typeOf ctx e
    let a := e.addr va
    let t : Target := { addr := a, kind := e.kind, type, va }
    let host := e.kind != .module
    let denied :=
      (use.writes && !(w && e.writable)) ||
      type == .reserved ||
      (type == .replicable && (use.writes || use == .ldres)) ||
      (type == .device && (match use with | .atomic _ | .reduce | .discard | .ldres | .stcond => true | _ => false)) ||
      (host && (match use with | .reduce | .ldres | .stcond => true | .atomic ok => !ok | _ => false)) ||
      (!host && addrClass a == .tier3)
    if denied then (.inr (fkPermission, 0), s1)
    else if !host && (match addrClass a with | .tier1 | .tier2 => (s1.spot a).isNone | _ => true) then (.inr (fkForeign, 0), s1)
    else (.inl t, s1)

end Sys2Proof.Machine
end

