-- ==== Sys2Proof/Machine/Issue.lean ====
section
/-!
DEFINITION. The issue of one instruction of a group: readiness, decode checks, lanes, paths and the reconvergence stack, and the
instruction's end (R30, R34, R40, R51 to R59, R105 to R118, R165).
-/
namespace Sys2Proof.Machine

/-! What an instruction knows of its group. -/

/-- An instruction in hand: its core and slot, and its fields. -/
structure Inst where
  c    : Nat
  slot : Nat
  u    : Fields
deriving DecidableEq, Repr

def Core.W (k : Core) : Nat := 16 * 2 ^ k.width
def Core.R (k : Core) : Nat := 8 * k.regsDiv8
def Core.T (k : Core) : Nat := 4096 * k.tilePages
/-- The mask of the first `w` lanes. -/
def laneMask (w : Nat) : Mask := BitVec.ofNat 64 (2 ^ w - 1)
/-- Resident groups of a declaration (R36). -/
def residentGroups (r w : Nat) : Nat := if r = 0 then 0 else Nat.min 2048 (65536 / r) / w
def Core.slots (k : Core) : Nat := residentGroups k.R k.W

def State.grp (s : State) (i : Inst) : Group := (s.core i.c).group i.slot
def State.setGrp (s : State) (i : Inst) (g : Group) : State := s.setCore i.c ((s.core i.c).setGroup i.slot g)

/-- Lanes in which the instruction acts (R40, R116). -/
def Group.passing (g : Group) (u : Fields) : Mask :=
  let p := g.getP u.pred.toNat
  g.active &&& (if u.neg then ~~~p else p)

def Group.site (g : Group) (slot : Nat) (k : Core) : Site :=
  { slot, pc := g.pc + 256 &&& 0xFFFFFFF8, active := g.active &&& laneMask k.W, live := g.live &&& laneMask k.W }

/-- The fault of an instruction at its issue. -/
def State.instFault (s : State) (i : Inst) (kind detail cause addr : Nat) : FaultRep :=
  let k := s.core i.c
  { core := i.c, ctx := k.context, part := k.partition, site := (s.grp i).site i.slot k, kind, detail, cause, addr }

/-! Decode checks (R106 to R110). -/

/-- How a form uses a field. -/
inductive Slot where
  /-- Not used: must be 0. -/
  | zero (v : Nat)
  /-- First of `n` t registers. -/
  | t (v n : Nat)
  | uSrc (v : Nat)
  | uDst (v : Nat)
  | p (v : Nat)
deriving DecidableEq, Repr

/-- Defect of a field: the detail code, none when it is sound. -/
def Slot.defect (r un : Nat) : Slot → List Nat
  | .zero v => if v = 0 then [] else [2]
  | .t v n => (if r < v + n then [3] else []) ++ (if 1 < n && v % 2 == 1 then [7] else [])
  | .uSrc v =>
    if v < 64 then (if un ≤ v then [3] else [])
    else if v < 0x68 then []
    else if 0x80 ≤ v && v ≤ 0x8E then [] else [2]
  | .uDst v => if v < 64 then (if un ≤ v then [3] else []) else if v < 0x68 then [6] else [2]
  | .p v => if 7 < v then [2] else []

/-- The first check of R107 that fails. -/
def firstDefect (r un : Nat) (slots : List Slot) (formOk privOk : Bool) : Option Nat :=
  let d := slots.flatMap (Slot.defect r un)
  if !formOk || d.contains 2 then some 2
  else if d.contains 3 then some 3
  else if d.contains 7 then some 7
  else if !privOk || d.contains 6 then some 6
  else none

/-- What an instruction does with memory, for the fences it stands behind (R165). -/
inductive Access where
  | none | read | write
deriving DecidableEq, Repr

/-- The form of an operation: its fields, whether its modifiers and extension word are legal, its access, its
engine (R115). -/
structure Form where
  slots  : List Slot
  ok     : Bool
  priv   : Bool := true
  access : Access := .none
  engine : Engine := .v
deriving DecidableEq, Repr

/-- A source field of a vector class that a modifier bit may move to u-space (R123); the extension word replaces b. -/
def vsrc (inU : Bool) (v : BitVec 8) (n : Nat) : Slot := if inU then .uSrc v.toNat else .t v.toNat n

/-! Readiness (R30, R32, R34). -/

/-- Registers of a group whose value an outstanding access will bring: space (0 t, 1 u, 2 p) and number. -/
def Req.dests (r : Req) (c slot : Nat) : List (Nat × Nat) :=
  let mine := match r.agent with
    | .vec d i => d == c && i == slot
    | .ldk d i => d == c && i == slot
    | _ => false
  if !mine then [] else
  match r.op with
  | .load d size _ _ _ _ => (List.range (if size ≤ 2 then 1 else sizeBytes size / 4)).map fun j => (0, d + j)
  | .ldk d _ => [(1, d)]
  | .atomic _ _ size d _ => (List.range (sizeBytes size / 4)).map fun j => (0, d + j)
  | .ldres _ d _ _ => [(1, d)]
  | .stcond _ _ p _ => [(2, p)]
  | _ => []

def Slot.regs : Slot → List (Nat × Nat)
  | .zero _ => []
  | .t v n => (List.range n).map fun j => (0, v + j)
  | .uSrc v => [(1, v)]
  | .uDst v => [(1, v)]
  | .p v => [(2, v)]

/-- The scoreboard holds no register that the instruction names. -/
def State.scoreFree (s : State) (i : Inst) (slots : List Slot) : Bool :=
  let busy := s.fab.reqs.flatMap fun r => r.dests i.c i.slot
  let used := (2, i.u.pred.toNat) :: slots.flatMap Slot.regs
  !used.any fun x => busy.contains x

/-- The group stands behind a fence that its next instruction must not pass (R165): kind 1 RELEASE holds back writes,
the other kinds every access. -/
def Group.fenced (g : Group) (a : Access) : Bool :=
  match g.fence with
  | none => false
  | some f => if f.kind = 1 then a == .write else a != .none

/-- The group may issue its next instruction; a kernel that uses the mesh waits for its router's start (R235). -/
def State.ready (s : State) (i : Inst) : Bool :=
  let k := s.core i.c
  let g := s.grp i
  k.mode == .running && i.slot < k.slots && g.occupied && g.active != 0 && g.mesh.isNone &&
    (!k.kernel.usesMesh || k.router.running)

/-! Paths (R51 to R53, R57, R118). -/

/-- The innermost entry that holds lanes of the active path. -/
def Group.top (g : Group) : Option StackEntry := g.stack.find? fun e => e.mask &&& g.active != 0

/-- Lanes that cannot yet continue from a stack entry: on other paths, at barriers. -/
def Group.elsewhere (g : Group) : Mask :=
  g.paths.foldl (fun m p => m ||| p.2) 0 ||| g.arrivals.foldl (fun m a => m ||| a.mask) 0

/-- The first entry of which every lane waits at its address, with the stack without it; `inner` holds the lanes of the
entries before it. -/
def readyEntry (away : Mask) : Mask → List StackEntry → Option (StackEntry × List StackEntry)
  | _, [] => none
  | inner, e :: rest =>
    if e.mask != 0 && e.mask &&& (away ||| inner) == 0 then some (e, rest)
    else match readyEntry away (inner ||| e.mask) rest with
      | some (x, r) => some (x, e :: r)
      | none => none

/-- When the active path has no lanes, the next one runs; a path that stands at its reconvergence address waits there. -/
def Group.settlePath : Nat → Group → Group
  | 0, g => g
  | n + 1, g =>
    if g.active != 0 then
      match g.top with
      | some e => if !e.isCall && e.addr == g.pc then Group.settlePath n { g with active := 0 } else g
      | none => g
    else
      let stack := g.stack.filter fun e => e.mask != 0
      match readyEntry g.elsewhere 0 stack with
      | some (e, rest) => Group.settlePath n { g with stack := rest, active := e.mask, pc := e.addr }
      | none =>
        match g.paths with
        | (pc, m) :: rest =>
          if m = 0 then Group.settlePath n { g with stack, paths := rest }
          else Group.settlePath n { g with stack, paths := rest, active := m, pc }
        | [] => { g with stack }

def Group.settle (g : Group) : Group := g.settlePath (2 * (g.stack.length + g.paths.length) + 2)

/-- Remove lanes for good (R53). -/
def Group.remove (g : Group) (m : Mask) : Group :=
  { g with active := g.active &&& ~~~m, live := g.live &&& ~~~m,
           stack := (g.stack.map fun e => { e with mask := e.mask &&& ~~~m }).filter fun e => e.mask != 0,
           paths := g.paths.map fun p => (p.1, p.2 &&& ~~~m) }

/-! Issue. -/

/-- What executing an instruction answers. -/
inductive Effect where
  /-- Done: the program goes on after it. -/
  | next (s : State)
  /-- Done, and the program counter is set. -/
  | jump (s : State)
  | fault (s : State) (f : FaultRep)
  /-- Not ready: nothing happens now. -/
  | stall

/-- Bytes of the instruction (R105). -/
def Inst.bytes (i : Inst) : DWord := if i.u.ext.isSome then 16 else 8

def State.countIssue (s : State) (i : Inst) : State := s.updCore i.c fun k => k.count 0x108 1

/-- Go on after the instruction. -/
def State.advance (s : State) (i : Inst) : State :=
  let g := s.grp i
  if g.occupied then s.setGrp i ({ g with pc := g.pc + i.bytes }.settle) else s

/-- The first decode check that fails: a unit outside the code section is of class 0xF, an extension word outside it
fails check 2 (R105, R107). -/
def State.defect (s : State) (i : Inst) (f : Form) : Option Nat :=
  let k := s.core i.c
  let pc := (s.grp i).pc.toNat
  if k.kernel.codeBytes < pc + 8 then some 1
  else firstDefect k.R k.uniforms f.slots (f.ok && (i.u.ext.isNone || decide (pc + 16 ≤ k.kernel.codeBytes))) f.priv

/-- The group waits on a token and issues nothing (R34, R62), or the engine is held by a TOK.SET that finds its token at 63 (R63). -/
def State.engineHeld (s : State) (i : Inst) (e : Engine) : Bool :=
  let g := s.grp i
  !g.tokWaits.isEmpty ||
  match g.sets.find? fun x => x.engine == e with
  | some x => SMap.get 0 g.tokens x.token == 63 && !s.fab.reqs.any fun r => x.reqs.contains r.id
  | none => false

/-- The negation of p0 (R40): the instruction never executes. -/
def never (u : Fields) : Bool := u.pred == 0 && u.neg

/-- Issue an instruction of the form: readiness, the checks of R107, then its effect; under the negation of p0 it retires as a no-op, a
collective one too (R40). -/
def State.issue (s : State) (i : Inst) (f : Form) (act : State → Effect) : State :=
  if !(s.ready i && s.scoreFree i f.slots && !(s.grp i).fenced f.access && !s.engineHeld i f.engine) then s
  else match s.defect i f with
  | some d => (s.countIssue i).takeFault (s.instFault i fkIllegal d 0 0)
  | none => if never i.u then (s.countIssue i).advance i else match act s with
    | .next s1 => (s1.countIssue i).advance i
    | .jump s1 => s1.countIssue i
    | .fault s1 r => (s1.countIssue i).takeFault r
    | .stall => s

/-- An instruction that executes once per group: a no-op when no active lane passes (R116). -/
def State.onceIssue (s : State) (i : Inst) (f : Form) (act : State → Effect) : State :=
  s.issue i f fun s => if (s.grp i).passing i.u = 0 then .next s else act s

/-- A collective instruction: its active mask, after the predicate, must be the live mask unless it is .PARTIAL (R55,
R116). -/
def State.collective (s : State) (i : Inst) (f : Form) (cls : Nat) (part : Bool) (act : State → Mask → Effect) : State :=
  s.issue i f fun s =>
    let g := s.grp i
    let m := g.passing i.u
    if !part && m != g.live then .fault s (s.instFault i fkDivergent cls 0 0) else act s m

/-! Operands. -/

/-- Specials of R111. -/
def State.special (s : State) (i : Inst) (n : Nat) : DWord :=
  let k := s.core i.c
  let d := i.c / 80
  let lx := 5 * (i.c % 80 / 40) + i.c % 40 % 5
  BitVec.ofNat 64 (match n with
    | 0x81 => 10 * (d % 4) + lx
    | 0x82 => 8 * (d / 4) + i.c % 40 / 5
    | 0x83 => d
    | 0x84 => i.c % 80
    | 0x85 => k.partition
    | 0x86 => k.context
    | 0x87 => k.W
    | 0x88 => i.slot
    | 0x89 => k.share.first
    | 0x8A => k.share.groups
    | 0x8B => k.share.gridGroups
    | 0x8C => k.share.rank
    | 0x8D => k.share.launch.toNat
    | 0x8E => k.T
    | _ => 0)

/-- A source in u-space (R109). -/
def State.uVal (s : State) (i : Inst) (v : Nat) : DWord :=
  if v < 64 then (s.grp i).getU v
  else if v < 0x80 then SMap.get 0 (s.core i.c).launchBlock (v - 0x40)
  else s.special i v

/-- A 32-bit vector source in one lane (R113, R123). -/
def State.src32 (s : State) (i : Inst) (inU : Bool) (v : BitVec 8) (lane : Nat) : Word :=
  if inU then (s.uVal i v.toNat).setWidth 32 else (s.grp i).getT lane v.toNat

/-- Write a u register. -/
def State.putU (s : State) (i : Inst) (n : Nat) (v : DWord) : State := s.setGrp i ((s.grp i).setU n v)

/-- Write t[d] of each lane of a mask. -/
def State.putT (s : State) (i : Inst) (m : Mask) (d : Nat) (v : Nat → Word) : State :=
  s.setGrp i ((lanesOf m).foldl (fun g l => g.setT l d (v l)) (s.grp i))

/-- The lanes of a mask for which `f` holds. -/
def maskWhere (m : Mask) (f : Nat → Bool) : Mask := (lanesOf m).foldl (fun x l => if f l then x ||| BitVec.ofNat 64 (2 ^ l) else x) 0

/-- Write p[d] in the lanes of a mask. -/
def State.putP (s : State) (i : Inst) (m : Mask) (d : Nat) (v : Nat → Bool) : State :=
  s.setGrp i ((s.grp i).setP d m (maskWhere m v))

def inst (g : GroupRef) (u : Fields) : Inst := { c := g.core.val, slot := g.slot.val, u }

end Sys2Proof.Machine
end

