-- ==== Sys2Proof/Machine/Operands.lean ====
section
/-!
DEFINITION. The operand forms of the instruction classes: which fields an operation uses, their spaces and modifiers (R104 to
R106, R117, R119, R122, R123, R130, R134).
-/
namespace Sys2Proof

/-- Bits of the modifier field. -/
def Fields.bits (u : Fields) (lo len : Nat) : Nat := u.mod.toNat / 2 ^ lo % 2 ^ len
def Fields.bit (u : Fields) (i : Nat) : Bool := u.mod.getLsbD i
/-- No modifier bit outside the mask is set. -/
def Fields.onlyBits (u : Fields) (mask : Nat) : Bool := u.mod &&& ~~~(BitVec.ofNat 15 mask) == 0
/-- opmod of classes 0x3 to 0x5 (R123). -/
def Fields.opmod (u : Fields) : Nat := u.bits 0 11

end Sys2Proof

namespace Sys2Proof.Machine

/-- The engines of a core work while it runs or drains (R66). -/
def Core.live (k : Core) : Bool := k.mode == .running || k.mode == .draining

/-- No operand, no modifier, no extension word. -/
def noOperands (u : Fields) : Form :=
  { slots := [.zero u.d.toNat, .zero u.a.toNat, .zero u.b.toNat, .zero u.c.toNat], ok := u.mod == 0 && u.ext.isNone, engine := .s }

/-- Class 0x1: u[a] and u[b], or the extension word for b (R119). -/
def scalarForm (u : Fields) (dst : Slot) (modOk : Bool) : Form :=
  { slots := [dst, .uSrc u.a.toNat, (if u.ext.isSome then .zero u.b.toNat else .uSrc u.b.toNat), .zero u.c.toNat], ok := modOk, engine := .s }

/-- Source b of class 0x1. -/
def State.scalarB (s : State) (i : Inst) : DWord :=
  match i.u.ext with
  | some x => x
  | none => s.uVal i i.u.b.toNat

/-- What a source field of classes 0x3 to 0x5 may name. -/
inductive SrcKind where
  /-- Not used. -/
  | unused
  /-- t-space, or u-space by its modifier bit. -/
  | any
  | tOnly
  | pOnly
deriving DecidableEq, Repr

def SrcKind.slot : SrcKind → Bool → BitVec 8 → Slot
  | .unused, _, v => .zero v.toNat
  | .any, inU, v => vsrc inU v 1
  | .tOnly, _, v => .t v.toNat 1
  | .pOnly, _, v => .p v.toNat
def SrcKind.bitOk : SrcKind → Bool → Bool
  | .any, _ => true
  | _, inU => !inU

/-- Classes 0x3 to 0x5 (R123): `opOk` judges opmod; only collectives may set partial. -/
def vecForm (u : Fields) (ka kb kc : SrcKind) (dst : Slot) (opOk coll : Bool) : Form :=
  { slots := [dst, ka.slot (u.bit 14) u.a, (if u.ext.isSome then .zero u.b.toNat else kb.slot (u.bit 13) u.b), kc.slot (u.bit 12) u.c],
    ok := opOk && ka.bitOk (u.bit 14) && kc.bitOk (u.bit 12) && (coll || !u.bit 11) &&
      (if u.ext.isSome then kb == .any && !u.bit 13 else kb.bitOk (u.bit 13)) }

/-- Sources a, b and c of a 32-bit vector operation in one lane (R113, R123). -/
def State.srcA (s : State) (i : Inst) (lane : Nat) : Word := s.src32 i (i.u.bit 14) i.u.a lane
def State.srcB (s : State) (i : Inst) (lane : Nat) : Word :=
  match i.u.ext with
  | some x => x.setWidth 32
  | none => s.src32 i (i.u.bit 13) i.u.b lane
def State.srcC (s : State) (i : Inst) (lane : Nat) : Word := s.src32 i (i.u.bit 12) i.u.c lane

/-- t[d] of one register, and p[d]. -/
def dstT (u : Fields) : Slot := .t u.d.toNat 1
def dstP (u : Fields) : Slot := .p u.d.toNat

/-- Registers of an element of the size code (R131). -/
def sizeRegs (size : Nat) : Nat := if size ≤ 2 then 1 else 2 ^ (size - 2)

/-- Classes 0x6 and 0x7: address fields a and b (R130); `dc` are the slots of d and c. -/
def memForm (u : Fields) (dc : List Slot) (modOk : Bool) (access : Access) : Form :=
  { slots := .t u.a.toNat (if u.bit 9 then 2 else 1) :: .uSrc u.b.toNat :: dc, ok := modOk && decide (u.bits 12 3 ≤ 4), access }

/-- Offset t[a] of a lane: a register, or a pair. -/
def State.laneOffset (s : State) (i : Inst) (lane : Nat) : Nat :=
  let g := s.grp i
  (g.getT lane i.u.a.toNat).toNat + (if i.u.bit 9 then 2 ^ 32 * (g.getT lane (i.u.a.toNat + 1)).toNat else 0)

/-- Memory address of a lane, and tile memory address (R130). -/
def State.laneAddr (s : State) (i : Inst) (lane : Nat) : Nat :=
  ((s.uVal i i.u.b.toNat).toNat + s.laneOffset i lane + (match i.u.ext with | some x => x.toNat | none => 0)) % 2 ^ 64
def State.laneTile (s : State) (i : Inst) (lane : Nat) : Nat :=
  ((s.uVal i i.u.b.toNat).toNat + ((s.grp i).getT lane i.u.a.toNat).toNat + (match i.u.ext with | some x => x.toNat | none => 0)) % 2 ^ 32

/-- The value of `n` registers of a lane from `r` on, little-endian. -/
def Group.regsVal (g : Group) (lane r n : Nat) : Nat := (List.range n).foldl (fun v j => v + 2 ^ (32 * j) * (g.getT lane (r + j)).toNat) 0

end Sys2Proof.Machine
end

