-- ==== Sys2Proof/Machine/Lsu.lean ====
section
/-!
DEFINITION. Loads, stores, atomics, reductions, reservations, cache operations and constant-pool reads of a core (R42 to R49,
R130 to R134, R139, R154, R160, R161, R562).
-/
namespace Sys2Proof.Machine

/-! The checks of R562. -/

/-- A line access of an instruction: its place, and the lanes with their offsets in the line. -/
structure LineAcc where
  target : Target
  lanes  : List (Nat × Nat)
deriving DecidableEq, Repr

/-- The virtual lines that the lanes touch, in the order of R43. -/
def lineOrder (las : List (Nat × Nat)) : List Nat :=
  las.foldl (fun acc la => if acc.contains (la.2 / 128) then acc else acc ++ [la.2 / 128]) []

/-- A check that failed: kind, cause, address. -/
abbrev Failed := Nat × Nat × Nat

/-- Check the lines in order: alignment, then translation, permissions and type. -/
def State.checkLines (s : State) (c : Nat) (use : Use) (size : Nat) (las : List (Nat × Nat)) :
    List Nat → (Failed ⊕ List (Nat × Target)) × State
  | [] => (.inr [], s)
  | v :: rest =>
    match las.find? fun la => la.2 / 128 == v && la.2 % size != 0 with
    | some la => (.inl (fkMisaligned, 0, la.2), s)
    | none =>
      let va := match las.find? fun la => la.2 / 128 == v with | some la => la.2 | none => 128 * v
      match s.compute c va use with
      | (.inl t, s1) =>
        match s1.checkLines c use size las rest with
        | (.inr ts, s2) => (.inr ((v, { t with addr := lineOf t.addr }) :: ts), s2)
        | r => r
      | (.inr f, s1) => (.inl (f.1, f.2, va), s1)

/-- Combine the lanes by physical line, those to Device memory apart, in the order of R43 and R45. -/
def combine (ts : List (Nat × Target)) (las : List (Nat × Nat)) : List LineAcc :=
  las.foldl (fun acc la =>
    match ts.find? fun t => t.1 == la.2 / 128 with
    | none => acc
    | some (_, t) =>
      let joins := fun (a : LineAcc) => t.type != .device && a.target == { t with va := a.target.va }
      if acc.any joins then acc.map fun a => if joins a then { a with lanes := a.lanes ++ [(la.1, la.2 % 128)] } else a
      else acc ++ [{ target := t, lanes := [(la.1, la.2 % 128)] }]) []

/-- The line accesses of an instruction's passing lanes, or its fault. -/
def State.accesses (s : State) (i : Inst) (use : Use) (size : Nat) (m : Mask) : (Failed ⊕ List LineAcc) × State :=
  let las := (lanesOf m).map fun l => (l, s.laneAddr i l)
  match s.checkLines i.c use size las (lineOrder las) with
  | (.inl f, s1) => (.inl f, s1)
  | (.inr ts, s1) => (.inr (combine ts las), s1)

def State.failed (s : State) (i : Inst) (f : Failed) : Effect := .fault s (s.instFault i f.1 0 f.2.1 f.2.2)

/-! Requests. -/

/-- The priority of a core's requests (R246). -/
def State.lcCore (s : State) (k : Core) : Bool :=
  match s.launch (k.share.launch &&& ~~~(0x1FFF : DWord)) with
  | some l => match s.queue l.queue with | some q => !q.be | none => false
  | none => false

/-- A request of the vector engine for the issuing group. -/
def State.vecReq (s : State) (i : Inst) (t : Target) (tag : Nat) (op : ReqOp) : Req :=
  let k := s.core i.c
  { id := 0, agent := .vec i.c i.slot, tag, part := k.partition, ctx := k.context, type := t.type, kind := t.kind, addr := t.addr, op,
    place := .home, lc := s.lcCore k, waited := 0, va := t.va, site := (s.grp i).site i.slot k }

/-- CORE_CNT_LINE_REQ and CORE_CNT_SECTOR. -/
def State.countLine (s : State) (c : Nat) (offs : List Nat) : State :=
  s.updCore c fun k => (k.count 0x130 1).count 0x138 (sectorList (sectorsOf offs)).length

/-- The buffered entry of a line. -/
def Core.buffered (k : Core) (kind : OutKind) (line : Nat) : Option WbEntry := k.wb.find? fun e => e.kind == kind && e.line == line

/-- An entry leaves the write buffer as a request (R160). -/
def State.leaveWb (s : State) (c : Nat) (e : WbEntry) : State :=
  (s.updCore c fun k => { k with wb := k.wb.filter (· != e) }).send (e.request c)

/-- Write the buffered entry of a line to its home first (R161). -/
def State.flushEntry (s : State) (c : Nat) (t : Target) : State :=
  match (s.core c).buffered t.kind t.addr with
  | some e => s.leaveWb c e
  | none => s

/-- Bytes of the lanes of a line access. -/
def LineAcc.offsets (a : LineAcc) (n : Nat) : List Nat := a.lanes.flatMap fun l => (List.range n).map (l.2 + ·)

/-! Loads. -/

/-- One line of LD: from the L1, or by a request. -/
def State.loadLine (s : State) (i : Inst) (size : Nat) (sign ro : Bool) (tag : Nat) (a : LineAcc) : State :=
  let d := i.u.d.toNat
  let s := s.countLine i.c (a.offsets (sizeBytes size))
  if a.target.type == .device then
    let s1 := s.flushEntry i.c a.target
    s1.send (s1.vecReq i a.target tag (.load d size sign false a.lanes []))
  else
    let through := ro || a.target.type == .replicable
    let fwd := match (s.core i.c).buffered a.target.kind a.target.addr with
      | some e => e.bytes.filterMap fun b => b.2.map fun v => (b.1, v)
      | none => []
    let key := l1Key a.target.kind a.target.addr
    match (if through then (s.core i.c).l1.find? fun x => x.line == key else none) with
    | some x =>
      let s1 := (s.updCore i.c fun k => k.count 0x148 1).fillL1 i.c key x.bytes
      s1.loadLanes i.c i.slot d size sign a.lanes (forwarded fwd fun o => x.bytes.getD o 0)
    | none =>
      let s1 := if through then s.updCore i.c fun k => k.count 0x150 1 else s
      s1.send (s1.vecReq i a.target tag (.load d size sign through a.lanes fwd))

def ldForm (u : Fields) : Form :=
  memForm u [.t u.d.toNat (sizeRegs (u.bits 12 3)), .zero u.c.toNat]
    (u.onlyBits 0x7E03 && (!u.bit 11 || decide (u.bits 12 3 ≤ 1))) .read

/-- LD (R131, R43). -/
def execLd (g : GroupRef) (u : Fields) (s : State) : Host.Outcome State Fault Refusal :=
  .next (s.issue (inst g u) (ldForm u) fun s =>
    let i := inst g u
    match s.accesses i .load (sizeBytes (u.bits 12 3)) ((s.grp i).passing u) with
    | (.inl f, s1) => s1.failed i f
    | (.inr as, s1) => .next (as.foldl (fun s a => s.loadLine i (u.bits 12 3) (u.bit 11) (u.bit 10) (u.bits 0 2) a) s1))

/-! Tile memory (R46, R130). -/

/-- The first tile access that fails, in lane order. -/
def State.tileCheck (s : State) (i : Inst) (size : Nat) (lanes : List Nat) : Option (Nat × Nat × Nat) :=
  let bad := fun l => s.laneTile i l % size != 0 || decide ((s.core i.c).T ≤ s.laneTile i l)
  match lanes.find? bad with
  | some l =>
    let a := s.laneTile i l
    if a % size = 0 then some (fkPermission, 1, a) else some (fkMisaligned, 0, a)
  | none => none

/-- Extra cycles of a tile access: words in the most heavily used of the 64 banks, less one (R46). -/
def tileConflicts (addrs : List Nat) (size : Nat) : Nat :=
  let words := (addrs.flatMap fun a => (List.range ((size + 3) / 4)).map fun j => a / 4 + j).eraseDups
  ((List.range 64).foldl (fun m b => Nat.max m (words.filter fun w => w % 64 == b).length) 0) - 1

def ldtForm (u : Fields) : Form :=
  memForm u [.t u.d.toNat (sizeRegs (u.bits 12 3)), .zero u.c.toNat] (u.onlyBits 0x7800 && (!u.bit 11 || decide (u.bits 12 3 ≤ 1))) .read

/-- LDT. -/
def execLdt (g : GroupRef) (u : Fields) (s : State) : Host.Outcome State Fault Refusal :=
  .next (s.issue (inst g u) (ldtForm u) fun s =>
    let i := inst g u
    let lanes := lanesOf ((s.grp i).passing u)
    let n := sizeBytes (u.bits 12 3)
    match s.tileCheck i n lanes with
    | some f => .fault s (s.instFault i f.1 f.2.1 0 f.2.2)
    | none =>
      let s1 := s.updCore i.c fun k => k.count 0x140 (tileConflicts (lanes.map (s.laneTile i)) n)
      .next (s1.loadLanes i.c i.slot u.d.toNat (u.bits 12 3) (u.bit 11) (lanes.map fun l => (l, s.laneTile i l))
        fun o => SMap.get 0 (s.core i.c).tile o))

def sttForm (u : Fields) : Form :=
  memForm u [.zero u.d.toNat, .t u.c.toNat (sizeRegs (u.bits 12 3))] (u.onlyBits 0x7000) .write

/-- The bytes of a lane's store data. -/
def State.storeBytes (s : State) (i : Inst) (size lane : Nat) : List Byte :=
  leBytes (sizeBytes size) ((s.grp i).regsVal lane i.u.c.toNat (sizeRegs size))

/-- STT: the highest lane supplies a byte that several write (R44). -/
def execStt (g : GroupRef) (u : Fields) (s : State) : Host.Outcome State Fault Refusal :=
  .next (s.issue (inst g u) (sttForm u) fun s =>
    let i := inst g u
    let lanes := lanesOf ((s.grp i).passing u)
    let n := sizeBytes (u.bits 12 3)
    match s.tileCheck i n lanes with
    | some f => .fault s (s.instFault i f.1 f.2.1 0 f.2.2)
    | none =>
      .next (s.updCore i.c fun k =>
        { k.count 0x140 (tileConflicts (lanes.map (s.laneTile i)) n) with
          tile := lanes.foldl (fun t l => SMap.putBytes t (s.laneTile i l) (s.storeBytes i (u.bits 12 3) l)) k.tile }))

/-! Stores. -/

/-- Put bytes of a line into the write buffer: they merge with its entry, or take a new one; a full buffer first writes its
oldest entry (R160). -/
def State.buffer (s : State) (i : Inst) (t : Target) (tag : Nat) (bytes : List (Nat × Byte)) : State :=
  let put := fun (m : SMap (Option Byte)) => bytes.foldl (fun m b => SMap.set none m b.1 (some b.2)) m
  match (s.core i.c).buffered t.kind t.addr with
  | some e =>
    let groups := if e.groups.contains i.slot then e.groups else e.groups ++ [i.slot]
    s.updCore i.c fun k => { k with wb := k.wb.map fun x => if x = e then { x with bytes := put x.bytes, groups } else x }
  | none =>
    let s1 := match (s.core i.c).wb with
      | e :: _ => if 32 ≤ (s.core i.c).wb.length then s.leaveWb i.c e else s
      | [] => s
    let k := s1.core i.c
    let e : WbEntry := { line := t.addr, bytes := put [], groups := [i.slot], part := k.partition, ctx := k.context, tag,
                         site := (s1.grp i).site i.slot k, kind := t.kind, age := 0, va := t.va }
    s1.updCore i.c fun k => { k with wb := k.wb ++ [e] }

/-- Bytes that the lanes of a line access store, later lanes last (R44). -/
def State.laneStores (s : State) (i : Inst) (size : Nat) (a : LineAcc) : List (Nat × Byte) :=
  let m : SMap (Option Byte) := a.lanes.foldl (fun m l =>
    (s.storeBytes i size l.1).zipIdx.foldl (fun m b => SMap.set none m (l.2 + b.2) (some b.1)) m) []
  m.filterMap fun e => e.2.map fun b => (e.1, b)

/-- Device writes of a core's vector engine that have not been performed: its Device queue (R161). -/
def State.deviceQueue (s : State) (c : Nat) : List Req :=
  s.fab.reqs.filter fun r => r.type == .device && (match r.agent with | .vec d _ => d == c | _ => false) && r.op.isWrite

/-- One line of ST. -/
def State.storeLine (s : State) (i : Inst) (size tag : Nat) (a : LineAcc) : State :=
  let s := s.countLine i.c (a.offsets (sizeBytes size))
  let bytes := s.laneStores i size a
  if a.target.type == .device then
    let s1 := s.flushEntry i.c a.target
    s1.send (s1.vecReq i a.target tag (.write bytes))
  else s.buffer i a.target tag bytes

def stForm (u : Fields) : Form :=
  memForm u [.zero u.d.toNat, .t u.c.toNat (sizeRegs (u.bits 12 3))] (u.onlyBits 0x7203) .write

/-- ST: a Device store waits while the Device queue holds 16. -/
def execSt (g : GroupRef) (u : Fields) (s : State) : Host.Outcome State Fault Refusal :=
  .next (s.issue (inst g u) (stForm u) fun s =>
    let i := inst g u
    match s.accesses i .store (sizeBytes (u.bits 12 3)) ((s.grp i).passing u) with
    | (.inl f, s1) => s1.failed i f
    | (.inr as, s1) =>
      if as.any (fun a => a.target.type == .device) && decide (16 ≤ (s1.deviceQueue i.c).length) then .stall
      else .next (as.foldl (fun s a => s.storeLine i (u.bits 12 3) (u.bits 0 2) a) s1))

/-! Atomics (R132). -/

/-- One line of an atomic; host memory takes one request for each lane. -/
def State.atomicLine (s : State) (i : Inst) (cas : Bool) (aop size tag : Nat) (a : LineAcc) : State :=
  let g := s.grp i
  let n := sizeRegs size
  let op := fun (l : Nat × Nat) =>
    (l.1, l.2, BitVec.ofNat 64 (g.regsVal l.1 i.u.c.toNat n), BitVec.ofNat 64 (if cas then g.regsVal l.1 i.u.d.toNat n else 0))
  let s1 := s.flushEntry i.c a.target
  let send := fun (s : State) (ls : List (Nat × Nat)) =>
    s.send (s.vecReq i a.target tag (.atomic cas aop size i.u.d.toNat (ls.map op)))
  if a.target.kind = .module then send s1 a.lanes else a.lanes.foldl (fun s l => send s [l]) s1

/-- ATOM and ATOM.CAS after their checks. -/
def State.atomicAct (s : State) (i : Inst) (cas : Bool) (aop : Nat) : Effect :=
  let size := i.u.bits 12 3
  match s.accesses i (.atomic (size == 3 && (cas || aop == 0))) (sizeBytes size) ((s.grp i).passing i.u) with
  | (.inl f, s1) => s1.failed i f
  | (.inr as, s1) => .next (as.foldl (fun s a => s.atomicLine i cas aop size (i.u.bits 0 2) a) s1)

def atomSizeOk (u : Fields) : Bool := u.bits 12 3 == 2 || u.bits 12 3 == 3

def atomForm (u : Fields) : Form :=
  memForm u [.t u.d.toNat (sizeRegs (u.bits 12 3)), .t u.c.toNat (sizeRegs (u.bits 12 3))]
    (u.onlyBits 0x72F3 && atomSizeOk u && decide (u.bits 4 4 ≤ 9) && (u.bits 4 4 != 9 || u.bits 12 3 == 2)) .write

/-- ATOM. -/
def execAtom (g : GroupRef) (u : Fields) (s : State) : Host.Outcome State Fault Refusal :=
  .next (s.issue (inst g u) (atomForm u) fun s => s.atomicAct (inst g u) false (u.bits 4 4))

def atomCasForm (u : Fields) : Form :=
  memForm u [.t u.d.toNat (sizeRegs (u.bits 12 3)), .t u.c.toNat (sizeRegs (u.bits 12 3))] (u.onlyBits 0x7203 && atomSizeOk u) .write

/-- ATOM.CAS. -/
def execAtomCas (g : GroupRef) (u : Fields) (s : State) : Host.Outcome State Fault Refusal :=
  .next (s.issue (inst g u) (atomCasForm u) fun s => s.atomicAct (inst g u) true 0)

/-! Reduction-to-line (R134). -/

def redTypeOf (n : Nat) : RedType := match n with | 0 => .fp32 | 1 => .bf16 | _ => .int32

/-- Combine the lanes of a line that name the same element, in lane order; BF16 accumulates in FP32. -/
def State.redElems (s : State) (i : Inst) (op : RedOp) (type : RedType) (a : LineAcc) : List (Nat × Word) :=
  a.lanes.foldl (fun acc l =>
    let x := (s.grp i).getT l.1 i.u.c.toNat
    let v := if type == .bf16 then bf16To32 (x.toNat % 2 ^ 16) else x
    if acc.any fun e => e.1 == l.2 then acc.map fun e => if e.1 == l.2 then (e.1, redCombine op type e.2 v) else e
    else acc ++ [(l.2, v)]) []

def redForm (u : Fields) (op : RedOp) : Form :=
  { slots := [.zero u.d.toNat, .t u.a.toNat (if u.bit 9 then 2 else 1), .uSrc u.b.toNat, .t u.c.toNat 1],
    ok := u.onlyBits 0xA33 && decide (u.bits 4 2 ≤ 2) && (u.bits 4 2 != 1 || op == .add), access := .write }

/-- The three reductions. -/
def State.redIssue (s : State) (i : Inst) (op : RedOp) : State :=
  s.collective i (redForm i.u op) 9 (i.u.bit 11) fun s m =>
    let type := redTypeOf (i.u.bits 4 2)
    match s.accesses i .reduce (redSize type) m with
    | (.inl f, s1) => s1.failed i f
    | (.inr as, s1) => .next (as.foldl (fun s a =>
        let s1 := s.flushEntry i.c a.target
        s1.send (s1.vecReq i a.target (i.u.bits 0 2) (.reduce op type (s.redElems i op type a)))) s1)

def execRedAdd (g : GroupRef) (u : Fields) (s : State) : Host.Outcome State Fault Refusal := .next (s.redIssue (inst g u) .add)
def execRedMax (g : GroupRef) (u : Fields) (s : State) : Host.Outcome State Fault Refusal := .next (s.redIssue (inst g u) .max)
def execRedMin (g : GroupRef) (u : Fields) (s : State) : Host.Outcome State Fault Refusal := .next (s.redIssue (inst g u) .min)

/-! Cache operations (R133, R171, R214, R215). -/

def cacheOpForm (u : Fields) (access : Access) : Form :=
  { slots := [.zero u.d.toNat, .uSrc u.a.toNat, .uSrc u.b.toNat, .zero u.c.toNat], ok := u.mod == 0 && u.ext.isNone, access }

/-- Virtual line addresses of a range, extended outward; addresses wrap at 2^64 (R130). -/
def rangeLines (a n : Nat) : List Nat := (List.range ((a + n + 127) / 128 - a / 128)).map fun j => (a / 128 + j) * 128 % 2 ^ 64

/-- One line of a cache operation: a buffered entry leaves first, CINV drops the line from the core's L1; lines of host
memory are skipped. -/
def State.rangeLine (s : State) (i : Inst) (op : RangeOp) (t : Target) : State :=
  let s1 := s.flushEntry i.c t
  let s2 := if op = .invalidate then s1.updCore i.c fun k => { k with l1 := k.l1.filter fun x => x.line != l1Key t.kind t.addr } else s1
  if t.kind = .module then s2.send (s2.vecReq i t 0 (.range op)) else s2

/-- CPREF takes the lines that it may fetch and skips every other (R215). -/
def State.prefetchAct (s : State) (i : Inst) (lines : List Nat) : State :=
  lines.foldl (fun s va =>
    match s.compute i.c va .load with
    | (.inl t, s1) => if t.type == .device || t.kind != .module then s1 else s1.rangeLine i .prefetch t
    | (.inr _, s1) => s1) s

/-- CFLUSH, CINV and CDISC: every line is checked before one is acted on (R562). -/
def State.rangeOpAct (s : State) (i : Inst) (op : RangeOp) (use : Use) (lines : List Nat) : Effect :=
  match s.checkLines i.c use 1 (lines.map fun va => (0, va)) (lines.map (· / 128)) with
  | (.inl f, s1) => s1.failed i f
  | (.inr ts, s1) => .next (ts.foldl (fun s t => s.rangeLine i op t.2) s1)

/-- A cache operation after its decode checks: its length, then its lines. -/
def State.cacheOp (s : State) (i : Inst) (op : RangeOp) : State :=
  s.onceIssue i (cacheOpForm i.u (if op = .prefetch then .read else .write)) fun s =>
    let a := (s.uVal i i.u.a.toNat).toNat
    let n := (s.uVal i i.u.b.toNat).toNat
    if 65536 < n then .fault s (s.instFault i fkIllegal 2 0 0)
    else if n = 0 then .next s
    else if op = .discard && (a % 128 != 0 || n % 128 != 0) then .fault s (s.instFault i fkMisaligned 0 0 a)
    else match op with
    | .prefetch => .next (s.prefetchAct i (rangeLines a n))
    | .discard => s.rangeOpAct i op .discard (rangeLines a n)
    | _ => s.rangeOpAct i op .flush (rangeLines a n)

def execCpref (g : GroupRef) (u : Fields) (s : State) : Host.Outcome State Fault Refusal := .next (s.cacheOp (inst g u) .prefetch)
def execCflush (g : GroupRef) (u : Fields) (s : State) : Host.Outcome State Fault Refusal := .next (s.cacheOp (inst g u) .flush)
def execCinv (g : GroupRef) (u : Fields) (s : State) : Host.Outcome State Fault Refusal := .next (s.cacheOp (inst g u) .invalidate)
def execCdisc (g : GroupRef) (u : Fields) (s : State) : Host.Outcome State Fault Refusal := .next (s.cacheOp (inst g u) .discard)

/-! Reservations (R139, R175). -/

/-- The one access of LDRES or STCOND. -/
def State.uniformAccess (s : State) (i : Inst) (use : Use) (size : Nat) : (Failed ⊕ Target × Nat) × State :=
  let va := (s.uVal i i.u.b.toNat).toNat
  if va % sizeBytes size != 0 then (.inl (fkMisaligned, 0, va), s)
  else match s.compute i.c va use with
  | (.inl t, s1) => (.inr ({ t with addr := lineOf t.addr }, va % 128), s1)
  | (.inr f, s1) => (.inl (f.1, f.2, va), s1)

def ldresForm (u : Fields) : Form :=
  { slots := [.uDst u.d.toNat, .zero u.a.toNat, .uSrc u.b.toNat, .zero u.c.toNat],
    ok := u.onlyBits 0x7000 && atomSizeOk u && u.ext.isNone, access := .read }

/-- LDRES. -/
def execLdres (g : GroupRef) (u : Fields) (s : State) : Host.Outcome State Fault Refusal :=
  .next (s.onceIssue (inst g u) (ldresForm u) fun s =>
    let i := inst g u
    match s.uniformAccess i .ldres (u.bits 12 3) with
    | (.inl f, s1) => s1.failed i f
    | (.inr (t, off), s1) =>
      let granule := match s1.ctxById (s1.core i.c).context with | some x => x.granule | none => 0
      let s2 := s1.flushEntry i.c t
      .next (s2.send (s2.vecReq i t 0 (.ldres (u.bits 12 3) u.d.toNat off granule))))

def stcondForm (u : Fields) : Form :=
  { slots := [.p u.d.toNat, .zero u.a.toNat, .uSrc u.b.toNat, .uSrc u.c.toNat],
    ok := u.onlyBits 0x7000 && atomSizeOk u && u.ext.isNone, access := .write }

/-- STCOND. -/
def execStcond (g : GroupRef) (u : Fields) (s : State) : Host.Outcome State Fault Refusal :=
  .next (s.onceIssue (inst g u) (stcondForm u) fun s =>
    let i := inst g u
    match s.uniformAccess i .stcond (u.bits 12 3) with
    | (.inl f, s1) => s1.failed i f
    | (.inr (t, off), s1) =>
      let s2 := s1.flushEntry i.c t
      .next (s2.send (s2.vecReq i t 0 (.stcond (u.bits 12 3) off u.d.toNat (s2.uVal i u.c.toNat)))))

/-! LDK (R122): the constant pool, through the read-only L1, by device physical address (R291). -/

def ldkForm (u : Fields) : Form :=
  { slots := [.uDst u.d.toNat, .uSrc u.a.toNat, .zero u.b.toNat, .zero u.c.toNat], ok := u.ext.isNone, access := .read, engine := .s }

def execLdk (g : GroupRef) (u : Fields) (s : State) : Host.Outcome State Fault Refusal :=
  .next (s.onceIssue (inst g u) (ldkForm u) fun s =>
    let i := inst g u
    let k := s.core i.c
    let off := (s.uVal i u.a.toNat + 8 * u.mod.signExtend 64).toNat
    if off % 8 != 0 then .fault s (s.instFault i fkMisaligned 0 0 off)
    else if k.kernel.poolBytes ≤ off then .fault s (s.instFault i fkPermission 0 0 off)
    else
      let pa := k.kernelBase + k.kernel.poolOff + off
      match k.l1.find? fun x => x.line == l1Key .module (lineOf pa) with
      | some x =>
        let s1 := (s.updCore i.c fun k => k.count 0x148 1).fillL1 i.c (lineOf pa) x.bytes
        .next (s1.putU i u.d.toNat (BitVec.ofNat 64 (gather (fun o => x.bytes.getD o 0) (pa % 128) 8)))
      | none =>
        let s1 := s.updCore i.c fun k => k.count 0x150 1
        let r := s1.vecReq i { addr := lineOf pa, kind := .module, type := .normal, va := off } 0 (.ldk u.d.toNat (pa % 128))
        .next (s1.send { r with agent := .ldk i.c i.slot }))

end Sys2Proof.Machine
end

