-- ==== Sys2Proof/Machine/Dma.lean ====
section
/-!
DEFINITION. The DMA engine: descriptors, their movement of data and their range operations (R30, R136 to R138, R157, R163, R164,
R214, R215, R267, R269, R309).
-/
namespace Sys2Proof.Machine

/-! Descriptors. -/

/-- The descriptor that 64 bytes spell, none when R138 refuses it. -/
def dmaDesc (b : List Byte) : Option DmaDesc :=
  let op := fieldAt b 0 1
  let flags := fieldAt b 1 1
  let range := decide (3 ≤ op)
  let d : DmaDesc :=
    { op, srcTile := flags.testBit 0, dstTile := flags.testBit 1, ro := flags.testBit 2, tag := fieldAt b 2 1,
      rowBytes := fieldAt b 4 4, src := BitVec.ofNat 64 (fieldAt b 8 8), dst := BitVec.ofNat 64 (fieldAt b 16 8),
      rows := fieldAt b 24 4, srcStride := BitVec.ofNat 64 (fieldAt b 32 8), dstStride := BitVec.ofNat 64 (fieldAt b 40 8),
      fill := BitVec.ofNat 64 (fieldAt b 48 8) }
  let bad := op == 0 || decide (6 < op) || decide (8 ≤ flags) || !zeroAt b 3 1 || !zeroAt b 0x1C 4 || !zeroAt b 0x38 8 ||
    (range && (d.srcTile || d.dstTile || d.dst != 0)) ||
    (op == 6 && (d.src.toNat % 128 != 0 || d.rowBytes % 128 != 0 || d.srcStride.toNat % 128 != 0))
  if bad then none else some d

/-- Bytes that a descriptor moves or acts on. -/
def DmaDesc.total (d : DmaDesc) : Nat := d.rows * d.rowBytes
def DmaDesc.range (d : DmaDesc) : Bool := 3 ≤ d.op
/-- Address of byte `k` on either side. -/
def DmaDesc.srcAt (d : DmaDesc) (k : Nat) : Nat := (d.src.toNat + k / d.rowBytes * d.srcStride.toNat + k % d.rowBytes) % 2 ^ 64
def DmaDesc.dstAt (d : DmaDesc) (k : Nat) : Nat := (d.dst.toNat + k / d.rowBytes * d.dstStride.toNat + k % d.rowBytes) % 2 ^ 64
def DmaDesc.writesMem (d : DmaDesc) : Bool := d.op == 6 || (!d.range && !d.dstTile)

/-- What a descriptor touches: tile or not, first byte, end, written. Spans that wrap cover everything. -/
def dmaSpan (tile write : Bool) (base stride : DWord) (d : DmaDesc) : Bool × Nat × Nat × Bool :=
  let top := base.toNat + (d.rows - 1) * stride.toNat + d.rowBytes
  if 2 ^ 64 < top then (tile, 0, 2 ^ 64, write) else (tile, base.toNat / 128 * 128, (top + 127) / 128 * 128, write)
def DmaDesc.spans (d : DmaDesc) : List (Bool × Nat × Nat × Bool) :=
  (if d.op == 2 then [] else [dmaSpan d.srcTile d.range d.src d.srcStride d]) ++
  (if d.range then [] else [dmaSpan d.dstTile true d.dst d.dstStride d])

/-- Two descriptors touch one byte, and one of them writes it (R157). -/
def DmaDesc.conflicts (a b : DmaDesc) : Bool :=
  a.total != 0 && b.total != 0 && a.spans.any fun x => b.spans.any fun y =>
    x.1 == y.1 && decide (x.2.1 < y.2.2.1) && decide (y.2.1 < x.2.2.1) && (x.2.2.2 || y.2.2.2)

/-! Issue (R136, R138). -/

def dmaIssueForm (u : Fields) : Form :=
  { slots := [.zero u.d.toNat, .uSrc u.a.toNat, .zero u.b.toNat, .zero u.c.toNat], ok := u.mod == 0 && u.ext.isNone, access := .write, engine := .d }

/-- DMA.ISSUE copies the descriptor into the queue. -/
def execDmaIssue (g : GroupRef) (u : Fields) (s : State) : Host.Outcome State Fault Refusal :=
  .next (s.onceIssue (inst g u) (dmaIssueForm u) fun s =>
    let i := inst g u
    let k := s.core i.c
    let a := (s.uVal i u.a.toNat).toNat
    if a % 64 != 0 then .fault s (s.instFault i fkMisaligned 0 0 a)
    else if k.T < a + 64 then .fault s (s.instFault i fkPermission 1 0 a)
    else match dmaDesc (SMap.getBytes k.tile a 64) with
    | none => .fault s (s.instFault i fkIllegal 2 0 0)
    | some d =>
      if 16 ≤ k.dmaQ.length then .stall
      else
        let st := (s.grp i).site i.slot k
        let e : DmaEntry := { uid := k.nextUid, work := .desc d, taken := 0, stall := none, slot := i.slot, pc := st.pc,
                              active := st.active, live := st.live }
        .next (s.updCore i.c fun k => { k with dmaQ := k.dmaQ ++ [e], nextUid := k.nextUid + 1 }))

/-! Places on the DMA path (R292, R300, R303). -/

/-- What the translation of one address meets. -/
inductive DmaPlace where
  | at (t : Target)
  /-- No permitted leaf is cached or pinned. -/
  | miss
  | fault (kind cause : Nat)
deriving DecidableEq, Repr

def State.dmaPlace (s : State) (c va : Nat) (write pinnedOnly : Bool) : DmaPlace × State :=
  let ctx := (s.core c).context
  match s.lookup c true ctx va with
  | (none, s1) => (if s1.canonical ctx va then .miss else .fault fkTranslation 1, s1)
  | (some e, s1) =>
    let type := s1.typeOf ctx e
    let readOnly := match s1.windowAt ctx va with | some w => !w.writable | none => false
    if pinnedOnly && !e.pinned then (.miss, s1)
    else if write && e.pinned && (readOnly || !e.writable) then (.fault fkPermission 0, s1)
    else if write && !e.writable then (.miss, s1)
    else if type == .reserved then (.fault fkPermission 0, s1)
    else (.at { addr := e.addr va, kind := e.kind, type, va }, s1)

def Target.tier3 (t : Target) : Bool := t.kind == .module && addrClass t.addr == .tier3

/-- The outcome of taking up bytes: how far, and why it stopped. -/
inductive DmaStop where
  | no
  | miss (va : Nat) (write : Bool)
  | fault (kind detail cause addr : Nat)
deriving DecidableEq, Repr

/-- Cut `n` bytes from `va` on at line boundaries. -/
def cutLines : Nat → Nat → Nat → List (Nat × Nat)
  | 0, _, _ => []
  | f + 1, va, n => if n = 0 then [] else
      let m := Nat.min n (128 - va % 128)
      (va, m) :: cutLines f ((va + m) % 2 ^ 64) (n - m)

/-- Translate each of the pieces. -/
def State.dmaPlaces (s : State) (c : Nat) (write : Bool) : List (Nat × Nat) → (DmaStop ⊕ List (Target × Nat)) × State
  | [] => (.inr [], s)
  | (va, n) :: rest =>
    match s.dmaPlace c va write false with
    | (.miss, s1) => (.inl (.miss va write), s1)
    | (.fault k x, s1) => (.inl (.fault k 0 x va), s1)
    | (.at t, s1) =>
      match s1.dmaPlaces c write rest with
      | (.inr ts, s2) => (.inr ((t, n) :: ts), s2)
      | r => r

/-- A request of a descriptor. -/
def State.dmaReq (s : State) (c : Nat) (e : DmaEntry) (d : DmaDesc) (t : Target) (op : ReqOp) : Req :=
  let k := s.core c
  { id := 0, agent := .dma c e.uid, tag := d.tag, part := k.partition, ctx := k.context, type := t.type, kind := t.kind,
    addr := lineOf t.addr, op, place := .home, lc := s.lcCore k, waited := 0, va := t.va,
    site := { slot := e.slot, pc := e.pc, active := e.active, live := e.live } }

/-- A request goes to a flash controller (R270). -/
def State.sendFlash (s : State) (r : Req) : State := s.addReq { r with place := .flash }

/-- The bytes of FILL at a destination address (R137). -/
def DmaDesc.fillBytes (d : DmaDesc) (va n : Nat) : List Byte := (List.range n).map fun j => BitVec.ofNat 8 (bitsOf d.fill.toNat (8 * ((va + j) % 8)) 8)

/-- Write known bytes to memory, line by line. -/
def State.dmaWrites (s : State) (c : Nat) (e : DmaEntry) (d : DmaDesc) : List Byte → List (Target × Nat) → State
  | _, [] => s
  | bytes, (t, n) :: rest =>
    let now : List (Nat × Byte) := (bytes.take n).zipIdx.map fun b => (t.addr % 128 + b.2, b.1)
    (s.send (s.dmaReq c e d t (.write now))).dmaWrites c e d (bytes.drop n) rest

/-- Write known bytes to where a piece goes: tile memory, a page of Tier 3, or lines. -/
def State.dmaPut (s : State) (c : Nat) (e : DmaEntry) (d : DmaDesc) (k : Nat) (bytes : List Byte) (dst : List (Target × Nat)) : State :=
  match dst with
  | [] => s.updCore c fun x => { x with tile := SMap.putBytes x.tile (d.dstAt k) bytes }
  | (t, _) :: _ =>
    if t.tier3 then s.sendFlash (s.dmaReq c e d t (.write (bytes.zipIdx.map fun b => (b.2, b.1))))
    else s.dmaWrites c e d bytes dst

/-- Read the source lines of a piece, each to its part of the destination. -/
def State.dmaReads (s : State) (c : Nat) (e : DmaEntry) (d : DmaDesc) (ndl : Bool) (dest : Nat → DmaDest) : Nat → List (Target × Nat) → State
  | _, [] => s
  | done, (t, n) :: rest =>
    (s.send (s.dmaReq c e d t (.dmaRead (t.addr % 128) n (dest done) ndl))).dmaReads c e d ndl dest (done + n) rest

/-- A row that may take the needle path (R267). -/
def DmaDesc.needleRow (d : DmaDesc) (va : Nat) : Bool :=
  decide (4 ≤ d.rowBytes) && decide (d.rowBytes ≤ 32) && d.rowBytes % 4 == 0 && va / 32 == (va + d.rowBytes - 1) / 32

/-- The Tier 3 conditions of R269. -/
def tier3Fault (d : DmaDesc) (src dst : Option Target) : Option Nat :=
  let onSrc := match src with | some t => t.tier3 | none => false
  let onDst := match dst with | some t => t.tier3 | none => false
  let bad := fun (t : Option Target) (stride : DWord) =>
    match t with | some t => t.addr % 16384 != 0 || d.rowBytes % 16384 != 0 || stride.toNat % 16384 != 0 | none => false
  if (onSrc && bad src d.srcStride) || (onDst && bad dst d.dstStride) then some fkMisaligned
  else if onSrc && onDst then some fkPermission
  else none

/-- Take up one piece of a COPY or FILL at byte `k`: how many bytes, and why it stopped. -/
def State.dmaPiece (s : State) (c : Nat) (e : DmaEntry) (d : DmaDesc) (k : Nat) : Nat × DmaStop × State :=
  let T := (s.core c).T
  let sa := d.srcAt k
  let da := d.dstAt k
  let left := d.rowBytes - k % d.rowBytes
  let hasSrc := d.op == 1
  let one := fun (s : State) (tile : Bool) (va : Nat) (write : Bool) =>
    if tile then ((.inr none : DmaStop ⊕ Option Target), s)
    else match s.dmaPlace c va write false with
      | (.at t, s1) => (.inr (some t), s1)
      | (.miss, s1) => (.inl (.miss va write), s1)
      | (.fault kk x, s1) => (.inl (.fault kk 0 x va), s1)
  match one s (!hasSrc || d.srcTile) sa false with
  | (.inl x, s1) => (0, x, s1)
  | (.inr src, s1) =>
    match one s1 d.dstTile da true with
    | (.inl x, s2) => (0, x, s2)
    | (.inr dst, s2) =>
      match tier3Fault d src dst with
      | some kk => (0, .fault kk 0 0 (if (match src with | some t => t.tier3 | none => false) then sa else da), s2)
      | none =>
        let flash := (match src with | some t => t.tier3 | none => false) || (match dst with | some t => t.tier3 | none => false)
        let n :=
          if flash then Nat.min left 16384
          else if src.isSome then Nat.min left (128 - sa % 128)
          else if dst.isSome then Nat.min left (128 - da % 128)
          else left
        if hasSrc && d.srcTile && T < sa + n then (0, .fault fkPermission 1 0 sa, s2)
        else if d.dstTile && T < da + n then (0, .fault fkPermission 1 0 da, s2)
        else match (if src.isSome then s2.dmaPlaces c false (cutLines n sa n) else (.inr [], s2)) with
        | (.inl x, s3) => (0, x, s3)
        | (.inr srcs, s3) =>
          match (if dst.isSome then s3.dmaPlaces c true (cutLines n da n) else (.inr [], s3)) with
          | (.inl x, s4) => (0, x, s4)
          | (.inr dsts, s4) =>
            let dstFlash := match dst with | some t => t.tier3 | none => false
            let out :=
              if !hasSrc then s4.dmaPut c e d k (d.fillBytes da n) dsts
              else match src with
              | none => s4.dmaPut c e d k (SMap.getBytes (s4.core c).tile sa n) dsts
              | some t =>
                let dest := fun (done : Nat) =>
                  if d.dstTile then DmaDest.tile (da + done)
                  else DmaDest.lines (dsts.map fun x => (x.1.addr, x.1.va, x.1.kind, x.1.type, x.2))
                if t.tier3 then s4.sendFlash (s4.dmaReq c e d t (.dmaRead 0 n (dest 0) false))
                else if dstFlash then
                  let rid := s4.fab.nextReq
                  (s4.sendFlash (s4.dmaReq c e d (dst.getD t) (.write []))).dmaReads c e d false (fun done => .gather rid done) 0 srcs
                else s4.dmaReads c e d (d.needleRow sa) dest 0 srcs
            (n, .no, out)

/-- Take up one line of a range operation at byte `k`. -/
def State.dmaRangePiece (s : State) (c : Nat) (e : DmaEntry) (d : DmaDesc) (op : RangeOp) (k : Nat) : Nat × DmaStop × State :=
  let va := d.srcAt k
  let n := Nat.min (d.rowBytes - k % d.rowBytes) (128 - va % 128)
  match s.dmaPlace c va (op == .discard) (op == .prefetch) with
  | (.miss, s1) => if op == .prefetch then (n, .no, s1) else (0, .miss va (op == .discard), s1)
  | (.fault kk x, s1) => if op == .prefetch then (n, .no, s1) else (0, .fault kk 0 x va, s1)
  | (.at t, s1) =>
    if t.tier3 then (if op == .discard then (0, .fault fkPermission 0 0 va, s1) else (n, .no, s1))
    else if t.kind != .module || (op == .prefetch && t.type == .device) then (n, .no, s1)
    else (n, .no, s1.send (s1.dmaReq c e d t (.range op)))

/-- Go on from byte `k` until the descriptor is taken up, or stops. -/
def State.dmaRun (piece : State → Nat → Nat × DmaStop × State) (total : Nat) : Nat → State → Nat → Nat × DmaStop × State
  | 0, s, k => (k, .no, s)
  | f + 1, s, k =>
    if total ≤ k then (k, .no, s)
    else match piece s k with
      | (n, .no, s1) => State.dmaRun piece total f s1 (k + n)
      | (_, x, s1) => (k, x, s1)

/-! The queue. -/

/-- The entries before position `i` let the entry there act: no TOK.WAIT and no TOK.SET at 63 stands before it (R62, R63). -/
def Core.dmaOpen (k : Core) (earlier : List DmaEntry) : Bool :=
  !earlier.zipIdx.any fun x => match x.1.work with
    | .tokWait _ => true
    | .tokSet n => SMap.get 0 (k.group x.1.slot).tokens n == 63 && !(earlier.take x.2).any fun y => y.slot == x.1.slot
    | .desc _ => false

/-- Reads of a descriptor that have not returned. -/
def State.dmaReading (s : State) (c uid : Nat) : Bool :=
  s.fab.reqs.any fun r => r.agent == .dma c uid && (match r.op with | .dmaRead _ _ _ _ => true | _ => false)

/-- An earlier entry holds a descriptor back: one byte in common, or writes of one tag in order (R157, R163, R164). -/
def State.dmaHeld (s : State) (c : Nat) (d : DmaDesc) (x : DmaEntry) : Bool :=
  match x.work with
  | .desc y => y.conflicts d ||
      (y.tag == d.tag && y.writesMem && d.writesMem && (decide (x.taken < y.total) || s.dmaReading c x.uid))
  | _ => false

/-- A row for the translation that a descriptor waits for (R309). -/
def State.openRow (s : State) (c : Nat) (e : DmaEntry) (va : Nat) (write : Bool) : State :=
  let n := s.xlat.nextRow
  let ctx := (s.core c).context
  let row : XRow := { dma := some (c, e.uid), pin := none, ctx, va, write, state := .translate, asked := false, skip := 0 }
  let s1 := { s with xlat := { s.xlat with rows := SMap.set none s.xlat.rows n (some row), nextRow := n + 1 } }
  let s2 := s1.updCore c fun k => { k with dmaQ := k.dmaQ.map fun x => if x.uid = e.uid then { x with stall := some n } else x }
  match s2.ctxById ctx with
  | some x => if x.ats then (s2.xlatCount (c / 80) 0x130 1).emit (.translationRequest x.fn x.pasid va write) else s2
  | none => s2

/-- The DMA engine performs the descriptor at position `i`, when its operation is `op`. -/
def State.dmaPerform (s : State) (c i op : Nat) (piece : State → DmaEntry → DmaDesc → Nat → Nat × DmaStop × State) : State :=
  let k := s.core c
  match k.dmaQ[i]? with
  | some e =>
    match e.work with
    | .desc d =>
      let earlier := k.dmaQ.take i
      if !(k.live && d.op == op && e.stall.isNone && k.dmaOpen earlier) || earlier.any (s.dmaHeld c d) then s
      else
        let r := State.dmaRun (fun s b => piece s e d b) d.total (d.total - e.taken) s e.taken
        let s1 := r.2.2.updCore c fun k => { k with dmaQ := k.dmaQ.map fun x => if x.uid = e.uid then { x with taken := r.1 } else x }
        match r.2.1 with
        | .no => s1
        | .miss va write => s1.openRow c e va write
        | .fault kind detail cause addr =>
          s1.takeFault { core := c, ctx := k.context, part := k.partition, kind, detail, cause, addr,
                         site := { slot := e.slot, pc := e.pc, active := e.active, live := e.live } }
    | _ => s
  | none => s

def execDmaCopy (c : CoreIdx) (i : Fin 16) (s : State) : Host.Outcome State Fault Refusal :=
  .next (s.dmaPerform c i 1 fun s e d k => s.dmaPiece c e d k)
def execDmaFill (c : CoreIdx) (i : Fin 16) (s : State) : Host.Outcome State Fault Refusal :=
  .next (s.dmaPerform c i 2 fun s e d k => s.dmaPiece c e d k)
def execDmaPrefetch (c : CoreIdx) (i : Fin 16) (s : State) : Host.Outcome State Fault Refusal :=
  .next (s.dmaPerform c i 3 fun s e d k => s.dmaRangePiece c e d .prefetch k)
def execDmaFlush (c : CoreIdx) (i : Fin 16) (s : State) : Host.Outcome State Fault Refusal :=
  .next (s.dmaPerform c i 4 fun s e d k => s.dmaRangePiece c e d .flush k)
def execDmaInvalidate (c : CoreIdx) (i : Fin 16) (s : State) : Host.Outcome State Fault Refusal :=
  .next (s.dmaPerform c i 5 fun s e d k => s.dmaRangePiece c e d .invalidate k)
def execDmaDiscard (c : CoreIdx) (i : Fin 16) (s : State) : Host.Outcome State Fault Refusal :=
  .next (s.dmaPerform c i 6 fun s e d k => s.dmaRangePiece c e d .discard k)

/-- Requests of a queue entry that still count against it: all but those that only await the twin. -/
def State.dmaBusy (s : State) (c uid : Nat) : Bool := s.fab.reqs.any fun r => r.agent == .dma c uid && r.place != .twin

/-- DMA_DESCRIPTOR_COMPLETE: every byte is written, or the range operation performed (R136). -/
def execDmaDescriptorComplete (c : CoreIdx) (i : Fin 16) (s : State) : Host.Outcome State Fault Refusal :=
  let k := s.core c
  .next (match k.dmaQ[i.val]? with
  | some e =>
    match e.work with
    | .desc d =>
      if k.live && d.total ≤ e.taken && e.stall.isNone && k.dmaOpen (k.dmaQ.take i) && !s.dmaBusy c e.uid then
        s.setCore c { k with dmaQ := k.dmaQ.filter fun x => x.uid != e.uid }
      else s
    | _ => s
  | none => s)

end Sys2Proof.Machine
end

