-- ==== Sys2Proof/Machine/Barriers.lean ====
section
/-!
DEFINITION. Barriers: arrival, completion, and the waits that the watchdog counts (R57, R58, R60).
-/
namespace Sys2Proof.Machine

/-- Number of a wait of a group, the key of Group.waits. -/
def waitKey : WaitKind → Nat
  | .barGroup => 0
  | .barCore n => 1 + n.val
  | .tok .s => 17
  | .tok .v => 18
  | .tok .m => 19
  | .tok .d => 20

/-- Barrier of an arrival as a wait key. -/
def Arrival.key (a : Arrival) : Nat := match a.number with | none => 0 | some n => 1 + n

/-- Lanes at BAR.CORE `n`. -/
def Group.atBarrier (g : Group) (n : Nat) : Mask := (g.arrivals.filter fun a => a.number == some n).foldl (fun m a => m ||| a.mask) 0

/-- Release the arrivals that `p` names: their lanes go on after the barrier. -/
def Group.release (g : Group) (p : Arrival → Bool) : Group :=
  let out := g.arrivals.filter p
  let waits := out.foldl (fun w a => SMap.set 0 w a.key 0) g.waits
  Group.settle { g with arrivals := g.arrivals.filter (fun a => !p a), paths := out.map (fun a => (a.pc, a.mask)) ++ g.paths, waits }

/-- Complete a BAR.GROUP at which every live thread waits (R57). -/
def Group.barGroupDone (g : Group) : Group :=
  match g.arrivals.find? fun a => a.number == none && g.live != 0 && a.mask &&& g.live == g.live with
  | some a => g.release (· == a)
  | none => g

/-- Every resident thread is at BAR.CORE `n` or has exited, and one waits there (R58). -/
def Core.barCoreReady (k : Core) (n : Nat) : Bool :=
  (k.groups.all fun e => !e.2.occupied || e.2.live &&& e.2.atBarrier n == e.2.live) &&
  k.groups.any fun e => e.2.occupied && e.2.live &&& e.2.atBarrier n != 0

/-- Complete every barrier of a core that is complete. -/
def Core.barriers (k : Core) : Core :=
  let k1 := { k with groups := SMap.mapV {} k.groups fun _ g => if g.occupied then g.barGroupDone else g }
  (List.range 16).foldl (fun k n =>
    if k.barCoreReady n then
      { k with groups := SMap.mapV {} k.groups fun _ g => if g.occupied then g.release fun a => a.number == some n else g }
    else k) k1

def State.barriers (s : State) (c : Nat) : State := s.updCore c Core.barriers

/-- The active lanes of a mask arrive at a barrier and wait there; lanes already there at the same address join them. -/
def Group.arrive (g : Group) (number : Option Nat) (lanes : Mask) (next : DWord) : Group :=
  let same := fun (a : Arrival) => a.number == number && a.pc == next
  let old := (g.arrivals.filter same).foldl (fun m a => m ||| a.mask) 0
  { g with active := g.active &&& ~~~lanes, pc := next,
           arrivals := g.arrivals.filter (fun a => !same a) ++ [{ number, mask := old ||| lanes, pc := next }] }

end Sys2Proof.Machine
end

