-- ==== Sys2Proof/Machine/Matrix.lean ====
section
/-!
DEFINITION. The matrix engine: its instructions, planes, streams, numerics and drains (chapter 03, R135, R146).
-/
namespace Sys2Proof.Machine

/-! Formats (R73, R75, R76). -/

/-- Elements of a cell word (R73). -/
def kindP (kind : Nat) : Nat := match kind with | 0 => 1 | 1 => 1 | 4 => 4 | 5 => 4 | 7 => 4 | _ => 2
def kindBits (kind : Nat) : Nat := if kindP kind = 4 then 32 else 16
def kindRowBytes (kind : Nat) : Nat := 8 * kindBits kind

/-- How a streamed format is decoded. -/
inductive StreamElem where
  | float (f : FFmt)
  | int
deriving DecidableEq, Repr

/-- A format code beside a plane kind (R75): element width, elements per scale (0: none), scale bytes. -/
structure StreamFmt where
  elem  : StreamElem
  bits  : Nat
  block : Nat
  scale : Nat
deriving DecidableEq, Repr

def streamFmt (code : Nat) : Option StreamFmt :=
  match code with
  | 0x0 => some { elem := .float .bf16, bits := 16, block := 0, scale := 0 }
  | 0x1 => some { elem := .float .fp16, bits := 16, block := 0, scale := 0 }
  | 0x2 => some { elem := .float .e4m3, bits := 8, block := 0, scale := 0 }
  | 0x3 => some { elem := .float .e5m2, bits := 8, block := 0, scale := 0 }
  | 0x4 => some { elem := .float .e4m3, bits := 8, block := 32, scale := 1 }
  | 0x5 => some { elem := .float .e5m2, bits := 8, block := 32, scale := 1 }
  | 0x6 => some { elem := .float .e2m3, bits := 6, block := 32, scale := 1 }
  | 0x7 => some { elem := .float .e3m2, bits := 6, block := 32, scale := 1 }
  | 0x8 => some { elem := .float .e2m1, bits := 4, block := 32, scale := 1 }
  | 0x9 => some { elem := .int, bits := 8, block := 0, scale := 0 }
  | 0xA => some { elem := .int, bits := 4, block := 32, scale := 2 }
  | 0xB => some { elem := .int, bits := 4, block := 128, scale := 2 }
  | _ => none

/-- The pairs of R75. -/
def pairOk (code kind : Nat) : Bool :=
  match code with
  | 0x0 => kind == 0
  | 0x1 => kind == 1
  | 0x2 | 0x3 => kind == 0 || kind == 2 || kind == 3
  | 0x4 | 0x5 | 0x6 | 0x7 => kind == 2 || kind == 3
  | 0x8 => kind == 0 || kind == 4 || kind == 5
  | 0x9 => kind == 6
  | 0xA | 0xB => kind == 7
  | _ => false

/-- Bytes of a record: elements, then scales (R77). -/
def StreamFmt.elemBytes (f : StreamFmt) (kind : Nat) : Nat := 64 * kindP kind * f.bits / 8
def StreamFmt.recordBytes (f : StreamFmt) (kind : Nat) : Nat :=
  f.elemBytes kind + (if f.block = 0 then 0 else 64 * kindP kind / f.block * f.scale)

/-! Numerics (R92 to R94). -/

/-- Round to FP32; below the normal range a zero of the sign. -/
def r32 (v : FVal) : FVal := FFmt.fp32.decode (FFmt.fp32.pack 0 true v)

/-- A product: exact, but zero or infinite outside the FP32 normal range (R92). -/
def product (a b : FVal) : FVal :=
  match a.mul b with
  | .fin n m e =>
    if (FVal.fin false m e).cmp (.fin false 1 (-126)) = some .lt then .fin n 0 0
    else if (FVal.fin false m e).cmp (FFmt.fp32.decode FFmt.fp32.maxCode) = some .gt then .inf n
    else .fin n m e
  | v => v

/-- Add in pairs, level by level (R93 step 2). -/
def pairUp : List FVal → List FVal
  | a :: b :: r => r32 (FVal.add false a b) :: pairUp r
  | r => r
def treeSum (n : Nat) (xs : List FVal) : FVal :=
  match n with
  | 0 => xs.headD (.fin false 0 0)
  | n + 1 => treeSum n (pairUp xs)

/-- `k` consecutive lists of `n` elements. -/
def chunks {α : Type} (n : Nat) : Nat → List α → List (List α)
  | 0, _ => []
  | k + 1, xs => xs.take n :: chunks n k (xs.drop n)

/-- Element `j` of the word of a cell. -/
def planeElem (kind : Nat) (w : Word) (j : Nat) : FVal :=
  match kind with
  | 0 => FFmt.bf16.decode (w.toNat % 2 ^ 16)
  | 1 => FFmt.fp16.decode (w.toNat % 2 ^ 16)
  | 2 | 4 => FFmt.e4m3.decode (bitsOf w.toNat (8 * j) 8)
  | 3 | 5 => FFmt.e5m2.decode (bitsOf w.toNat (8 * j) 8)
  | _ => FVal.ofInt (signedOf 8 (bitsOf w.toNat (8 * j) 8))

/-- Element `e` of a record, given as one number (R77). -/
def StreamFmt.element (f : StreamFmt) (record e : Nat) : FVal :=
  let v := bitsOf record (e * f.bits) f.bits
  match f.elem with
  | .float g => g.decode v
  | .int => FVal.ofInt (signedOf f.bits v)

/-- Scale `j` of a record: E8M0 for MX, binary16 for INT4. -/
def StreamFmt.scaleVal (f : StreamFmt) (kind record j : Nat) : FVal :=
  let v := bitsOf record (8 * (f.elemBytes kind + f.scale * j)) (8 * f.scale)
  if f.scale = 2 then FFmt.fp16.decode v
  else if v = 255 then .nan else .fin false 1 ((v : Int) - 127)

/-- The result of one column for one record (R93). -/
def columnSum (f : StreamFmt) (kind : Nat) (word : Nat → Word) (record : Nat) : FVal :=
  let p := kindP kind
  let int := f.elem == .int
  let cell := fun (r : Nat) =>
    let ps := (List.range p).map fun j => product (planeElem kind (word r) j) (f.element record (p * r + j))
    let sum := ps.foldl (FVal.add false) (.fin true 0 0)
    if int || p = 1 then sum else r32 sum
  let cells := (List.range 64).map cell
  if f.block = 0 then
    if int then r32 (cells.foldl (FVal.add false) (.fin false 0 0)) else treeSum 6 cells
  else
    let rows := f.block / p
    let n := 64 / rows
    let roots := (chunks rows n cells).zipIdx.map fun b =>
      let inner := if int then r32 (b.1.foldl (FVal.add false) (.fin false 0 0)) else treeSum (Nat.log2 rows) b.1
      r32 (inner.mul (f.scaleVal kind record b.2))
    treeSum (Nat.log2 n) roots

/-! Instructions. -/

def mtxForm (u : Fields) (k : Core) (mask : Nat) (more : Bool) : Form :=
  { slots := [.zero u.d.toNat, .uSrc u.a.toNat, .uSrc u.b.toNat, .uSrc u.c.toNat],
    ok := k.kernel.usesMatrix && u.onlyBits mask && u.ext.isNone && more, access := .write, engine := .m }

/-- Every started-in-order MDRAIN takes its columns: all earlier entries have started (R84). -/
def snapDrains (acc : SMap Word) : List MtxEntry → List MtxEntry
  | [] => []
  | e :: rest =>
    if e.started then e :: snapDrains acc rest
    else match e.op with
      | .tokSet _ => e :: snapDrains acc rest
      | .drain ua ub _ _ =>
        let n := bitsOf ua.toNat 0 16
        let len := bitsOf ub.toNat 16 11 + 1
        let col := fun (i : Nat) => (bitsOf ub.toNat 0 11 + (bitsOf ub.toNat 32 11 + i) % len) % 2048
        { e with started := true, cols := (List.range n).map fun i => (i, (List.range 64).map fun m => SMap.get 0 acc (64 * col i + m)) }
          :: snapDrains acc rest
      | _ => e :: rest

def Core.snap (k : Core) : Core := { k with mtxQ := snapDrains k.acc k.mtxQ }

/-- A matrix instruction enters the queue with its operand values (R79), unless the queue is full (R30). -/
def State.mtxEnter (s : State) (i : Inst) (op : MtxOp) : Effect :=
  let k := s.core i.c
  let st := (s.grp i).site i.slot k
  if 16 ≤ k.mtxQ.length then .stall
  else
    let e : MtxEntry := { uid := k.nextUid, op, started := false, cols := [], slot := i.slot, pc := st.pc, active := st.active,
                          live := st.live }
    .next (s.updCore i.c fun k => Core.snap { k with mtxQ := k.mtxQ ++ [e], nextUid := k.nextUid + 1 })

/-- Issue of a matrix instruction: collective, on an enabled array, with sound operand values (R55, R68, R80). -/
def State.mtxIssue (s : State) (i : Inst) (f : Form) (sound : State → Bool) (op : State → MtxOp) : State :=
  s.collective i f 0xA false fun s _ =>
    if (s.core i.c).arrayOff then .fault s (s.instFault i fkIllegal 8 0 0)
    else if !sound s then .fault s (s.instFault i fkIllegal 2 0 0)
    else s.mtxEnter i (op s)

/-- Reserved bits of the operands of R79. -/
def strideOperandOk (v : DWord) : Bool := bitsOf v.toNat 48 16 == 0 && bitsOf v.toNat 21 11 == 0
def weightOperandOk (v : DWord) : Bool := bitsOf v.toNat 21 11 == 0
def accOperandOk (v : DWord) : Bool := bitsOf v.toNat 43 21 == 0 && bitsOf v.toNat 27 5 == 0 && bitsOf v.toNat 11 5 == 0
def countOperandOk (v : DWord) : Bool := v.toNat < 2 ^ 16

def mloadpForm (u : Fields) (k : Core) : Form :=
  { mtxForm u k 0x7800 (u.b == 0 && u.c == 0) with slots := [.zero u.d.toNat, .uSrc u.a.toNat] }

def execMloadp (g : GroupRef) (u : Fields) (s : State) : Host.Outcome State Fault Refusal :=
  .next (s.mtxIssue (inst g u) (mloadpForm u (s.core g.core))
    (fun s => strideOperandOk (s.uVal (inst g u) u.a.toNat))
    fun s => .load (s.uVal (inst g u) u.a.toNat) (u.bit 14) (u.bits 11 3))

/-- dfmt and ilv are not reserved values. -/
def drainModsOk (u : Fields) : Bool := decide (u.bits 4 3 ≤ 4) && decide (u.bits 2 2 ≤ 2)

def execMstream (g : GroupRef) (u : Fields) (s : State) : Host.Outcome State Fault Refusal :=
  let i := inst g u
  .next (s.mtxIssue i (mtxForm u (s.core g.core) 0x7FFC (drainModsOk u))
    (fun s => weightOperandOk (s.uVal i u.a.toNat) && accOperandOk (s.uVal i u.b.toNat) && strideOperandOk (s.uVal i u.c.toNat))
    fun s => .stream (s.uVal i u.a.toNat) (s.uVal i u.b.toNat) (s.uVal i u.c.toNat) u.mod)

def execMdrain (g : GroupRef) (u : Fields) (s : State) : Host.Outcome State Fault Refusal :=
  let i := inst g u
  .next (s.mtxIssue i (mtxForm u (s.core g.core) 0x087C (drainModsOk u))
    (fun s => countOperandOk (s.uVal i u.a.toNat) && accOperandOk (s.uVal i u.b.toNat) && strideOperandOk (s.uVal i u.c.toNat))
    fun s => .drain (s.uVal i u.a.toNat) (s.uVal i u.b.toNat) (s.uVal i u.c.toNat) u.mod)

/-! The queue (R62, R63, R84). -/

/-- A TOK.SET whose turn has come and whose token stands at 63 holds its engine. -/
def Core.mtxHolds (k : Core) (earlier : List MtxEntry) (e : MtxEntry) : Bool :=
  match e.op with
  | .tokSet n => !earlier.any (fun x => x.slot == e.slot) && SMap.get 0 (k.group e.slot).tokens n == 63
  | _ => false

/-- The next entry to start, in queue order, with the entries before it. -/
def Core.mtxNext (k : Core) : List MtxEntry → List MtxEntry → Option (List MtxEntry × MtxEntry)
  | _, [] => none
  | earlier, e :: rest =>
    if e.started then k.mtxNext (earlier ++ [e]) rest
    else match e.op with
      | .tokSet _ => if k.mtxHolds earlier e then none else k.mtxNext (earlier ++ [e]) rest
      | .load _ _ _ | .stream _ _ _ _ => some (earlier, e)
      | _ => none

def State.mtxFault (s : State) (c : Nat) (e : MtxEntry) (kind detail addr : Nat) : State :=
  let k := s.core c
  s.takeFault { core := c, ctx := k.context, part := k.partition, site := { slot := e.slot, pc := e.pc, active := e.active, live := e.live },
                kind, detail, addr }

def Core.setEntry (k : Core) (e : MtxEntry) : Core := { k with mtxQ := k.mtxQ.map fun x => if x.uid = e.uid then e else x }
def Core.dropEntry (k : Core) (e : MtxEntry) : Core := { k with mtxQ := k.mtxQ.filter fun x => x.uid != e.uid }

/-- What a row of accesses meets. -/
inductive Reach where
  | ok | misaligned (addr : Nat) | beyond (addr : Nat)
deriving DecidableEq, Repr

/-- An access of `len` bytes at `addr` of rows that begin at `base`, `stride` apart, in a tile memory of size `t` (R80). -/
def reach (t base stride addr len : Nat) : Reach :=
  if base % 4 != 0 || stride % 4 != 0 then .misaligned addr else if t < addr + len then .beyond addr else .ok

def State.mtxReach (s : State) (c : Nat) (e : MtxEntry) : Reach → State
  | .ok => s
  | .misaligned a => s.mtxFault c e fkMisaligned 0 a
  | .beyond a => s.mtxFault c e fkPermission 1 a

/-! Loads (R73, R79). -/

def Core.plane (k : Core) (p : Bool) : Plane := if p then k.plane1 else k.plane0
def Core.setPlane (k : Core) (p : Bool) (x : Plane) : Core := if p then { k with plane1 := x } else { k with plane0 := x }

/-- Write plane rows from `r` on, `n` of them, until one cannot be read. -/
def Core.loadRows (k : Core) (p : Bool) (src stride : Nat) : Nat → Nat → Core × Reach
  | _, 0 => (k, .ok)
  | r, n + 1 =>
    let pl := k.plane p
    let a := src + r * stride
    let rb := kindRowBytes pl.kind
    match reach k.T src stride a rb with
    | .ok =>
      let wb := kindBits pl.kind / 8
      let words := (List.range 64).foldl (fun w m =>
        SMap.set 0 w (64 * r + m) (BitVec.ofNat 32 (leNat (SMap.getBytes k.tile (a + wb * m) wb)))) pl.words
      ((k.setPlane p { pl with words }).count 0x320 1).loadRows p src stride (r + 1) n
    | x => (k, x)

/-- MATRIX_LOAD_START: the plane takes its kind and its rows (R84, R89). -/
def execMatrixLoadStart (c : CoreIdx) (s : State) : Host.Outcome State Fault Refusal :=
  let k := s.core c
  .next (match (if k.live then k.mtxNext [] k.mtxQ else none) with
  | some (_, e) =>
    match e.op with
    | .load ua p kind =>
      if k.mtxQ.any fun x => x.started && (match x.op with | .load _ _ _ => true | _ => false) then s
      else
        let k1 := (k.setEntry { e with started := true }).setPlane p { k.plane p with kind }
        let r := k1.loadRows p (bitsOf ua.toNat 0 21) (bitsOf ua.toNat 32 16) 0 64
        (s.setCore c r.1.snap).mtxReach c e r.2
    | _ => s
  | none => s)

/-- MATRIX_LOAD_COMPLETE (R85). -/
def execMatrixLoadComplete (c : CoreIdx) (s : State) : Host.Outcome State Fault Refusal :=
  let k := s.core c
  .next (match k.mtxQ.find? fun x => x.started && (match x.op with | .load _ _ _ => true | _ => false) with
  | some e =>
    match e.op with
    | .load _ p _ => s.setCore c ((k.dropEntry e).setPlane p { k.plane p with loaded := true })
    | _ => s
  | none => s)

/-! Streams (R81, R82). -/

/-- Accumulate the vectors of an MSTREAM from `i` on, `n` of them; with `last`, each column is passed to the drain. -/
def Core.streamVectors (k : Core) (e : MtxEntry) (f : StreamFmt) (p : Bool) (wsrc wstride : Nat) (col : Nat → Nat) (first last : Bool) :
    Nat → Nat → Core × MtxEntry × Reach
  | _, 0 => (k, e, .ok)
  | i, n + 1 =>
    let pl := k.plane p
    let a := wsrc + i * wstride
    let rb := f.recordBytes pl.kind
    match reach k.T wsrc wstride a rb with
    | .ok =>
      let record := leNat (SMap.getBytes k.tile a rb)
      let vals := (List.range 64).map fun m =>
        let y := columnSum f pl.kind (fun r => SMap.get 0 pl.words (64 * r + m)) record
        let old := FFmt.fp32.decode (SMap.get 0 k.acc (64 * col i + m)).toNat
        BitVec.ofNat 32 (FFmt.fp32.pack 0 true (if first then y else FVal.add false old y))
      let acc := vals.zipIdx.foldl (fun (x : SMap Word) (v : Word × Nat) => SMap.set 0 x (64 * col i + v.2) v.1) k.acc
      let k1 := { k with acc }.count 0x300 1
      k1.streamVectors (if last then { e with cols := e.cols ++ [(i, vals)] } else e) f p wsrc wstride col first last (i + 1) n
    | x => (k, e, x)

/-- MATRIX_STREAM_START: the checks of R75 and R80, then the vectors in order. -/
def execMatrixStreamStart (c : CoreIdx) (s : State) : Host.Outcome State Fault Refusal :=
  let k := s.core c
  .next (match (if k.live then k.mtxNext [] k.mtxQ else none) with
  | some (earlier, e) =>
    match e.op with
    | .stream ua ub _ mod =>
      let p := mod.getLsbD 14
      let kind := (k.plane p).kind
      let code := bitsOf mod.toNat 7 4
      if earlier.any fun x => (match x.op with | .load _ q _ => q == p | _ => false) then s
      else match (if pairOk code kind then streamFmt code else none) with
      | none => s.mtxFault c e fkIllegal 2 0
      | some f =>
        let wstride := bitsOf ua.toNat 32 16
        let n := bitsOf ua.toNat 48 16
        if wstride < f.recordBytes kind then s.mtxFault c e fkIllegal 2 0
        else if n = 0 then s.setCore c (k.dropEntry e).snap
        else
          let len := bitsOf ub.toNat 16 11 + 1
          let col := fun (i : Nat) => (bitsOf ub.toNat 0 11 + (bitsOf ub.toNat 32 11 + i) % len) % 2048
          let r := k.streamVectors { e with started := true } f p (bitsOf ua.toNat 0 21) wstride col (mod.getLsbD 13) (mod.getLsbD 12) 0 n
          (s.setCore c (r.1.setEntry r.2.1).snap).mtxReach c e r.2.2
    | _ => s
  | none => s)

/-! Drains (R83, R95). -/

def drainFmt (d : Nat) : FFmt := match d with | 0 => .fp32 | 1 => .bf16 | 2 => .fp16 | 3 => .e4m3 | _ => .e5m2

/-- Write drained columns to tile memory, in order, until one cannot be written. -/
def Core.drainCols (k : Core) (uc : DWord) (mod : BitVec 15) : List (Nat × List Word) → Core × Reach
  | [] => (k, .ok)
  | (i, vals) :: rest =>
    let f := drainFmt (bitsOf mod.toNat 4 3)
    let sat := mod.getLsbD 11
    let q := 2 ^ bitsOf mod.toNat 2 2
    let sz := (f.eb + f.mb + 1) / 8
    let dst := bitsOf uc.toNat 0 21
    let dstride := bitsOf uc.toNat 32 16
    let base := dst + i / q * dstride + i % q * sz
    let addr := fun (m : Nat) => base + m * q * sz
    match reach k.T dst dstride base (63 * q * sz + sz) with
    | .ok =>
      let outs : List (Nat × Bool) := vals.map fun v => f.convert sat (FFmt.fp32.decode v.toNat)
      let tile := outs.zipIdx.foldl (fun (t : SMap Byte) (o : (Nat × Bool) × Nat) => SMap.putBytes t (addr o.2) (leBytes sz o.1.1)) k.tile
      let nans := (outs.filter fun (o : Nat × Bool) => (f.decode o.1).isNan).length
      let sats := (outs.filter fun (o : Nat × Bool) => o.2).length
      let k1 : Core := { k with tile }
      (((k1.count 0x328 1).count 0x330 sats).count 0x338 nans).drainCols uc mod rest
    | x => (k, x)

/-- MATRIX_STREAM_COMPLETE: the first MSTREAM under way, once everything passed to the drain before it is written (R84, R85). How long the
array froze follows from timing that the model leaves out: the freeze counters grow by free values (assumption 3). -/
def execMatrixStreamComplete (c : CoreIdx) (s : State) : Host.Outcome State Fault Refusal :=
  let k := s.core c
  .next (match k.mtxQ.find? fun x => x.started && (match x.op with | .stream _ _ _ _ => true | .drain _ _ _ _ => true | _ => false) with
  | some e =>
    match e.op with
    | .stream _ _ uc mod =>
      let r := k.drainCols uc mod e.cols
      match r.2 with
      | .ok =>
        let feed := s.draw 32
        let drain := feed.2.draw 32
        drain.2.setCore c (((r.1.dropEntry e).count 0x308 feed.1.toNat).count 0x310 drain.1.toNat)
      | x => (s.setCore c r.1).mtxReach c e x
    | _ => s
  | none => s)

/-- MATRIX_DRAIN_COMPLETE: the first MDRAIN, once every earlier MSTREAM and MDRAIN is complete. -/
def execMatrixDrainComplete (c : CoreIdx) (s : State) : Host.Outcome State Fault Refusal :=
  let k := s.core c
  .next (match k.mtxQ.find? fun x => x.started && (match x.op with | .stream _ _ _ _ => true | .drain _ _ _ _ => true | _ => false) with
  | some e =>
    match e.op with
    | .drain _ _ uc mod =>
      let r := k.drainCols uc mod e.cols
      match r.2 with
      | .ok => s.setCore c (r.1.dropEntry e)
      | x => (s.setCore c r.1).mtxReach c e x
    | _ => s
  | none => s)

end Sys2Proof.Machine
end

