-- ==== Sys2Proof/Machine/Sync.lean ====
section
/-!
DEFINITION. Fences, barriers, engine tokens, the barrier watchdog, and the system instructions (R57 to R64, R139, R141, R142, R165
to R168).
-/
namespace Sys2Proof.Machine

/-! Fences. -/

def fenceForm (u : Fields) : Form :=
  { slots := [.zero u.d.toNat, .zero u.a.toNat, .zero u.b.toNat, .zero u.c.toNat],
    ok := u.onlyBits 0xF && decide (u.bits 0 2 ≤ 2) && u.ext.isNone, engine := .s }

/-- A request of a group of a core; a buffered line of several groups counts for each. -/
def Req.ofGroup (r : Req) (c slot : Nat) (buffered : Bool) : Bool :=
  match r.agent with
  | .vec d i => d == c && i == slot
  | .ldk d i => d == c && i == slot
  | .wbuf d only => buffered && d == c && (match only with | some i => i == slot | none => true)
  | _ => false

/-- Entries of the matrix and DMA queues that a group placed, tokens apart. -/
def Core.groupWork (k : Core) (slot : Nat) : List Nat :=
  (k.mtxQ.filter fun e => e.slot == slot && (match e.op with | .tokSet _ | .tokWait _ => false | _ => true)).map (·.uid) ++
  (k.dmaQ.filter fun e => e.slot == slot && (match e.work with | .desc _ => true | _ => false)).map (·.uid)

/-- FENCE: what it waits for is fixed, and with scope DEVICE or SYSTEM and kind RELEASE or FULL the group's buffered entries
leave (R165, R166). -/
def execFence (g : GroupRef) (u : Fields) (s : State) : Host.Outcome State Fault Refusal :=
  .next (s.onceIssue (inst g u) (fenceForm u) fun s =>
    let i := inst g u
    let scope := u.bits 2 2
    let kind := u.bits 0 2
    if (s.grp i).fence.isSome then .stall
    else
      let wide := decide (2 ≤ scope) && kind != 0
      let mine := if wide then (s.core i.c).wb.filter fun e => e.groups.contains i.slot else []
      let s1 := mine.foldl (fun s e => s.leaveWb i.c e) s
      let reqs := (s1.fab.reqs.filter fun r => r.ofGroup i.c i.slot wide).map (·.id)
      let f : FenceWait := { scope, kind, reqs, entries := (s1.core i.c).groupWork i.slot }
      .next (s1.setGrp i { s1.grp i with fence := some f }))

/-- What a fence waits for has been performed at its scope. -/
def State.fenceDone (s : State) (c : Nat) (f : FenceWait) : Bool :=
  !(s.fab.reqs.any fun r => (r.place != .twin || f.scope == 3) &&
      (f.reqs.contains r.id || (match r.agent with | .dma d uid => d == c && f.entries.contains uid | _ => false))) &&
  !(s.core c).mtxQ.any (fun e => f.entries.contains e.uid) && !(s.core c).dmaQ.any fun e => f.entries.contains e.uid

/-- FENCE_COMPLETE: later accesses proceed. -/
def execFenceComplete (g : GroupRef) (s : State) : Host.Outcome State Fault Refusal :=
  let x := (s.core g.core).group g.slot
  .next (match x.fence with
  | some f => if s.fenceDone g.core f then s.updCore g.core fun k => k.setGroup g.slot { x with fence := none } else s
  | none => s)

/-! Barriers. -/

/-- The group's earlier accesses are performed at CORE scope (R168). -/
def State.coreFenced (s : State) (i : Inst) : Bool :=
  !(s.fab.reqs.any fun r => r.ofGroup i.c i.slot false && r.place != .twin) && ((s.core i.c).groupWork i.slot).isEmpty

/-- Passing lanes arrive at a barrier. -/
def State.arriveAt (s : State) (i : Inst) (number : Option Nat) : Effect :=
  let g := s.grp i
  let m := g.passing i.u
  if m = 0 then .next s
  else if !s.coreFenced i then .stall
  else .jump ((s.setGrp i (g.arrive number m (g.pc + i.bytes)).settle).barriers i.c)

def execBarGroup (g : GroupRef) (u : Fields) (s : State) : Host.Outcome State Fault Refusal :=
  .next (s.issue (inst g u) (noOperands u) fun s => s.arriveAt (inst g u) none)

def barCoreForm (u : Fields) : Form :=
  { slots := [.zero u.d.toNat, .zero u.a.toNat, .zero u.b.toNat, .zero u.c.toNat], ok := u.onlyBits 0xF && u.ext.isNone, engine := .s }

def execBarCore (g : GroupRef) (u : Fields) (s : State) : Host.Outcome State Fault Refusal :=
  .next (s.issue (inst g u) (barCoreForm u) fun s => s.arriveAt (inst g u) (some (u.bits 0 4)))

/-! Tokens (R62, R63). -/

def engineOf (n : Nat) : Engine := match n with | 0 => .s | 1 => .v | 2 => .m | _ => .d

def tokForm (u : Fields) : Form :=
  { slots := [.zero u.d.toNat, .zero u.a.toNat, .zero u.b.toNat, .zero u.c.toNat],
    ok := u.onlyBits 0x3F && u.ext.isNone, engine := engineOf (u.bits 4 2) }

/-- A token instruction enters the matrix or DMA queue. -/
def State.queueToken (s : State) (i : Inst) (matrix isWait : Bool) (n : Nat) : Effect :=
  let k := s.core i.c
  let st := (s.grp i).site i.slot k
  if matrix then s.mtxEnter i (if isWait then .tokWait n else .tokSet n)
  else if 16 ≤ k.dmaQ.length then .stall
  else
    let e : DmaEntry := { uid := k.nextUid, work := if isWait then .tokWait n else .tokSet n, taken := 0, stall := none,
                          slot := i.slot, pc := st.pc, active := st.active, live := st.live }
    .next (s.updCore i.c fun k => { k with dmaQ := k.dmaQ ++ [e], nextUid := k.nextUid + 1 })

/-- TOK.SET enters its engine's stream. -/
def execTokSet (g : GroupRef) (u : Fields) (s : State) : Host.Outcome State Fault Refusal :=
  .next (s.onceIssue (inst g u) (tokForm u) fun s =>
    let i := inst g u
    let e := engineOf (u.bits 4 2)
    let n := u.bits 0 4
    match e with
    | .m => s.queueToken i true false n
    | .d => s.queueToken i false false n
    | _ =>
      let mine := fun (r : Req) => match r.agent with
        | .vec d j => e == .v && d == i.c && j == i.slot
        | .ldk d j => e == .s && d == i.c && j == i.slot
        | _ => false
      let reqs := (s.fab.reqs.filter mine).map (·.id)
      .next (s.setGrp i { s.grp i with sets := (s.grp i).sets ++ [{ engine := e, token := n, reqs }] }))

def Group.addToken (g : Group) (n : Nat) (d : Int) : Group :=
  let old : Nat := SMap.get 0 g.tokens n
  { g with tokens := SMap.set 0 g.tokens n ((old : Int) + d).toNat }

/-- The first TOK.SET of a slot in the matrix queue whose turn has come. -/
def Core.mtxSetReady (k : Core) (slot : Nat) : List MtxEntry → List MtxEntry → Option (MtxEntry × Nat)
  | _, [] => none
  | earlier, e :: rest =>
    match e.op with
    | .tokWait _ => none
    | .tokSet n =>
      if k.mtxHolds earlier e then none
      else if e.slot == slot && !earlier.any (fun x => x.slot == slot) then some (e, n)
      else k.mtxSetReady slot (earlier ++ [e]) rest
    | _ => k.mtxSetReady slot (earlier ++ [e]) rest

/-- The same in the DMA queue. -/
def Core.dmaSetReady (k : Core) (slot : Nat) : List DmaEntry → List DmaEntry → Option (DmaEntry × Nat)
  | _, [] => none
  | earlier, e :: rest =>
    match e.work with
    | .tokWait _ => none
    | .tokSet n =>
      if e.slot == slot && !earlier.any (fun x => x.slot == slot) then
        (if SMap.get 0 (k.group slot).tokens n == 63 then none else some (e, n))
      else k.dmaSetReady slot (earlier ++ [e]) rest
    | .desc _ => k.dmaSetReady slot (earlier ++ [e]) rest

/-- TOK_SET_TAKES_EFFECT: earlier instructions of the group in the engine have completed, and the count rises by one. -/
def execTokSetTakesEffect (g : GroupRef) (e : Engine) (s : State) : Host.Outcome State Fault Refusal :=
  let k := s.core g.core
  let x := k.group g.slot
  .next (match e with
  | .m =>
    match k.mtxSetReady g.slot [] k.mtxQ with
    | some (y, n) => s.setCore g.core (((k.dropEntry y).setGroup g.slot (x.addToken n 1)).snap)
    | none => s
  | .d =>
    match k.dmaSetReady g.slot [] k.dmaQ with
    | some (y, n) =>
      let k1 : Core := { k with dmaQ := k.dmaQ.filter fun z => z.uid != y.uid }
      s.setCore g.core (k1.setGroup g.slot (x.addToken n 1))
    | none => s
  | _ =>
    match x.sets.find? fun t => t.engine == e with
    | some t =>
      if (s.fab.reqs.any fun r => t.reqs.contains r.id) || SMap.get 0 x.tokens t.token == 63 then s
      else s.setCore g.core (k.setGroup g.slot ({ x with sets := x.sets.erase t }.addToken t.token 1))
    | none => s)

/-- TOK.WAIT blocks its engine until the count is at least 1. -/
def execTokWait (g : GroupRef) (u : Fields) (s : State) : Host.Outcome State Fault Refusal :=
  .next (s.onceIssue (inst g u) (tokForm u) fun s =>
    let i := inst g u
    let e := engineOf (u.bits 4 2)
    let n := u.bits 0 4
    match e with
    | .m => s.queueToken i true true n
    | .d => s.queueToken i false true n
    | _ =>
      let x := s.grp i
      if 1 ≤ SMap.get 0 x.tokens n then .next (s.setGrp i (x.addToken n (-1)))
      else .next (s.setGrp i { x with tokWaits := x.tokWaits ++ [(e, n, (x.site i.slot (s.core i.c)).pc)] }))

/-- The TOK.WAIT that blocks the matrix queue: everything before it has started. -/
def Core.mtxWaiting (k : Core) : List MtxEntry → List MtxEntry → Option (MtxEntry × Nat)
  | _, [] => none
  | earlier, e :: rest =>
    match e.op with
    | .tokWait n => some (e, n)
    | .tokSet _ => if k.mtxHolds earlier e then none else k.mtxWaiting (earlier ++ [e]) rest
    | _ => if e.started then k.mtxWaiting (earlier ++ [e]) rest else none

/-- The TOK.WAIT that blocks the DMA queue. -/
def Core.dmaWaiting (k : Core) : List DmaEntry → List DmaEntry → Option (DmaEntry × Nat)
  | _, [] => none
  | earlier, e :: rest =>
    match e.work with
    | .tokWait n => if k.dmaOpen earlier then some (e, n) else none
    | _ => k.dmaWaiting (earlier ++ [e]) rest

/-- TOK_WAIT_RELEASE: the blocked wait finds a count, lowers it and unblocks; its watchdog count starts over (R60). -/
def execTokWaitRelease (g : GroupRef) (e : Engine) (s : State) : Host.Outcome State Fault Refusal :=
  let k := s.core g.core
  let x := k.group g.slot
  let lower := fun (x : Group) (n : Nat) => ({ x with waits := SMap.set 0 x.waits (waitKey (.tok e)) 0 } : Group).addToken n (-1)
  .next (match e with
  | .m =>
    match k.mtxWaiting [] k.mtxQ with
    | some (y, n) =>
      if y.slot = g.slot && 1 ≤ SMap.get 0 x.tokens n then s.setCore g.core (((k.dropEntry y).setGroup g.slot (lower x n)).snap) else s
    | none => s
  | .d =>
    match k.dmaWaiting [] k.dmaQ with
    | some (y, n) =>
      if y.slot = g.slot && 1 ≤ SMap.get 0 x.tokens n then
        let k1 : Core := { k with dmaQ := k.dmaQ.filter fun z => z.uid != y.uid }
        s.setCore g.core (k1.setGroup g.slot (lower x n))
      else s
    | none => s
  | _ =>
    match x.tokWaits.find? fun w => w.1 == e with
    | some w =>
      if 1 ≤ SMap.get 0 x.tokens w.2.1 then
        s.setCore g.core (k.setGroup g.slot (lower { x with tokWaits := x.tokWaits.erase w } w.2.1))
      else s
    | none => s)

/-! The barrier watchdog (R60, R70). -/

/-- CORE_BAR_WATCHDOG as it acts. -/
def Core.watchLimit (k : Core) : Nat := if k.watchdog = 0 then 2 ^ 32 else Nat.max k.watchdog.toNat 1024

/-- An open wait of a group: the detail of R70 and the address of its instruction. -/
def Core.openWait (k : Core) (slot : Nat) (w : WaitKind) : Option (Nat × DWord) :=
  let x := k.group slot
  match w with
  | .barGroup => (x.arrivals.find? fun a => a.number == none).map fun a => (0, a.pc + 248)
  | .barCore n => (x.arrivals.find? fun a => a.number == some n.val).map fun a => (0x40 + n.val, a.pc + 248)
  | .tok .m => match k.mtxWaiting [] k.mtxQ with
    | some (e, n) => if e.slot = slot then some (0x80 + n, e.pc) else none
    | none => none
  | .tok .d => match k.dmaWaiting [] k.dmaQ with
    | some (e, n) => if e.slot = slot then some (0x80 + n, e.pc) else none
    | none => none
  | .tok e => (x.tokWaits.find? fun t => t.1 == e).map fun t => (0x80 + t.2.1, t.2.2)

/-- BARRIER_DEADLOCK: a wait has reached the limit. -/
def execBarrierDeadlock (g : GroupRef) (w : WaitKind) (s : State) : Host.Outcome State Fault Refusal :=
  let k := s.core g.core
  let x := k.group g.slot
  .next (match (if k.live && decide (k.watchLimit ≤ SMap.get 0 x.waits (waitKey w)) then k.openWait g.slot w else none) with
  | some (detail, pc) =>
    s.takeFault { core := g.core, ctx := k.context, part := k.partition, kind := fkDeadlock, detail,
                  site := { x.site g.slot k with pc := pc &&& 0xFFFFFFF8 } }
  | none => s)

/-! System instructions (R141, R142). -/

/-- Counters that CNTR reads. -/
def cntrOffset (n : Nat) : Bool := n % 8 == 0 && ((decide (0x100 ≤ n) && decide (n ≤ 0x150)) || (decide (0x300 ≤ n) && decide (n ≤ 0x340)))

def cntrForm (u : Fields) : Form :=
  { slots := [.uDst u.d.toNat, .zero u.a.toNat, .zero u.b.toNat, .zero u.c.toNat], ok := cntrOffset u.mod.toNat && u.ext.isNone, engine := .s }

def execCntr (g : GroupRef) (u : Fields) (s : State) : Host.Outcome State Fault Refusal :=
  .next (s.onceIssue (inst g u) (cntrForm u) fun s =>
    .next (s.putU (inst g u) u.d.toNat (SMap.get 0 (s.core g.core).counters u.mod.toNat)))

def merrForm (u : Fields) : Form :=
  { slots := [.uDst u.d.toNat, .zero u.a.toNat, .zero u.b.toNat, .zero u.c.toNat], ok := u.mod == 0 && u.ext.isNone, engine := .s }

def execMerr (g : GroupRef) (u : Fields) (s : State) : Host.Outcome State Fault Refusal :=
  .next (s.onceIssue (inst g u) (merrForm u) fun s =>
    .next (s.putU (inst g u) u.d.toNat (BitVec.ofNat 64 (s.dieTime (g.core.val / 80)))))

def rinseSetForm (u : Fields) (k : Core) : Form :=
  { slots := [.zero u.d.toNat, .uSrc u.a.toNat, .zero u.b.toNat, .zero u.c.toNat], ok := u.mod == 0 && u.ext.isNone,
    priv := k.kernel.priv, engine := .s }

def execRinseSet (g : GroupRef) (u : Fields) (s : State) : Host.Outcome State Fault Refusal :=
  .next (s.onceIssue (inst g u) (rinseSetForm u (s.core g.core)) fun s =>
    let n := (s.uVal (inst g u) u.a.toNat).toNat
    if 64 < n then .fault s (s.instFault (inst g u) fkIllegal 2 0 0)
    else .next (s.updCore g.core fun k => { k with rinse := some n }))

def rinseClrForm (u : Fields) (k : Core) : Form := { noOperands u with priv := k.kernel.priv }

def execRinseClr (g : GroupRef) (u : Fields) (s : State) : Host.Outcome State Fault Refusal :=
  .next (s.onceIssue (inst g u) (rinseClrForm u (s.core g.core)) fun s =>
    .next (s.updCore g.core fun k => { k with rinse := none }))

end Sys2Proof.Machine
end

