-- ==== Sys2Proof/Machine/Mesh.lean ====
section
/-!
DEFINITION. The scheduled mesh: MSEND and MRECV, the routers' slots, crossings and start (R140, R226 to R240).
-/
namespace Sys2Proof.Machine

/-! Routers and tables. -/

/-- Grid position of a core (R15, R16). -/
def coreX (c : Nat) : Nat := 10 * (c / 80 % 4) + 5 * (c % 80 / 40) + c % 40 % 5
def coreY (c : Nat) : Nat := 8 * (c / 320) + c % 40 / 5

/-- The neighbour of a core through port 0 N, 1 E, 2 S, 3 W. -/
def neighbour (c port : Nat) : Option Nat :=
  let x := coreX c
  let y := coreY c
  let near : Option CoreIdx := match port with
    | 0 => if y = 0 then none else coreAt x (y - 1)
    | 1 => coreAt (x + 1) y
    | 2 => coreAt x (y + 1)
    | _ => if x = 0 then none else coreAt (x - 1) y
  near.map fun c => c.val

def opposite (port : Nat) : Nat := (port + 2) % 4

/-- The port leads across a die edge to another die (R238). -/
def crossing (c port : Nat) : Bool := match neighbour c port with | some n => n / 80 != c / 80 | none => false

/-- Slots of a neighbour link (R226): 1, or 3 across the seam. -/
def linkSlots (c n : Nat) : Nat := if c / 40 = n / 40 then 1 else 3

/-- MESH_SLOTS as it acts. -/
def Router.length (r : Router) : Nat := Nat.max 1 (Nat.min r.meshSlots 1024)

/-- An output entry (R228). -/
structure SlotEntry where
  stream : Nat
  must   : Bool
  add    : Bool
  srcB   : Nat
  srcA   : Nat
deriving DecidableEq, Repr

def slotEntry (v : Nat) : SlotEntry :=
  { stream := bitsOf v 8 4, must := bitsOf v 7 1 == 1, add := bitsOf v 6 1 == 1, srcB := bitsOf v 3 3, srcA := bitsOf v 0 3 }

/-- The entry of output `port` (4 is L) in slot `j` of a core's table. -/
def State.tableEntry (s : State) (c j port : Nat) : SlotEntry :=
  slotEntry (bitsOf (leNat (s.physBytes ((s.core c).schedBase + 8 * j) 8)) (12 * port) 12)

/-- Some slot of the table takes the stream from L, or brings it to L. -/
def State.streamNamed (s : State) (c stream : Nat) (send : Bool) : Bool :=
  (List.range (s.core c).router.length).any fun j =>
    if send then (List.range 4).any fun p =>
      let e := s.tableEntry c j p
      e.stream == stream && (e.srcA == 5 || (e.add && e.srcB == 5))
    else
      let e := s.tableEntry c j 4
      e.stream == stream && e.srcA != 0

/-! Faults (R233). -/

/-- Record a cause in MESH_FAULT, and the fault in the core whatever its state. -/
def State.meshFault (s : State) (c : Nat) (site : Site) (stream port cause : Nat) : State :=
  let s1 := s.updCore c fun k =>
    { k with router := { k.router with fault :=
        if k.router.fault.valid then k.router.fault
        else { valid := true, stream, port, slot := k.router.slots % k.router.length, cause } } }
  let k := s1.core c
  s1.takeFaultAs { core := c, ctx := k.context, part := k.partition, kind := fkMesh, cause, site } true

/-! MSEND and MRECV. -/

def sendForm (u : Fields) (k : Core) : Form :=
  { slots := .zero u.d.toNat :: .zero u.c.toNat ::
      (if u.bit 13 then [.uSrc u.a.toNat, .uSrc u.b.toNat] else [.t u.a.toNat 1, .zero u.b.toNat]),
    ok := k.kernel.usesMesh && u.onlyBits 0x3C0F && (u.bit 12 || !u.bit 10) && u.ext.isNone }

def recvForm (u : Fields) (k : Core) : Form :=
  { slots := .zero u.c.toNat ::
      (if u.bit 13 then [.zero u.d.toNat, .uSrc u.a.toNat, .uSrc u.b.toNat] else [.t u.d.toNat 1, .zero u.a.toNat, .zero u.b.toNat]),
    ok := k.kernel.usesMesh && u.onlyBits 0x280F && u.ext.isNone }

def Router.recv (r : Router) (i : Nat) : List Flit := SMap.get [] r.recvQ i
def Router.sending (r : Router) (i : Nat) : List Flit := SMap.get [] r.sendQ i

/-- Go on with a send: flits of the register form enter together, those of the tile form while there is room (R231). -/
def Core.sendMore (k : Core) (w : MeshWait) : Core × Option MeshWait :=
  let q := k.router.sending w.stream
  let flit := fun (b : List Byte) => ({ red := w.red, bf16 := w.bf16, stream := w.stream, bytes := b } : Flit)
  if w.tile then
    let n := Nat.min (8 - q.length) (w.left / 64)
    let more := (List.range n).map fun j => flit (SMap.getBytes k.tile (w.addr + 64 * j) 64)
    let k1 : Core := { k with router := { k.router with sendQ := SMap.set [] k.router.sendQ w.stream (q ++ more) } }
    (k1, if w.left = 64 * n then none else some { w with addr := w.addr + 64 * n, left := w.left - 64 * n, waited := if n = 0 then w.waited else 0 })
  else if q.length + w.flits.length ≤ 8 then
    ({ k with router := { k.router with sendQ := SMap.set [] k.router.sendQ w.stream (q ++ w.flits.map flit) } }, none)
  else (k, some w)

/-- Go on with a receive. -/
def Core.recvMore (k : Core) (slot : Nat) (w : MeshWait) : Core × Option MeshWait :=
  let q := k.router.recv w.stream
  if w.tile then
    let n := Nat.min q.length (w.left / 64)
    let tile := (q.take n).zipIdx.foldl (fun (t : SMap Byte) (f : Flit × Nat) => SMap.putBytes t (w.addr + 64 * f.2) f.1.bytes) k.tile
    let k1 : Core := { k with tile, router := { k.router with recvQ := SMap.set [] k.router.recvQ w.stream (q.drop n) } }
    (k1, if w.left = 64 * n then none else some { w with addr := w.addr + 64 * n, left := w.left - 64 * n, waited := if n = 0 then w.waited else 0 })
  else
    let n := k.W / 16
    if n ≤ q.length then
      let bytes := (q.take n).flatMap Flit.bytes
      let g := (lanesOf w.lanes).foldl (fun (g : Group) l => g.setT l w.dreg (BitVec.ofNat 32 (fieldAt bytes (4 * l) 4))) (k.group slot)
      let k1 : Core := { k with router := { k.router with recvQ := SMap.set [] k.router.recvQ w.stream (q.drop n) } }
      (k1.setGroup slot g, none)
    else (k, some w)

/-- Start or go on with the mesh instruction of a group. -/
def State.meshGo (s : State) (c slot : Nat) (w : MeshWait) : State :=
  let k := s.core c
  let r := if w.isSend then k.sendMore w else k.recvMore slot w
  s.setCore c (r.1.setGroup slot { r.1.group slot with mesh := r.2 })

/-- The issue of MSEND and MRECV after the collective check. -/
def State.meshIssue (s : State) (i : Inst) (isSend : Bool) (m : Mask) : Effect :=
  let u := i.u
  let k := s.core i.c
  let stream := u.bits 0 4
  let st := (s.grp i).site i.slot k
  if !s.streamNamed i.c stream isSend then .jump (s.meshFault i.c st stream 4 9)
  else
    let w : MeshWait := { isSend, tile := u.bit 13, stream, dreg := u.d.toNat, lanes := m, flits := [], red := u.bit 12,
                          bf16 := u.bit 10, addr := 0, left := 0, waited := 0, site := st }
    if u.bit 13 then
      let a := (s.uVal i u.a.toNat).toNat
      let n := (s.uVal i u.b.toNat).toNat
      if a % 64 != 0 || n % 64 != 0 then .fault s (s.instFault i fkMisaligned 0 0 a)
      else if n != 0 && decide (k.T < a + n) then .fault s (s.instFault i fkPermission 1 0 a)
      else if n = 0 then .next s
      else .next (s.meshGo i.c i.slot { w with addr := a, left := n })
    else
      let g := s.grp i
      let bytes := (List.range k.W).flatMap fun l => leBytes 4 (if m.getLsbD l then (g.getT l u.a.toNat).toNat else 0)
      let flits := (List.range (k.W / 16)).map fun j => (bytes.drop (64 * j)).take 64
      .next (s.meshGo i.c i.slot { w with flits := if isSend then flits else [] })

/-- MSEND. -/
def execMsend (g : GroupRef) (u : Fields) (s : State) : Host.Outcome State Fault Refusal :=
  .next (s.collective (inst g u) (sendForm u (s.core g.core)) 0xD (u.bit 11) fun s m => s.meshIssue (inst g u) true m)

/-- MRECV. -/
def execMrecv (g : GroupRef) (u : Fields) (s : State) : Host.Outcome State Fault Refusal :=
  .next (s.collective (inst g u) (recvForm u (s.core g.core)) 0xD (u.bit 11) fun s m => s.meshIssue (inst g u) false m)

/-- MESH_QUEUE_WAIT_DONE: a waiting MSEND or MRECV goes on. -/
def execMeshQueueWaitDone (g : GroupRef) (s : State) : Host.Outcome State Fault Refusal :=
  .next (match ((s.core g.core).group g.slot).mesh with
  | some w => s.meshGo g.core g.slot w
  | none => s)

/-- MESH_WAIT_LIMIT: the wait has reached CORE_BAR_WATCHDOG. -/
def execMeshWaitLimit (g : GroupRef) (s : State) : Host.Outcome State Fault Refusal :=
  .next (match ((s.core g.core).group g.slot).mesh with
  | some w => if (s.core g.core).live && (s.core g.core).watchLimit ≤ w.waited then s.meshFault g.core w.site w.stream 4 0xA else s
  | none => s)

/-! A slot of a router (R230, R232). -/

/-- Sum of two payloads. -/
def addPayload (bf16 : Bool) (a b : List Byte) : List Byte :=
  if bf16 then (List.range 32).flatMap fun j =>
    leBytes 2 (fp32ToBf16 (redFp32 none (bf16To32 (fieldAt a (2 * j) 2)) (bf16To32 (fieldAt b (2 * j) 2))))
  else (List.range 16).flatMap fun j =>
    leBytes 4 (redFp32 none (BitVec.ofNat 32 (fieldAt a (4 * j) 4)) (BitVec.ofNat 32 (fieldAt b (4 * j) 4))).toNat

/-- What a source gives an entry: source 1 to 4 a port, 5 is L. Masked ports give bubbles. -/
def Core.source (k : Core) (c src stream : Nat) : Option Flit :=
  let r := k.router
  if src = 5 then (r.sending stream).head?
  else
    let p := src - 1
    if r.edge.getLsbD p then none
    else if crossing c p then (SMap.get [] r.crossB (4 * p + stream % 4)).find? fun f => f.stream == stream
    else (r.inputs.find? fun x => x.1 == p && x.2.1 == r.slots).map fun x => x.2.2

/-- The cause of a must entry whose source is a bubble. -/
def mustCause (c src : Nat) : Nat := if src = 5 then 1 else if crossing c (src - 1) then 2 else 3

/-- What an entry's output carries, or a cause. -/
def Core.carry (k : Core) (c : Nat) (e : SlotEntry) : Nat ⊕ Option Flit :=
  let a := k.source c e.srcA e.stream
  let b := if e.add then k.source c e.srcB e.stream else none
  if e.must && a.isNone then .inl (mustCause c e.srcA)
  else if e.must && e.add && b.isNone then .inl (mustCause c e.srcB)
  else match a, b with
  | some x, some y =>
    if x.red && y.red && x.bf16 == y.bf16 then .inr (some { x with bytes := addPayload x.bf16 x.bytes y.bytes })
    else .inl 7
  | some x, none => .inr (some x)
  | none, y => .inr y

/-- Deliver a flit at an output: the state, or a cause. -/
def State.deliverFlit (s : State) (c port stream : Nat) (f : Flit) : Nat ⊕ State :=
  let k := s.core c
  let r := k.router
  if port = 4 then
    let q := r.recv stream
    if 8 ≤ q.length then .inl 5
    else .inr (s.setCore c { k with router := { r with recvQ := SMap.set [] r.recvQ stream (q ++ [f]) } })
  else if r.edge.getLsbD port then .inl 8
  else if crossing c port then
    let key := 4 * port + f.stream % 4
    let q := SMap.get [] r.crossQ key
    if 8 ≤ q.length then .inl 6
    else .inr (s.setCore c { k with router := { r with crossQ := SMap.set [] r.crossQ key (q ++ [f]), counters := bump r.counters 0x528 1 } })
  else match neighbour c port with
  | some n =>
    .inr (s.updCore n fun x => { x with router := { x.router with inputs := x.router.inputs ++ [(opposite port, r.slots + linkSlots c n, f)] } })
  | none => .inl 8

/-- Act on the output entries of a slot, in the order N, E, S, W, L; the first cause stops it. -/
def State.slotOutputs (s : State) (c j : Nat) (k0 : Core) : List Nat → (Nat × Nat × Nat) ⊕ State
  | [] => .inr s
  | p :: rest =>
    let e := s.tableEntry c j p
    if e.srcA = 0 then s.slotOutputs c j k0 rest
    else match k0.carry c e with
    | .inl cause => .inl (e.stream, p, cause)
    | .inr none =>
      (s.updCore c fun k => { k with router := { k.router with counters := bump k.router.counters 0x510 1 } }).slotOutputs c j k0 rest
    | .inr (some f) =>
      let added := e.add && (k0.source c e.srcA e.stream).isSome && (k0.source c e.srcB e.stream).isSome
      match s.deliverFlit c p e.stream f with
      | .inl cause => .inl (f.stream, p, cause)
      | .inr s1 =>
        (s1.updCore c fun k => { k with router := { k.router with counters :=
          (if added then bump (bump k.router.counters 0x500 1) 0x508 1 else bump k.router.counters 0x500 1) } }).slotOutputs c j k0 rest

/-- Remove, once, the flits that the entries of a slot took from L and from crossing buffers. -/
def Core.takeSources (k : Core) (c : Nat) (es : List SlotEntry) : Core :=
  let named := (es.filter fun e => e.srcA != 0).flatMap fun e =>
    (if e.add then [e.srcA, e.srcB] else [e.srcA]).map fun p => (p, e.stream)
  named.eraseDups.foldl (fun k x =>
    let r := k.router
    if x.1 = 5 then { k with router := { r with sendQ := SMap.set [] r.sendQ x.2 ((r.sending x.2).drop 1) } }
    else if crossing c (x.1 - 1) then
      match k.source c x.1 x.2 with
      | some f =>
        let key := 4 * (x.1 - 1) + x.2 % 4
        { k with router := { r with crossB := SMap.set [] r.crossB key ((SMap.get [] r.crossB key).erase f), counters := bump r.counters 0x530 1 } }
      | none => k
    else k) k

/-- The routers whose flits may still arrive in this slot have taken the slots that send them. -/
def State.slotReady (s : State) (c : Nat) : Bool :=
  let r := (s.core c).router
  (List.range 4).all fun p =>
    r.edge.getLsbD p || crossing c p || (match neighbour c p with
    | some n => !(s.core n).router.running || decide (r.slots < (s.core n).router.slots + linkSlots c n)
    | none => true)

/-- MESH_ROUTER_SLOT. -/
def execMeshRouterSlot (c : CoreIdx) (s : State) : Host.Outcome State Fault Refusal :=
  let k := s.core c
  let r := k.router
  .next (if !(r.run && r.running && s.slotReady c) then s
  else
    let j := r.slots % r.length
    let es := (List.range 5).map (s.tableEntry c j)
    let named := fun (p : Nat) => es.any fun e => e.srcA != 0 && (e.srcA == p + 1 || (e.add && e.srcB == p + 1))
    let noSite : Site := { slot := 0, pc := 0, active := 0, live := 0 }
    match s.slotOutputs c j k [0, 1, 2, 3, 4] with
    | .inl (stream, port, cause) => s.meshFault c noSite stream port cause
    | .inr s1 =>
      match r.inputs.find? fun x => x.2.1 == r.slots && !named x.1 && !r.edge.getLsbD x.1 with
      | some x => s1.meshFault c noSite x.2.2.stream x.1 4
      | none =>
        let k1 := (s1.core c).takeSources c es
        s1.setCore c { k1 with router := { k1.router with slots := r.slots + 1, inputs := k1.router.inputs.filter fun x => r.slots < x.2.1 } })

/-- MESH_START: on one die, every router that may start does so in one cycle (R235, R236). -/
def execMeshStart (d : DieIdx) (s : State) : Host.Outcome State Fault Refusal :=
  let begins := fun (c : Nat) (k : Core) =>
    c / 80 == d.val && k.router.run && !k.router.running && k.mode != .clearing && decide (k.router.start.toNat ≤ s.dieTime d)
  let cores := SMap.mapV {} s.cores fun c k =>
    if begins c k then { k with router := { k.router with running := true, slots := 0, inputs := [] } } else k
  .next { s with cores := cores }

/-- Port number of a crossing operand. -/
def portNo : Port → Nat
  | .n => 0
  | .e => 1
  | .s => 2
  | .w => 3

/-- CROSSING_FLIT_ARRIVE at port `p` of the receiving router: the head of the sender's queue enters the buffer when it has a
place, which is the credit (R239). -/
def execCrossingFlitArrive (c : CoreIdx) (p : Port) (vc : Fin 4) (s : State) : Host.Outcome State Fault Refusal :=
  let p := portNo p
  .next (match neighbour c p with
  | some n =>
    let q := opposite p
    let k := s.core n
    let r := (s.core c).router
    let key := 4 * p + vc.val
    match SMap.get [] k.router.crossQ (4 * q + vc.val) with
    | f :: rest =>
      let b := SMap.get [] r.crossB key
      if crossing c p && !r.edge.getLsbD p && decide (b.length < 8) then
        (s.setCore n { k with router := { k.router with crossQ := SMap.set [] k.router.crossQ (4 * q + vc.val) rest } }).updCore c fun x =>
          { x with router := { x.router with crossB := SMap.set [] x.router.crossB key (b ++ [f]) } }
      else s
    | [] => s
  | none => s)

end Sys2Proof.Machine
end

