-- ==== Sys2Proof/Machine/Cores.lean ====
section
/-!
DEFINITION. The life of a core: start, clear, stop, drain, teardown and completion, and the groups of its share (R35, R41, R48, R59,
R64, R66, R69, R87, R112).
-/
namespace Sys2Proof.Machine

/-- What a core takes from the header of its kernel image (R144, R145). -/
def headerInfo (b : List Byte) : KernelInfo :=
  let flags := fieldAt b 6 2
  { entry := fieldAt b 0x14 4, codeBytes := fieldAt b 0x1C 4, poolOff := fieldAt b 0x20 4, poolBytes := fieldAt b 0x24 4,
    usesMatrix := flags.testBit 0, usesMesh := flags.testBit 1, ftz := flags.testBit 3, priv := flags.testBit 4,
    meshSlots := fieldAt b 0x10 2 }

/-- CORE_KCFG holds no reserved or out-of-range value (R69). -/
def Core.cfgOk (k : Core) : Bool :=
  decide (k.tilePages ≤ 512) && k.uniforms % 8 == 0 && decide (8 ≤ k.uniforms) && decide (k.uniforms ≤ 64) && decide (k.width ≤ 2) &&
    decide (2 ≤ k.regsDiv8) && decide (k.regsDiv8 ≤ 32)

/-- A group as it starts: zero registers but for its indices, and the threads beyond the grid exited (R35, R41, R112). -/
def Core.newGroup (k : Core) (index : Nat) : Group :=
  let live := laneMask (Nat.min k.W (k.share.threads - index * k.W))
  let g : Group := { occupied := true, index, pc := BitVec.ofNat 64 k.kernel.entry, active := live, live }
  let lanes := (List.range k.W).foldl (fun (g : Group) l =>
    (g.setT l 0 (BitVec.ofNat 32 (index * k.W + l))).setT l 1 (BitVec.ofNat 32 l)) g
  lanes.setU 0 (BitVec.ofNat 64 index)

/-- Put the next group of the share, if one remains, into an empty slot (R35). -/
def Core.fillSlot (k : Core) (slot : Nat) : Core :=
  if (k.group slot).occupied || k.share.groups ≤ k.share.placed then k
  else ({ k with share := { k.share with placed := k.share.placed + 1 } }).setGroup slot (k.newGroup (k.share.first + k.share.placed))

/-- Fill the group slots at kernel start (R35). -/
def Core.fill (k : Core) : Core := (List.range k.slots).foldl Core.fillSlot k

/-- Clear register file, uniform pool, tile memory, accumulator memory, planes and micro-TLBs (R48, R87, R299). -/
def Core.cleared (k : Core) : Core :=
  { k with groups := [], tile := [], acc := [], plane0 := {}, plane1 := {}, utlb := [], dtlb := [] }

/-- The warden learns that a core has completed or stopped: its launch, or the node of its graph, counts one core less. -/
def State.coreDone (s : State) (c : Nat) : State :=
  let id := (s.core c).share.launch
  match s.launch (id &&& ~~~0x1FFF) with
  | none => s
  | some l =>
    let node := bitsOf id.toNat 0 13
    let busy := l.busy.filter (· != c)
    let nodes := l.nodes.zipIdx.map fun e =>
      if e.2 + 1 = node then
        let cores := e.1.cores.filter (· != c)
        { e.1 with cores, phase := if cores.isEmpty && e.1.phase == .running then .ended else e.1.phase }
      else e.1
    s.setLaunch { l with busy, nodes, phase := if node = 0 && busy.isEmpty && l.phase == .running then .ended else l.phase }

/-- Begin to run groups. -/
def Core.run (k : Core) : Core := ({ k with mode := .running, lastCtx := some (k.context, k.partition) }).fill

/-- The start event (R66, R69); a core with an empty share completes at once (R381). -/
def State.startCore (s : State) (c : Nat) : State :=
  let k := s.core c
  if k.mode != .idle then s
  else if !k.cfgOk then
    if k.share.launch = 0 then s
    else s.takeFaultAs { core := c, ctx := k.context, part := k.partition, kind := fkIllegal, detail := 9,
                         site := { slot := 0, pc := 0, active := 0, live := 0 } } true
  else
    let k1 : Core := { k with kernel := headerInfo (s.physBytes k.kernelBase 256), share := { k.share with placed := 0 }, groups := [] }
    if k1.share.groups = 0 then (s.setCore c k1).coreDone c
    else if k1.lastCtx = some (k1.context, k1.partition) then s.setCore c k1.run
    else s.setCore c { k1 with mode := .clearing, clearCount := 0, stopPending := false }

/-- CORE_START. -/
def execCoreStart (c : CoreIdx) (s : State) : Host.Outcome State Fault Refusal := .next (s.startCore c)

/-- CORE_STOP. -/
def execCoreStop (c : CoreIdx) (s : State) : Host.Outcome State Fault Refusal := .next (s.updCore c Core.stop)

/-- CORE_TEARDOWN: stores that the core has accepted drain (R66, R183). -/
def execCoreTeardown (c : CoreIdx) (s : State) : Host.Outcome State Fault Refusal := .next (s.teardownCore c true)

/-- CORE_CLEAR_COMPLETE: 8,192 cycles have passed. -/
def execCoreClearComplete (c : CoreIdx) (s : State) : Host.Outcome State Fault Refusal :=
  let k := s.core c
  .next (if k.mode != .clearing || decide (k.clearCount < 8192) then s
  else if k.stopPending then (s.setCore c { k.cleared with mode := .idle, stopPending := false, clearCount := 0 }).coreDone c
  else s.setCore c { k.cleared with clearCount := 0 }.run)

/-- Requests of the vector, scalar and DMA engines of a core that have not been performed. -/
def State.coreRequests (s : State) (c : Nat) : Bool :=
  s.fab.reqs.any fun r => match r.agent with
    | .vec d _ => d == c
    | .ldk d _ => d == c
    | .dma d _ => d == c
    | _ => false

/-- CORE_DRAIN_COMPLETE: all engines are idle. -/
def execCoreDrainComplete (c : CoreIdx) (s : State) : Host.Outcome State Fault Refusal :=
  let k := s.core c
  .next (if k.mode == .draining && k.mtxQ.isEmpty && k.dmaQ.isEmpty && !s.coreRequests c then
    (s.setCore c { k with mode := .idle, groups := [] }).coreDone c
  else s)

/-- Every thread of the group has exited, and what it placed in a queue or sent has completed (R59). -/
def State.groupDone (s : State) (c slot : Nat) : Bool :=
  let k := s.core c
  let g := k.group slot
  g.occupied && g.live == 0 && !(k.mtxQ.any fun e => e.slot == slot) && !(k.dmaQ.any fun e => e.slot == slot) &&
    !s.fab.reqs.any fun r => match r.agent with
      | .vec d i => d == c && i == slot
      | .ldk d i => d == c && i == slot
      | _ => false

/-- Buffered and sent stores of an ended group no longer count as those of its slot (R176 item 6). -/
def State.orphanStores (s : State) (c slot : Nat) : State :=
  let s1 := s.updCore c fun k => { k with wb := k.wb.map fun e => { e with groups := e.groups.map fun g => if g = slot then 128 else g } }
  let reqs := s1.fab.reqs.map fun r => if r.agent == .wbuf c (some slot) then { r with agent := .wbuf c (some 128) } else r
  { s1 with fab := { s1.fab with reqs := reqs } }

/-- The last group of the share has ended: the core completes (R66). -/
def State.coreCompletion (s : State) (c : Nat) : State :=
  let k := s.core c
  if k.mode = .running && k.groups.all (fun e => !e.2.occupied) && k.share.groups ≤ k.share.placed && k.mtxQ.isEmpty && k.dmaQ.isEmpty then
    (s.setCore c { k with mode := .idle }).coreDone c
  else s

/-- GROUP_END: the slot takes the next group of the share, if one remains (R35, R58, R59, R64). -/
def execGroupEnd (g : GroupRef) (s : State) : Host.Outcome State Fault Refusal :=
  let c := g.core.val
  let slot := g.slot.val
  .next (if !s.groupDone c slot then s
  else
    let s1 := ((s.orphanStores c slot).updCore c fun k => k.setGroup slot {}).barriers c
    let s2 := s1.updCore c fun k => if k.mode = .running then k.fillSlot slot else k
    s2.coreCompletion c)

end Sys2Proof.Machine
end

