-- ==== Sys2Proof/Machine/Counters.lean ====
section
/-!
DEFINITION. Writes to the counter clear registers, reads that clear, and writes that clear status bits (R7, R71, R103, R224, R253,
R287, R313, R314, R336, R337, R464, R486).
-/
namespace Sys2Proof.Machine

/-- Bit 0 of a clear register is written 1. -/
def clears (v : Word) : Bool := v.getLsbD 0

/-- CORE_CNT_CLEAR zeroes the core, matrix, mesh and core translation counters (R71, R103, R253, R314). -/
def State.coreCntClear (s : State) (c : CoreIdx) (v : Word) : State :=
  if clears v then s.updCore c fun k => { k with counters := [], router := { k.router with counters := [] } } else s
def execCoreCntClear (c : CoreIdx) (v : Word) (s : State) : Host.Outcome State Fault Refusal := .next (s.coreCntClear c v)

def State.mtxCntClear (s : State) (c : CoreIdx) (v : Word) : State :=
  if clears v then s.updCore c fun k => { k with counters := clearCounters k.counters 0x300 0x348 } else s
def execMtxCntClear (c : CoreIdx) (v : Word) (s : State) : Host.Outcome State Fault Refusal := .next (s.mtxCntClear c v)

def State.meshCntClear (s : State) (c : CoreIdx) (v : Word) : State :=
  if clears v then s.updCore c fun k => { k with router := { k.router with counters := [] } } else s
def execMeshCntClear (c : CoreIdx) (v : Word) (s : State) : Host.Outcome State Fault Refusal := .next (s.meshCntClear c v)

def State.xlatCoreCntClear (s : State) (c : CoreIdx) (v : Word) : State :=
  if clears v then s.updCore c fun k => { k with counters := clearCounters k.counters 0x700 0x720 } else s
def execXlatCoreCntClear (c : CoreIdx) (v : Word) (s : State) : Host.Outcome State Fault Refusal := .next (s.xlatCoreCntClear c v)

def State.cacheCntClear (s : State) (h : HalfIdx) (v : Word) : State :=
  if clears v then s.setHalf h { s.half h with counters := [] } else s
def execCacheCntClear (h : HalfIdx) (v : Word) (s : State) : Host.Outcome State Fault Refusal := .next (s.cacheCntClear h v)

def State.memcCntClear (s : State) (m : CtrlIdx) (v : Word) : State :=
  if clears v then s.setCtrl m { s.ctrl m with counters := [] } else s
def execMemcCntClear (m : CtrlIdx) (v : Word) (s : State) : Host.Outcome State Fault Refusal := .next (s.memcCntClear m v)

def State.xlatCntClear (s : State) (d : DieIdx) (v : Word) : State :=
  if clears v then { s with xlat := { s.xlat with
    counters := clearCounters s.xlat.counters (4096 * d.val) (4096 * d.val + 4096) } } else s
def execXlatCntClear (d : DieIdx) (v : Word) (s : State) : Host.Outcome State Fault Refusal := .next (s.xlatCntClear d v)

/-- Clear by the STEW block of a half (R464). -/
def State.stewCntClear (s : State) (h : HalfIdx) (v : Word) : State :=
  if clears v then s.setSteward h { s.steward h with counters := [] } else s
def execStewCntClear (h : HalfIdx) (v : Word) (s : State) : Host.Outcome State Fault Refusal := .next (s.stewCntClear h v)

def State.specCntClear (s : State) (v : Word) : State :=
  if clears v then { s with twin := { s.twin with counters := [] } } else s
def execSpecCntClear (v : Word) (s : State) : Host.Outcome State Fault Refusal := .next (s.specCntClear v)

/-! Reads that clear (R7). The value read stands in State.rd. -/

/-- CORE_STACK_MAX: depth since the last read (R52). -/
def State.coreStackMaxRead (s : State) (c : CoreIdx) : State :=
  { s.updCore c fun k => { k with stackMax := 0 } with rd := (s.core c).stackMax }
def execCoreStackMaxRead (c : CoreIdx) (s : State) : Host.Outcome State Fault Refusal := .next (s.coreStackMaxRead c)

/-- CACHE_BANK_STATUS.missreg_hwm of a bank (R209). -/
def State.missregHwmRead (s : State) (h : HalfIdx) (b : BankIdx) : State :=
  { s.setHalf h { s.half h with hwm := SMap.set 0 (s.half h).hwm b 0 } with rd := SMap.get 0 (s.half h).hwm b }
def execMissregHwmRead (h : HalfIdx) (b : BankIdx) (s : State) : Host.Outcome State Fault Refusal := .next (s.missregHwmRead h b)

/-- EVR_DROPPED of a function (R369). -/
def State.evrDroppedRead (s : State) (fn : FnIdx) : State :=
  { s.setRing fn { s.ring fn with dropped := 0 } with rd := (s.ring fn).dropped }
def execEvrDroppedRead (fn : FnIdx) (s : State) : Host.Outcome State Fault Refusal := .next (s.evrDroppedRead fn)

/-! Status bits that a write of 1 clears (R7). -/

/-- MESH_FAULT.valid (R233). -/
def State.meshFaultClear (s : State) (c : CoreIdx) (v : Word) : State :=
  s.updCore c fun k => { k with router := { k.router with fault := { k.router.fault with valid := k.router.fault.valid && !v.getLsbD 31 } } }
def execMeshFaultClear (c : CoreIdx) (v : Word) (s : State) : Host.Outcome State Fault Refusal := .next (s.meshFaultClear c v)

/-- HST_REFUSED.valid (R497). -/
def State.hstRefusedClear (s : State) (v : Word) : State :=
  { s with host := { s.host with refused := s.host.refused && !v.getLsbD 31 } }
def execHstRefusedClear (v : Word) (s : State) : Host.Outcome State Fault Refusal := .next (s.hstRefusedClear v)

/-- MBX_STATUS.overrun (R341). -/
def State.mbxOverrunClear (s : State) (m : MbxIdx) (v : Word) : State :=
  s.setMbx m { s.mbx m with overrun := (s.mbx m).overrun && !v.getLsbD 31 }
def execMbxOverrunClear (m : MbxIdx) (v : Word) (s : State) : Host.Outcome State Fault Refusal := .next (s.mbxOverrunClear m v)

/-! MESH_CTRL (R252). -/

/-- While run is 1 only the run bit changes. -/
def State.meshCtrlWrite (s : State) (c : CoreIdx) (v : Word) : State :=
  s.updCore c fun k =>
    let r := k.router
    let r1 : Router := if r.run then r else { r with lc := v.getLsbD 12, edge := BitVec.ofNat 4 (bitsOf v.toNat 4 4) }
    let on := v.getLsbD 0
    { k with router := { r1 with run := on, running := r.running && on } }
def execMeshCtrlWrite (c : CoreIdx) (v : Word) (s : State) : Host.Outcome State Fault Refusal := .next (s.meshCtrlWrite c v)

end Sys2Proof.Machine
end

