-- ==== Sys2Proof/Machine/Rects.lean ====
section
/-!
DEFINITION. Rectangles of partitions and launches, the launches that hold them, and the offsets of blocks in internal control space
(R15, R366, R377, R399, R418).
-/
namespace Sys2Proof.Machine

/-! Rectangles. -/

def Rect.inside (r : Rect) : Bool := 0 < r.w && 0 < r.h && r.x0 + r.w ≤ 40 && r.y0 + r.h ≤ 16

/-- Cores in ascending y, then ascending x. -/
def Rect.cores (r : Rect) : List Nat :=
  (List.range r.h).flatMap fun j => (List.range r.w).filterMap fun i => (coreAt (r.x0 + i) (r.y0 + j)).map fun c => c.val

def Rect.overlaps (a b : Rect) : Bool := a.x0 < b.x0 + b.w && b.x0 < a.x0 + a.w && a.y0 < b.y0 + b.h && b.y0 < a.y0 + a.h

/-- The rectangle that a launch descriptor names within its partition's; none when it lies outside (R377, R379 check 8). -/
def Rect.sub (p : Rect) (desc : List Byte) : Option Rect :=
  let dx := fieldAt desc 0x10 1
  let dy := fieldAt desc 0x11 1
  let w := fieldAt desc 0x12 1
  let h := fieldAt desc 0x13 1
  if w = 0 then some p
  else if 0 < h && dx + w ≤ p.w && dy + h ≤ p.h then some { x0 := p.x0 + dx, y0 := p.y0 + dy, w, h } else none

/-- Nodes of a graph version. -/
def State.graphNodes (s : State) (g : Nat × Nat) : List (List Byte) :=
  match s.graph g.1 with
  | some x => match x.versions.find? fun v => v.version == g.2 with
    | some v => v.nodes
    | none => []
  | none => []

/-- Cores of the rectangle of a launch; for a graph launch the union over its nodes (R434). -/
def State.launchCores (s : State) (l : Launch) : List Nat :=
  match s.rect l.part with
  | none => []
  | some p =>
    match l.graph with
    | none => match p.sub l.desc with | some r => r.cores | none => []
    | some g =>
      let rs := (s.graphNodes g).filterMap p.sub
      p.cores.filter fun c => rs.any fun r => r.cores.contains c

/-- The launch is consumed and not committed. -/
def Launch.pending (l : Launch) : Bool := l.verdict.isNone

/-- The queue of a launch is latency-critical. -/
def State.launchLc (s : State) (l : Launch) : Bool := match s.queue l.queue with | some q => !q.be | none => false

/-- A launch of a latency-critical queue is pending or running (R335). -/
def State.lcBusy (s : State) : Bool := s.work.launches.any fun l => l.pending && s.launchLc l

/-- Cores that an open ARRAY_TEST names (R363). -/
def State.underTest (s : State) (c : Nat) : Bool :=
  s.valac.ops.any fun o => o.cmd.opcode == 0x0A00 &&
    (Rect.mk (fieldAt o.cmd.payload 0 1) (fieldAt o.cmd.payload 1 1) (fieldAt o.cmd.payload 2 1) (fieldAt o.cmd.payload 3 1)).cores.contains c

/-! Offsets in internal control space (R366). -/

def dieBase (d : Nat) : Nat := 0x0100000000 + d * 0x01000000
def hubBase (k : Nat) : Nat := 0x0200000000 + k * 0x01000000
def engineBase (e : Nat) : Nat := 0x0300000000 + e * 0x01000000
/-- Core control block of core 80·d + c. -/
def coreBase (c : Nat) : Nat := dieBase (c / 80) + 0x00100000 + c % 80 * 0x10000
def halfBase (h : Nat) : Nat := dieBase (h / 2) + 0x00800000 + h % 2 * 0x100000
def ctrlBase (m : Nat) : Nat :=
  if m < 24 then dieBase (m / 3) + 0x00C00000 + m % 3 * 0x10000 else hubBase ((m - 24) / 6) + 0x00100000 + (m - 24) % 6 * 0x10000
def bndBase : BndPort → Nat
  | .die d p => dieBase d + 0x00E00000 + p * 0x10000
  | .hub k p => hubBase k + 0x00200000 + p * 0x10000
  | .engine e p => engineBase e + 0x00E00000 + p * 0x10000

/-- Base of an ARB block (R333). -/
def arbBase : ArbId → Nat
  | .tile c => coreBase c + 0xF000
  | .dmaIssue c => dieBase (c / 80) + 0x0060F000 + c % 80 * 0x1000
  | .bank h b => halfBase h + b * 0x10000 + 0xF000
  | .memc m => ctrlBase m + 0xF000
  | .seam d e => dieBase d + (if e then 0x00E4F000 else 0x00E3F000)
  | .bnd p => bndBase p + 0xF000

end Sys2Proof.Machine
end

