-- ==== Sys2Proof/Machine/Links.lean ====
section
/-!
DEFINITION. Bundles, the seam and port arbiters: flits, replay, retraining, darning, loss, and cut-offs (R242, R315 to R337, R435).
-/
namespace Sys2Proof.Machine

/-! Bundles and their ports (R315, R316). -/

/-- Tracks of a bundle. -/
def bundleTracks (b : Nat) : Nat := if b < 6 then 48 else if b < 14 then 24 else if b < 17 then 16 else 8

/-- Bundle and direction that a port block receives; none at a port that leads nowhere. -/
def portBundle : BndPort → Option (Nat × Bool)
  | .die d p =>
    if p.val = 2 then some (6 + d.val, true)
    else if p.val = 0 then
      if d.val = 0 then some (17, true) else if d.val = 4 then some (18, true)
      else some (if d.val < 4 then d.val - 1 else d.val - 2, false)
    else if d.val = 3 then some (19, true) else if d.val = 7 then some (20, true)
    else some (if d.val < 4 then d.val else d.val - 1, true)
  | .hub k p =>
    if p.val = 0 then some (6 + k.val, false)
    else if p.val = 1 then some (10 + k.val, false)
    else if p.val = 2 then (if k.val = 0 then none else some (13 + k.val, false))
    else if k.val = 3 then none else some (14 + k.val, true)
  | .engine e p => some (17 + 2 * e.val + p.val, false)

/-- Dies that a neighbour bundle joins. -/
def bundleDies (b : Nat) : Nat × Nat := if b < 3 then (b, b + 1) else (b + 1, b + 2)

/-- One direction of a bundle. -/
def Bundle.dir (x : Bundle) (d : Bool) : BundleDir := if d then x.d1 else x.d0
def Bundle.setDir (x : Bundle) (d : Bool) (y : BundleDir) : Bundle := if d then { x with d1 := y } else { x with d0 := y }
def Bundle.updDir (x : Bundle) (d : Bool) (f : BundleDir → BundleDir) : Bundle := x.setDir d (f (x.dir d))
def BundleDir.count (x : BundleDir) (off n : Nat) : BundleDir := { x with counters := bump x.counters off n }

/-- Flits sent in a direction and not acknowledged. -/
def BundleDir.unacked (x : BundleDir) : Nat := (x.nextSeq + 512 - x.oldest) % 512

/-- The sender of a direction resends from sequence number `seq` (R322). -/
def Bundle.replay (x : Bundle) (d : Bool) (seq : Nat) : Bundle :=
  let y := x.dir d
  let n := (y.nextSeq + 512 - seq) % 512
  let x1 := x.setDir d { y with replays := if seq = y.replayFrom then y.replays + 1 else 1, replayFrom := seq }
  x1.updDir (!d) fun z => (z.count 0x108 n).count 0x120 n

/-- An acknowledgement for the sender of a direction. -/
def BundleDir.acked (x : BundleDir) (a : Nat) : BundleDir :=
  if (a + 512 - x.oldest) % 512 ≤ x.unacked then
    { x with oldest := a, replays := if a = x.oldest then x.replays else 0 }
  else x

/-- BUNDLE_FLIT_RECEIVE: a flit of a direction reaches its receiver, with the acknowledgement that it carries for the
other direction. -/
def execBundleFlitReceive (b : BundleIdx) (dir : Bool) (seq : BitVec 9) (crcOk : Bool) (ack : Option (BitVec 9)) (s : State) :
    Host.Outcome State Fault Refusal :=
  let x := s.bundle b
  let y := x.dir dir
  let isNew := seq.toNat == y.nextSeq
  .next (if !x.trained || x.retraining || y.width == 2 || (isNew && decide (256 ≤ y.unacked)) then s
  else
    let x1 := if isNew then
        (x.updDir dir fun z => { z with nextSeq := (z.nextSeq + 1) % 512 }).updDir (!dir) fun z => z.count 0x108 1
      else x
    if crcOk && seq.toNat == y.expected then
      let x2 := x1.updDir dir fun z => ({ z with expected := (z.expected + 1) % 512, nakSent := false }).count 0x100 1
      s.setBundle b (match ack with | some a => x2.updDir (!dir) fun z => z.acked a.toNat | none => x2)
    else
      let x2 := x1.updDir dir fun z => if crcOk then z else z.count 0x110 1
      if y.nakSent then s.setBundle b x2
      else (s.setBundle b (x2.updDir dir fun z => ({ z with nakSent := true }).count 0x118 1)).emit (.nak b dir y.expected))

/-- BUNDLE_NAK: the sender resends from the NAKed flit. -/
def execBundleNak (b : BundleIdx) (dir : Bool) (seq : BitVec 9) (s : State) : Host.Outcome State Fault Refusal :=
  let x := s.bundle b
  let y := x.dir dir
  .next (if !x.trained || x.retraining || y.width == 2 || y.unacked < (seq.toNat + 512 - y.oldest) % 512 then s
  else s.setBundle b (x.replay dir seq.toNat))

/-- BUNDLE_REPLAY_TIMEOUT: no progress for 1 µs while flits are outstanding. -/
def execBundleReplayTimeout (b : BundleIdx) (dir : Bool) (s : State) : Host.Outcome State Fault Refusal :=
  let x := s.bundle b
  let y := x.dir dir
  .next (if !x.trained || x.retraining || y.width == 2 || y.unacked == 0 then s else s.setBundle b (x.replay dir y.oldest))

/-- BUNDLE_CREDIT: cumulative freed counts of the receiving queues of a direction (R320). -/
def execBundleCredit (b : BundleIdx) (dir : Bool) (counts : List Byte) (s : State) : Host.Outcome State Fault Refusal :=
  if 48 < counts.length then .fault (.malformed "BUNDLE_CREDIT")
  else .next (s.setBundle b ((s.bundle b).updDir dir fun y =>
    { y with freed := counts.zipIdx.foldl (fun m e => SMap.set 0 m e.2 e.1) y.freed }))

/-! The lane test and darning (R325 to R328). -/

/-- A darn map entry. -/
def darnWire (w : Word) : Nat × Bool × Nat × Nat :=
  (bitsOf w.toNat 27 5, bitsOf w.toNat 26 1 == 1, bitsOf w.toNat 18 8, bitsOf w.toNat 13 5)

def BadWire.key (w : BadWire) : Nat × Bool × Nat × Nat := (w.bundle.val, w.direction, w.group.val, w.position.val)

/-- Positions of the bad wires of a group. -/
def badPositions (bad : List (Nat × Bool × Nat × Nat)) (b : Nat) (d : Bool) (g : Nat) : List Nat :=
  ((bad.filter fun w => w.1 == b && w.2.1 == d && w.2.2.1 == g).map fun w => w.2.2.2).eraseDups

/-- BND_GROUP[g] after a lane test. -/
def groupByte (map bad : List (Nat × Bool × Nat × Nat)) (b : Nat) (d : Bool) (g : Nat) : Nat :=
  let ps := badPositions bad b d g
  let listed := ps.any fun p => map.contains (b, d, g, p)
  (match ps with | [] => 0x1F | [p] => p | _ => 0x80 + 0x1F) + 64 * bit listed

/-- Tracks of which one group is unrepairable (R325). -/
def badTrackList (bad : List (Nat × Bool × Nat × Nat)) (b : Nat) (d : Bool) : List Nat :=
  (List.range (bundleTracks b)).filter fun t => (List.range 4).any fun j => 2 ≤ (badPositions bad b d (4 * t + j)).length

/-- Width of a direction: 0 full, 1 half, 2 lost (R328). -/
def widthOf (b : Nat) (tracks : List Nat) : Nat :=
  let half := bundleTracks b / 2
  if tracks.any fun t => t < half && tracks.contains (t + half) then 2 else if tracks.isEmpty then 0 else 1

/-- What a lane test leaves of a direction; a direction at half width stays there until the next start. -/
def BundleDir.tested (x : BundleDir) (map bad : List (Nat × Bool × Nat × Nat)) (b : Nat) (d : Bool) : BundleDir :=
  let tracks := badTrackList bad b d
  let groups := (List.range (4 * bundleTracks b)).foldl (fun (m : SMap Byte) g =>
    SMap.set 0x1F m g (BitVec.ofNat 8 (groupByte map bad b d g))) []
  { x with groups, badTracks := tracks.length, width := Nat.max x.width (widthOf b tracks) }

/-- Every latency-critical bound rests on full-width bundles: note when that ends, at READY during a start (R435). -/
def State.lcCheck (s : State) (b : Nat) : State :=
  if s.sys.lcDegraded || s.sys.state == 1 then s
  else ({ s with sys := { s.sys with lcDegraded := true } }).warn { code := 0x0222, severity := 1, data := leBytes 1 b }

/-- A lane test of one direction: DARN_NEW for each bad wire that the map does not list, DEGRADED_BUNDLE at half width. -/
def State.laneTest (s : State) (b : Nat) (d : Bool) (found : List (Nat × Bool × Nat × Nat)) : State :=
  let map := s.links.darnMap.map darnWire
  let mine := (found.filter fun w => w.1 == b && w.2.1 == d && decide (w.2.2.1 < 4 * bundleTracks b)).eraseDups
  let x := s.bundle b
  let old := (x.dir d).width
  let y := (x.dir d).tested map (map ++ mine) b d
  let s1 := s.setBundle b (x.setDir d y)
  let s2 := (mine.filter fun w => !map.contains w).foldl (fun s w =>
    s.warn { code := 0x0401, severity := 1, source := 0,
             data := leBytes 1 b ++ leBytes 1 (bit d) ++ leBytes 1 w.2.2.1 ++ leBytes 1 w.2.2.2 }) s1
  if y.width = 1 && old = 0 then
    (s2.warn { code := 0x0402, severity := 1, data := leBytes 1 b ++ leBytes 1 (bit d) }).lcCheck b
  else s2

/-! Loss of a bundle (R329). -/

/-- A direction that nothing will ever cross again. -/
def BundleDir.lose (x : BundleDir) : BundleDir := { x with width := 2, oldest := x.nextSeq, replays := 0 }

/-- Flits queued for the crossings of a neighbour bundle are discarded. -/
def State.dropCrossings (s : State) (b : Nat) : State :=
  let dies := bundleDies b
  let cores := SMap.mapV {} s.cores fun c k =>
    let port := if c / 80 == dies.1 && c % 80 / 40 == 1 && c % 5 == 4 then some 1
      else if c / 80 == dies.2 && c % 80 / 40 == 0 && c % 5 == 0 then some 3 else none
    match port with
    | some p => { k with router := { k.router with crossQ := SMap.keep k.router.crossQ fun key _ => key / 4 != p } }
    | none => k
  { s with cores := cores }

/-- The rectangle of a launch spans a neighbour bundle. -/
def State.spansBundle (s : State) (l : Launch) (b : Nat) : Bool :=
  let cs := s.launchCores l
  let dies := bundleDies b
  cs.any (fun c => c / 80 == dies.1) && cs.any fun c => c / 80 == dies.2

/-- A bundle is lost. -/
def State.loseBundle (s : State) (b : Nat) : State :=
  let x := s.bundle b
  let data := leBytes 1 b ++ leBytes 1 0
  let s1 := s.setBundle b { x with d0 := x.d0.lose, d1 := x.d1.lose }
  if b < 6 then
    let s2 := if s.sys.state = 1 then s1.warn { code := 0x0403, severity := 1, data }
      else
        let s3 := (s1.dropCrossings b).warn { code := 0x0403, severity := 3, data }
        (s3.work.launches.filter fun l => l.pending && s3.spansBundle l b).foldl (fun s l =>
          s.stopLaunch l.id (verdictAborted 0x22) (verdictAborted 0x22)) s3
    s2.lcCheck b
  else ((s1.abortRunning 0x22).deviceError { code := 0x0403, severity := 3, cause := 4, data }).lcCheck b

/-- BUNDLE_LOST. -/
def execBundleLost (b : BundleIdx) (s : State) : Host.Outcome State Fault Refusal :=
  .next (if (s.bundle b).d0.width = 2 && (s.bundle b).d1.width = 2 then s else s.loseBundle b)

/-- A lane test found both tracks of a pair bad, in a direction that was not lost before. -/
def State.lostBy (s : State) (before : State) (b : Nat) : Bool :=
  let x := s.bundle b
  let y := before.bundle b
  (x.d0.width == 2 && y.d0.width != 2) || (x.d1.width == 2 && y.d1.width != 2)

/-- BUNDLE_RETRAIN: eight consecutive replays from one sequence number (R323). -/
def execBundleRetrain (b : BundleIdx) (s : State) : Host.Outcome State Fault Refusal :=
  let x := s.bundle b
  .next (if !x.trained || x.retraining || x.d0.width == 2 || (decide (x.d0.replays < 8) && decide (x.d1.replays < 8)) then s
  else
    let dir := decide (x.d0.replays < 8)
    (s.setBundle b { x with retraining := true, d0 := x.d0.count 0x128 1, d1 := x.d1.count 0x128 1 }).warn
      { code := 0x0404, severity := 1, data := leBytes 1 b ++ leBytes 1 (bit dir) })

/-- BUNDLE_RETRAIN_DONE: the wires are selected anew and both senders resume with their oldest unacknowledged flit. -/
def execBundleRetrainDone (b : BundleIdx) (bad : List BadWire) (s : State) : Host.Outcome State Fault Refusal :=
  let x := s.bundle b
  .next (if !x.retraining then s
  else
    let fresh := fun (y : BundleDir) => { y with replays := 0, nakSent := false }
    let x1 := (x.replay false x.d0.oldest).replay true x.d1.oldest
    let s1 := s.setBundle b { x1 with retraining := false, d0 := fresh x1.d0, d1 := fresh x1.d1 }
    let found := bad.map BadWire.key
    let s2 := (s1.laneTest b false found).laneTest b true found
    if s2.lostBy s b then s2.loseBundle b else s2)

/-! The seam (R318). -/

/-- SEAM_UE. -/
def execSeamUe (d : DieIdx) (s : State) : Host.Outcome State Fault Refusal :=
  .next (s.deviceError { code := 0x030A, severity := 3, source := 1, unit := d.val, data := leBytes 1 d.val })

/-! Arbiters (R330 to R337). -/

/-- PORT_CUTOFF: requester `r` held the port (R334). A second cut-off within 1 s is a device error; the reason of the aborts is
one of R389's, the spec does not say which (assumption 3). -/
def execPortCutoff (p : ArbId) (r : Fin 64) (s : State) : Host.Outcome State Fault Refusal :=
  let key := arbKey p
  let a := s.arb key
  let now := s.time.beats
  let last := SMap.get 0 a.lastCut r.val
  let again := 0 < last && decide (now + 1 < last + 1000000)
  let data := leBytes 8 (arbBase p) ++ leBytes 1 r.val
  .next (if (arbInfo key).2.1 ≤ r.val || a.cutoff.getLsbD r then s
  else
    let mask : DWord := BitVec.ofNat 64 (2 ^ r.val)
    let cut : Arb := { a with cutoff := a.cutoff ||| mask, stuck := if again then a.stuck ||| mask else a.stuck,
                              lastCut := SMap.set 0 a.lastCut r.val (now + 1) }
    let s1 := s.setArb key cut
    if again then
      let f := s1.draw 2
      (f.2.abortRunning (0x20 + f.1.toNat)).deviceError { code := 0x0406, severity := 3, data }
    else s1.warn { code := 0x0405, severity := 1, data })

/-- ARB_CUTOFF_CLEAR: Valac clears the bit after logging; a bit of a repeated cut-off stays. -/
def execArbCutoffClear (p : ArbId) (r : Fin 64) (s : State) : Host.Outcome State Fault Refusal :=
  let key := arbKey p
  let a := s.arb key
  .next (s.setArb key { a with cutoff := a.cutoff &&& (~~~(BitVec.ofNat 64 (2 ^ r.val)) ||| a.stuck) })

/-- ARB_CTRL.clear (R337). -/
def State.arbCtrlClear (s : State) (p : ArbId) (v : Word) : State :=
  if clears v then s.setArb (arbKey p) { s.arb (arbKey p) with counters := [] } else s
def execArbCtrlClear (p : ArbId) (v : Word) (s : State) : Host.Outcome State Fault Refusal := .next (s.arbCtrlClear p v)

/-- BND_CNT_CLEAR of a port block (R336). -/
def State.bndCntClear (s : State) (p : BndPort) (v : Word) : State :=
  match portBundle p with
  | some (b, d) => if clears v then s.setBundle b ((s.bundle b).updDir d fun y => { y with counters := [] }) else s
  | none => s
def execBndCntClear (p : BndPort) (v : Word) (s : State) : Host.Outcome State Fault Refusal := .next (s.bndCntClear p v)

/-- ARB_WAIT_LIMIT, unless a latency-critical launch is pending or running (R335). -/
def State.arbWaitLimitWrite (s : State) (p : ArbId) (v : Word) : State :=
  if s.lcBusy then s else s.setArb (arbKey p) { s.arb (arbKey p) with waitLimit := some (bitsOf v.toNat 0 16) }
def execArbWaitLimitWrite (p : ArbId) (v : Word) (s : State) : Host.Outcome State Fault Refusal := .next (s.arbWaitLimitWrite p v)

/-- ARB_HOLD_LIMIT (R334, R335). -/
def State.arbHoldLimitWrite (s : State) (p : ArbId) (v : Word) : State :=
  if s.lcBusy then s else s.setArb (arbKey p) { s.arb (arbKey p) with holdLimit := bitsOf v.toNat 0 16 }
def execArbHoldLimitWrite (p : ArbId) (v : Word) (s : State) : Host.Outcome State Fault Refusal := .next (s.arbHoldLimitWrite p v)

end Sys2Proof.Machine
end

