-- ==== Sys2Proof/Machine/Homes.lean ====
section
/-!
DEFINITION. The commands of home slices, replica halves, sweeps and write buffers (R160, R174 to R177, R194 to R223).
-/
namespace Sys2Proof.Machine

/-! Errors found in a cache half (R221, R222). -/

/-- Record an uncorrectable error; the first one stands until it is cleared. -/
def Half.noteUe (x : Half) (key kind addr : Nat) : Half :=
  let c := { x with counters := bump x.counters 0x178 1 }
  if x.err.ue then c
  else { c with err := { x.err with ue := true, bank := keyBank key, set := key / 16 % 4096, way := keyWay key, kind, addr } }

/-- A corrected error. -/
def Half.noteCe (x : Half) : Half := { x with counters := bump x.counters 0x170 1, err := { x.err with ce := true } }

/-- An uncorrectable data sector: invalid when it is clean, poisoned when it is dirty or holds accumulators. -/
def CLine.spoil (l : CLine) (k : Nat) : CLine :=
  if l.state = .accumulate || l.merging || l.dirty.getLsbD k then { l with poison := l.poison ||| sectorBit k }
  else { l with valid := l.valid &&& ~~~(sectorBit k) }

/-- What the check of a line finds, applied to the way `key`. -/
def State.checkLine (s : State) (h key : Nat) (e : Ecc) : State :=
  let x := s.half h
  let l := x.line key
  match e with
  | .good => s
  | .corrected => s.setHalf h x.noteCe
  | .oneTag => s.setHalf h (x.noteUe key 1 l.addr)
  | .badSector k =>
    if l.state = .accumulate || l.valid.getLsbD k then
      let a := l.addr + 32 * k.val
      (s.setHalf h ((x.noteUe key 0 a).setLine key (l.spoil k))).warn
        { code := 0x0301, severity := 1, source := 1, unit := h / 2, data := leBytes 8 a }
    else s
  | .bothTags =>
    let s1 := (s.setHalf h (x.noteUe key 2 0)).removalEndsResv l.addr
    (s1.emptyWay h key).deviceError
      { code := 0x0302, severity := 3, source := 1, unit := h / 2,
        data := leBytes 1 h ++ leBytes 1 (keyBank key) ++ leBytes 2 (key / 16 % 4096) }

/-! Requests at their home. -/

/-- The request stands before its home and nothing goes before it. -/
def State.atHome (s : State) (rid : Nat) (kind : Req → Bool) : Bool :=
  match s.req rid with
  | some r => r.place == .home && r.kind == .module && addrClass r.addr != .tier3 && kind r && s.turnOf r
  | none => false

def Req.isLoad (r : Req) : Bool :=
  match r.op with
  | .load _ _ _ _ _ _ | .ldk _ _ | .dmaRead _ _ _ _ | .hostRead _ _ => true
  | _ => false
def Req.isWrite (r : Req) : Bool := match r.op with | .write _ => true | _ => false
def Req.isAtomic (r : Req) : Bool := match r.op with | .atomic _ _ _ _ _ => true | _ => false
def Req.isReduce (r : Req) : Bool := match r.op with | .reduce _ _ _ => true | _ => false
def Req.isLdres (r : Req) : Bool := match r.op with | .ldres _ _ _ _ => true | _ => false
def Req.isStcond (r : Req) : Bool := match r.op with | .stcond _ _ _ _ => true | _ => false
def Req.isRange (r : Req) : Bool := match r.op with | .range _ => true | _ => false

/-- Present a request to its home, when it is one of `kind`. -/
def State.present (s : State) (rid : Nat) (kind : Req → Bool) : State :=
  if s.atHome rid kind then State.settle (s.homeServe rid true) else s

/-- HOME_LOAD: `e` is what the check of the line finds. -/
def execHomeLoad (rid : Nat) (e : Ecc) (s : State) : Host.Outcome State Fault Refusal :=
  let kind := fun (r : Req) => r.isLoad && r.type != .device
  .next (if !s.atHome rid kind then s
  else match s.req rid with
  | some r =>
    let h := s.homeOf r.addr
    match (s.half h).homeWay r.addr with
    | some key =>
      if ((s.half h).line key).transient then s.present rid kind
      else
        let s1 := s.checkLine h key e
        if e = .bothTags then s1 else s1.present rid kind
    | none => s.present rid kind
  | none => s)

def execHomeWrite (rid : Nat) (s : State) : Host.Outcome State Fault Refusal :=
  .next (s.present rid fun r => r.isWrite && r.type != .device)
def execHomeAtomic (rid : Nat) (s : State) : Host.Outcome State Fault Refusal := .next (s.present rid Req.isAtomic)
def execHomeReduction (rid : Nat) (s : State) : Host.Outcome State Fault Refusal := .next (s.present rid Req.isReduce)
def execHomeLdres (rid : Nat) (s : State) : Host.Outcome State Fault Refusal := .next (s.present rid Req.isLdres)
def execHomeStcond (rid : Nat) (s : State) : Host.Outcome State Fault Refusal := .next (s.present rid Req.isStcond)
def execHomeDeviceAccess (rid : Nat) (s : State) : Host.Outcome State Fault Refusal :=
  .next (s.present rid fun r => (r.isLoad || r.isWrite) && r.type == .device)
def execHomeRangeLineOp (rid : Nat) (s : State) : Host.Outcome State Fault Refusal := .next (s.present rid Req.isRange)

/-! Fills and repairs (R199, R219, R284). -/

/-- The stripe of an address: 2 KiB in Tier 1, 4 KiB in Tier 2. -/
def stripeLen (a : Nat) : Nat := if addrClass a = .tier1 then 2048 else 4096
def stripeOf (a : Nat) : Nat := a / stripeLen a * stripeLen a

/-- Combine the accumulators of a merging line into its sectors (R219). -/
def State.mergeIn (s : State) (h key : Nat) : State :=
  let l := (s.half h).line key
  if !l.merging then s
  else
    let data := (sectorList l.touched).foldl (fun m k => SMap.putBytes m (32 * k) (redSector l.accOp l.accType l.accs k l.byte)) l.data
    let x := (s.half h).setLine key { l with data, dirty := l.dirty ||| l.touched, accs := [], touched := 0, merging := false, pair := none }
    s.setHalf h (match l.pair with | some j => x.setLine j {} | none => x)

/-- The fetched sectors are in place: merge, and serve the waiters. -/
def State.fillDone (s : State) (h key : Nat) : Served := (s.mergeIn h key).releaseLine h key

/-- The repair engine of the half works on the stripe, or will. -/
def Half.repairing (x : Half) (stripe : Nat) : Bool :=
  (match x.repair with | some r => r.stripe == stripe | none => false) || x.repairQ.any fun r => r.stripe == stripe

/-- The twin can serve a copy. -/
def State.twinServes (s : State) : Bool := s.twin.state == .paired

/-- Ask the twin for every sector of a copy, from the tag `s.twin.nextTag` on (R483). -/
def State.askTwin (s : State) (base n : Nat) : State :=
  let tag := s.twin.nextTag
  let s1 := (List.range n).foldl (fun s i => s.sendRecord 8 0 (base + 32 * i) (leBytes 4 ((tag + i) % 2 ^ 32) ++ leBytes 4 0)) s
  { s1 with twin := { s1.twin with nextTag := (tag + n) % 2 ^ 32 } }

/-- The address of the stripe in a copy of its source. -/
def Repair.copyAddr (r : Repair) (x : ReloadSource) : Option (Bool × Nat) :=
  (x.copies[r.copy]?).map fun c => (c.1, c.2 + (r.stripe - x.base))

/-- Lines of a half that wait for the repair of a stripe. -/
def Half.heldBy (x : Half) (stripe : Nat) : List Nat :=
  (x.lines.filter fun e => e.2.state == .hold && e.2.why == .repair && stripeOf e.2.addr == stripe).map (·.1)

/-- Poisoned sectors that memory now holds whole take their bytes from there. -/
def State.refresh (s : State) (h key : Nat) : State :=
  let l := (s.half h).line key
  let good := (sectorList (l.poison &&& ~~~l.dirty)).filter fun k => !s.poisoned (l.addr + 32 * k)
  let l1 := good.foldl (fun (l : CLine) k =>
    { l with data := SMap.putBytes l.data (32 * k) (s.memBytes (l.addr + 32 * k) 32), poison := l.poison &&& ~~~(sectorBit k) }) l
  s.putLine h key l1

/-- The waiters of a stripe's held lines are served. -/
def State.releaseStripe (s : State) (h stripe : Nat) : Served :=
  ((s.half h).heldBy stripe).foldl (fun (acc : Served) key =>
    let m := (acc.1.refresh h key).fillDone h key
    (m.1, acc.2 ++ m.2)) (s, [])

/-- Every copy has failed: the sectors stay poisoned (R285). -/
def State.repairFails (s : State) (h : Nat) (r : Repair) : Served :=
  let s1 := s.setHalf h { s.half h with repair := none }
  (s1.warn { code := 0x0305, severity := 1, source := 1, unit := h / 2, data := leBytes 8 r.stripe }).releaseStripe h r.stripe

/-- Begin the copies of a repair from number `r.copy` on: a copy on a twin that cannot serve fails at once. -/
def State.tryCopy (s : State) (h : Nat) (r : Repair) : Nat → Served
  | 0 => s.repairFails h r
  | n + 1 =>
    match SMap.get none s.store.reloads r.source with
    | none => s.repairFails h r
    | some x =>
      match r.copyAddr x with
      | none => s.repairFails h r
      | some (true, a) =>
        if s.twinServes then
          let k := r.len / 32
          let run : Repair := { r with tag := s.twin.nextTag, left := List.range k, data := [], failed := false }
          ((s.askTwin a k).setHalf h { s.half h with repair := some run }, [])
        else s.tryCopy h { r with copy := r.copy + 1 } n
      | some (false, _) => (s.setHalf h { s.half h with repair := some { r with left := [], data := [], failed := false } }, [])

/-- Start the next repair that waits, when the engine is free; failing ones are passed over. -/
def State.nextRepair (s : State) (h : Nat) : Nat → Served
  | 0 => (s, [])
  | n + 1 =>
    match (s.half h).repair, (s.half h).repairQ with
    | none, r :: rest =>
      let m := (s.setHalf h { s.half h with repairQ := rest }).tryCopy h r 3
      let k := m.1.nextRepair h n
      (k.1, m.2 ++ k.2)
    | _, _ => (s, [])

/-- Queue a repair of the stripe of an address that source `src` covers. -/
def State.startRepair (s : State) (h a src : Nat) : Served :=
  let stripe := stripeOf a
  if (s.half h).repairing stripe then (s, [])
  else
    let r : Repair := { stripe, len := stripeLen a, source := src, copy := 0, tag := 0, left := [], data := [], failed := false }
    let s1 := s.setHalf h { s.half h with repairQ := (s.half h).repairQ ++ [r] }
    s1.nextRepair h ((s1.half h).repairQ.length + 1)

/-- The active repair has its copy: every poisoned sector of the stripe is rewritten (R284 steps 3 to 5). -/
def State.repairDone (s : State) (h : Nat) (r : Repair) (bytes : Nat → List Byte) : Served :=
  let bad := (List.range (r.len / 32)).filter fun i => s.poisoned (r.stripe + 32 * i)
  let s1 := bad.foldl (fun (s : State) i =>
    let a := r.stripe + 32 * i
    let m := s.ctrlOf a
    let s1 := (s.putMem a (bytes i)).setPoison a false
    s1.setCtrl m { s1.ctrl m with counters := bump (s1.ctrl m).counters 0x140 1 }) s
  let s2 := (s1.setHalf h { s1.half h with repair := none }).note
    { code := 0x0304, severity := 0, source := 1, unit := h / 2, cause := r.copy + 1, data := leBytes 8 r.stripe }
  let m := s2.releaseStripe h r.stripe
  let k := m.1.nextRepair h ((m.1.half h).repairQ.length + 1)
  (k.1, m.2 ++ k.2)

/-- The active copy has failed: the next one, or the end (R285). -/
def State.repairNextCopy (s : State) (h : Nat) (r : Repair) : Served :=
  let m := (s.setHalf h { s.half h with repair := none }).tryCopy h { r with copy := r.copy + 1 } 3
  let k := m.1.nextRepair h ((m.1.half h).repairQ.length + 1)
  (k.1, m.2 ++ k.2)

/-- REPAIR_COMPLETE: the read of a Tier 3 copy has ended, whole or not. -/
def execRepairComplete (h : HalfIdx) (ok : Bool) (s : State) : Host.Outcome State Fault Refusal :=
  .next (match (s.half h).repair with
  | none => s
  | some r =>
    match (SMap.get none s.store.reloads r.source).bind r.copyAddr with
    | some (false, a) =>
      if ok then State.settle (s.repairDone h r fun i => s.flashBytes (a + 32 * i) 32) else State.settle (s.repairNextCopy h r)
    | some (true, _) => s
    | none => State.settle (s.repairNextCopy h r))

/-- SECTORS_ARRIVE: the oldest fetch answered for the line at `line` reaches its home. -/
def execSectorsArrive (line : Nat) (e : Ecc) (s : State) : Host.Outcome State Fault Refusal :=
  let a := lineOf line
  let m := s.ctrlOf a
  let h := s.homeOf a
  .next (match (s.ctrl m).done.find? (fun d => d.1 == a), (s.half h).homeWay a with
  | some d, some key =>
    let l := (s.half h).line key
    if l.state != .fill then s
    else
      let data := (sectorList d.2.1).foldl (fun mp k => SMap.putBytes mp (32 * k) (SMap.getBytes d.2.2.1 (32 * k) 32)) l.data
      let s1 := s.setCtrl m { s.ctrl m with done := (s.ctrl m).done.erase d }
      let s2 := s1.putLine h key { l with data, valid := l.valid ||| d.2.1, poison := l.poison ||| d.2.2.2, fetch := 0 }
      let s3 := if e = .bothTags || e = .oneTag then s2 else s2.checkLine h key e
      match s3.reloadAt a with
      | some (src, _) =>
        if d.2.2.2 != 0 || (s3.half h).repairing (stripeOf a) then
          let s4 := s3.putLine h key { (s3.half h).line key with state := .hold, why := .repair }
          State.settle (s4.startRepair h a src)
        else State.settle (s3.fillDone h key)
      | none => State.settle (s3.fillDone h key)
  | _, _ => s)

/-! Replicas (R203 to R208). -/

/-- The replica half of a request's die allocates a way for its line, when the partition has one; the victim leaves. -/
def State.allocReplica (s : State) (hr : Nat) (r : Req) : State :=
  let fresh := fun (s : State) (k : Nat) => (s.putLine hr k { r.newLine .rfill with waiters := [r.id] }).touch hr k
  match s.chooseWay hr r.part r.addr true [] with
  | .empty k => fresh s k
  | .victim k => fresh (s.dropReplica hr k) k
  | .none => s

/-- A load or prefetch is served from a replica. -/
def State.replicaServe (s : State) (hr key : Nat) (r : Req) : Served :=
  let l := (s.half hr).line key
  let s1 := (s.cacheCount hr r.part 0x128 1).touch hr key
  if r.op.consumes && (sectorsOf r.op.offsets &&& l.poison) != 0 then (s1.dropReq r.id, r.fault fkPoison 0 0)
  else ((if r.isLoad then s1.deliverLoad r l.byte else s1).dropReq r.id, [])

/-- REPLICA_LOOKUP. -/
def execReplicaLookup (rid : Nat) (s : State) : Host.Outcome State Fault Refusal :=
  .next (match s.req rid with
  | none => s
  | some r =>
    if r.place != .replica || !s.turnOf r then s
    else
      let hr := s.replicaHalf r.die r.addr
      match s.homeCheck r with
      | some kind => State.settle (s.dropReq rid, if r.op == .range .prefetch then [] else r.fault kind 0 0)
      | none =>
        match (s.half hr).replicaWay r.addr with
        | some key =>
          let l := (s.half hr).line key
          if l.state = .replica then State.settle (s.replicaServe hr key r)
          else if l.waiters.contains rid then s
          else (s.putLine hr key { l with waiters := l.waiters ++ [rid] }).place rid .waiting
        | none => (s.allocReplica hr r).place rid .home)

/-- FORWARD_RECEIVE: the sharer sends the line to the requester's replica half or core, or returns a forward miss. -/
def execForwardReceive (rid : Nat) (s : State) : Host.Outcome State Fault Refusal :=
  .next (match s.req rid with
  | none => s
  | some r =>
    match r.place with
    | .forwarded d =>
      let hs := s.replicaHalf d r.addr
      match (s.half hs).replicaWay r.addr with
      | some key =>
        let l := (s.half hs).line key
        if l.state != .replica then s
        else match s.fillingReplica r with
        | some _ => if r.isLoad then (s.sendReplica r l).place rid .replica else (s.sendReplica r l).dropReq rid
        | none =>
          if r.op.consumes && (sectorsOf r.op.offsets &&& l.poison) != 0 then State.settle (s.dropReq rid, r.fault fkPoison 0 0)
          else (if r.isLoad then s.deliverLoad r l.byte else s).dropReq rid
      | none => s.place rid .missed
    | _ => s)

/-- FORWARD_MISS: the home serves the request itself, and then its waiters. -/
def execForwardMiss (rid : Nat) (s : State) : Host.Outcome State Fault Refusal :=
  .next (match s.req rid with
  | none => s
  | some r =>
    let h := s.homeOf r.addr
    if r.place != .missed then s
    else match (s.half h).homeWay r.addr with
    | none => State.settle (s.homeServe rid false)
    | some key =>
      let l := (s.half h).line key
      let s1 := if l.state = .hold then s.putLine h key { l with state := l.rest, why := .none, waiters := [] } else s
      let m := s1.homeServe rid false
      let k := if l.state = .hold then m.1.serveAll l.waiters else (m.1, [])
      State.settle (k.1, m.2 ++ k.2))

/-- REPLICA_FILL_ARRIVE: the waiting loads receive the line; it stays unless an invalidation came first. -/
def execReplicaFillArrive (d : DieIdx) (line : Nat) (s : State) : Host.Outcome State Fault Refusal :=
  let a := lineOf line
  let hr := s.replicaHalf d a
  .next (match (s.half hr).replicaWay a with
  | none => s
  | some key =>
    let l := (s.half hr).line key
    if l.state != .rfill || l.valid != 0xF then s
    else
      let s1 := if l.doomed then s.putLine hr key {}
        else (s.putLine hr key { l with state := .replica, waiters := [] }).cacheCount hr l.part 0x130 1
      let m := l.waiters.foldl (fun (acc : Served) id =>
        match acc.1.req id with
        | some r =>
          if r.op.consumes && (sectorsOf r.op.offsets &&& l.poison) != 0 then (acc.1.dropReq id, acc.2 ++ r.fault fkPoison 0 0)
          else ((if r.isLoad then acc.1.deliverLoad r l.byte else acc.1).dropReq id, acc.2)
        | none => acc) (s1, [])
      State.settle m)

/-- No way of die `d`'s replica half holds the line. -/
def State.noReplica (s : State) (d a : Nat) : Bool := ((s.half (s.replicaHalf d a)).replicaWay a).isNone

/-- REPLICA_FILL_ACK: the home of a forwarded line learns that the fill has arrived, and the line leaves HOLD. -/
def execReplicaFillAck (d : DieIdx) (line : Nat) (s : State) : Host.Outcome State Fault Refusal :=
  let a := lineOf line
  let h := s.homeOf a
  .next (match (s.half h).homeWay a with
  | none => s
  | some key =>
    let l := (s.half h).line key
    let hr := s.replicaHalf d a
    let filling := match (s.half hr).replicaWay a with | some k => ((s.half hr).line k).state == .rfill | none => false
    let open_ := s.fab.reqs.any fun r => lineOf r.addr == a && r.kind == .module &&
      (match r.place with | .forwarded _ => true | .missed => true | _ => false)
    if l.state = .hold && l.why = .forward d.val && !filling && !open_ then State.settle (s.releaseLine h key) else s)

/-- REPLICA_INVALIDATE: an invalidation reaches the replica half of a sharer. -/
def execReplicaInvalidate (d : DieIdx) (line : Nat) (s : State) : Host.Outcome State Fault Refusal :=
  let a := lineOf line
  let h := s.homeOf a
  let hr := s.replicaHalf d a
  .next (match (s.half h).homeWay a, (s.half hr).replicaWay a with
  | some key, some k =>
    let l := (s.half h).line key
    match l.why with
    | .invalidate dies => if l.state = .hold && dies.getLsbD d then s.dropReplica hr k else s
    | _ => s
  | _, _ => s)

/-- INVALIDATION_ACK: a sharer's way is empty; after the last one the home goes on. -/
def execInvalidationAck (d : DieIdx) (line : Nat) (s : State) : Host.Outcome State Fault Refusal :=
  let a := lineOf line
  let h := s.homeOf a
  .next (match (s.half h).homeWay a with
  | none => s
  | some key =>
    let l := (s.half h).line key
    match l.why with
    | .invalidate dies =>
      if l.state = .hold && dies.getLsbD d && s.noReplica d a then
        let left := dies &&& ~~~(BitVec.ofNat 8 (2 ^ d.val))
        let s1 := s.putLine h key { l with why := .invalidate left, sharers := l.sharers &&& ~~~(BitVec.ofNat 8 (2 ^ d.val)) }
        if left = 0 then State.settle (s1.holdDone h key) else s1
      else s
    | _ => s)

/-- EVICTION_NOTICE: the home clears the sharer bit of a die whose replica has left. -/
def execEvictionNotice (d : DieIdx) (line : Nat) (s : State) : Host.Outcome State Fault Refusal :=
  let a := lineOf line
  let h := s.homeOf a
  .next (match (s.half h).homeWay a with
  | none => s
  | some key =>
    let l := (s.half h).line key
    if l.sharers.getLsbD d && s.noReplica d a then
      s.putLine h key { l with sharers := l.sharers &&& ~~~(BitVec.ofNat 8 (2 ^ d.val)) }
    else s)

/-! Way masks, replica ways and sweeps (R194 to R197, R223). -/

/-- CACHE_WAYMASK[p] of a half. -/
def State.cacheWaymaskWrite (s : State) (h : HalfIdx) (p : PartIdx) (v : Word) : State :=
  s.setHalf h { s.half h with waymask := SMap.set 0 (s.half h).waymask p (v.setWidth 16) }
def execCacheWaymaskWrite (h : HalfIdx) (p : PartIdx) (v : Word) (s : State) : Host.Outcome State Fault Refusal := .next (s.cacheWaymaskWrite h p v)

/-- Ways whose role changes between two values of n. -/
def roleChanges (a b w : Nat) : Bool := (decide (16 - a ≤ w)) != decide (16 - b ≤ w)

/-- Clear the ways that change their role. -/
def State.clearRoles (s : State) (h : Nat) : State :=
  let x := s.half h
  (x.keys fun k _ => roleChanges x.nReplica x.nNext (keyWay k)).foldl (fun s k => s.clearWay h k) s

/-- Begin a change of replica_ways (R197). -/
def State.setReplicaWays (s : State) (h n : Nat) : State :=
  (s.setHalf h { s.half h with cfgBusy := true, nNext := Nat.min n 8 }).clearRoles h

/-- CACHE_CFG. -/
def State.cacheCfgWrite (s : State) (h : HalfIdx) (v : Word) : State :=
  s.setReplicaWays h (bitsOf v.toNat 0 4)
def execCacheCfgWrite (h : HalfIdx) (v : Word) (s : State) : Host.Outcome State Fault Refusal := .next (s.cacheCfgWrite h v)

/-- An open CACHE_REPLICA_SET ends when no half is busy. -/
def State.replicaSetDone (s : State) : State :=
  match s.opOf 0x0241 with
  | some o => if (List.range 16).any fun h => (s.half h).cfgBusy then s else s.opDone o.id stSuccess false []
  | none => s

/-- CACHE_REPLICA_CHANGE_DONE: every line of a way that changes its role is gone; the new roles apply. -/
def execCacheReplicaChangeDone (h : HalfIdx) (s : State) : Host.Outcome State Fault Refusal :=
  .next (if !(s.half h).cfgBusy then s
  else
    let s1 := s.clearRoles h
    let x := s1.half h
    if (x.keys fun k _ => roleChanges x.nReplica x.nNext (keyWay k)).isEmpty then
      (s1.setHalf h { x with cfgBusy := false, nReplica := x.nNext }).replicaSetDone
    else s1)

/-- Act on the lines that the sweep of a half names. -/
def State.runSweep (s : State) (h : Nat) : State :=
  let x := s.half h
  if x.sweepMode then s.sweepCtx h x.sweepCtx else s.sweepPart h x.sweepPart x.sweepWays

/-- CACHE_SWEEP. -/
def State.cacheSweepStart (s : State) (h : HalfIdx) (v : DWord) : State :=
  let x := s.half h
  if x.sweepBusy then s
  else
    let s1 := s.setHalf h { x with sweepMode := v.getLsbD 30, sweepPart := bitsOf v.toNat 16 8, sweepCtx := bitsOf v.toNat 32 16,
                                   sweepWays := BitVec.ofNat 16 v.toNat, sweepBusy := v.getLsbD 31 }
    if v.getLsbD 31 then s1.runSweep h else s1
def execCacheSweepStart (h : HalfIdx) (v : DWord) (s : State) : Host.Outcome State Fault Refusal := .next (s.cacheSweepStart h v)

/-- Lines that the sweep of a half has not dealt with. -/
def Half.sweepLeft (x : Half) : List Nat :=
  x.keys fun k l =>
    if x.sweepMode then
      l.ctx == x.sweepCtx && (match l.state with
        | .dirty | .replica | .rfill => true
        | .accumulate => !l.second
        | .fill | .hold => l.dirty != 0 || l.merging
        | _ => false)
    else sweepTakes x.sweepPart x.sweepWays k l

/-- SWEEP_COMPLETE: every set has been examined, and what was transient has been dealt with. -/
def execSweepComplete (h : HalfIdx) (s : State) : Host.Outcome State Fault Refusal :=
  .next (if !(s.half h).sweepBusy then s
  else
    let s1 := s.runSweep h
    if (s1.half h).sweepLeft.isEmpty then s1.setHalf h { s1.half h with sweepBusy := false } else s1)

/-! Write buffers and reservations. -/

/-- WRITE_BUFFER_ENTRY_RELEASE: the entry at position `i` leaves for its home (R160). -/
def execWriteBufferEntryRelease (c : CoreIdx) (i : Fin 32) (s : State) : Host.Outcome State Fault Refusal :=
  .next (match (s.core c).wb[i.val]? with
  | some e => s.leaveWb c e
  | none => s)

/-- RESERVATION_TIMEOUT: 2^16 core cycles have passed since the LDRES (R176 item 5). -/
def execReservationTimeout (g : GroupRef) (s : State) : Host.Outcome State Fault Refusal :=
  let x := (s.core g.core).group g.slot
  .next (match x.resv with
  | some r => if 65536 ≤ r.age then s.updCore g.core fun k => k.setGroup g.slot { x with resv := none } else s
  | none => s)

end Sys2Proof.Machine
end

