-- ==== Sys2Proof/Machine/Memc.lean ====
section
/-!
DEFINITION. Memory controllers, menders, needle units, flash controllers and washers (R220, R267 to R285, R287).
-/
namespace Sys2Proof.Machine

def MemCtrl.count (x : MemCtrl) (off n : Nat) : MemCtrl := { x with counters := bump x.counters off n }
def State.memCount (s : State) (m off n : Nat) : State := s.setCtrl m ((s.ctrl m).count off n)

/-- Rows activated by one operation: whether its row is open is not stated, so it is a free value (assumption 3). -/
def State.activates (s : State) (m : Nat) : State :=
  let f := s.draw 1
  f.2.memCount m 0x110 f.1.toNat

/-- What the check of a controller finds in the sector at `a` (R274, R275): an uncorrectable sector is poisoned from then on. -/
def State.checkSector (s : State) (m a : Nat) (e : MemErr) : State :=
  match e with
  | .good => s
  | .corrected => s.setCtrl m { (s.ctrl m).count 0x130 1 with ce := true }
  | .uncorrectable kind =>
    if s.poisoned a then s
    else
      let x := (s.ctrl m).count 0x138 1
      let x1 := if x.ue then x else { x with ue := true, errChan := s.chanOf a, errKind := kind.toNat, errAddr := a }
      ((s.setCtrl m x1).setPoison a true).warn
        { code := 0x0303, severity := 1, source := if m < 24 then 1 else 2, unit := if m < 24 then m / 3 else (m - 24) / 6,
          cause := kind.toNat, data := leBytes 8 a }

/-- Poisoned sectors of a line in memory. -/
def State.poisonMask (s : State) (a : Nat) : BitVec 4 :=
  (List.range 4).foldl (fun m k => if s.poisoned (lineOf a + 32 * k) then m ||| sectorBit k else m) 0

/-- Write some bytes of a line: a whole sector loses its poison, a part of one does not (R276). -/
def State.writeSome (s : State) (a : Nat) (bytes : List (Nat × Byte)) : State :=
  let s1 := bytes.foldl (fun (s : State) e => s.putMemByte (lineOf a + e.1) e.2) s
  (sectorList (wholeSectors (bytes.map (·.1)))).foldl (fun (s : State) k => s.setPoison (lineOf a + 32 * k) false) s1

/-- The check of R280 at a controller, for what no home allocates. -/
def State.ctrlCheck (s : State) (r : Req) : Option Nat := s.homeCheck r

/-- Read bytes without allocation for a request (R155, R199). -/
def State.readUncached (s : State) (r : Req) : Served :=
  let get := fun o => s.memByte (lineOf r.addr + o)
  let bad := sectorsOf r.op.offsets &&& s.poisonMask r.addr
  let s1 := s.dropReq r.id
  match r.op with
  | .hostRead off len =>
    (s1.hostAnswer r ((List.range len).map fun j => get (off + j)) (bad != 0), [])
  | .dmaRead off len dest _ =>
    if bad != 0 then (s1, r.fault fkPoison 0 0)
    else (s1.deliverDma r ((List.range len).map fun j => get (off + j)) dest fun _ => false, [])
  | _ => if bad != 0 then (s1, r.fault fkPoison 0 0) else (s1.deliverLoad r get, [])

/-- Serve one operation of a controller's queue; `e` is what the check finds in its lowest sector. -/
def State.serveMem (s : State) (m : Nat) (op : MemOp) (e : MemErr) : Served :=
  match op with
  | .fetch a mask =>
    let low := (sectorList mask).headD 0
    let s1 := ((s.checkSector m (lineOf a + 32 * low) e).memCount m 0x100 (sectorList mask).length).activates m
    let bytes : SMap Byte := (sectorList mask).foldl (fun mp k => SMap.putBytes mp (32 * k) (s1.memBytes (lineOf a + 32 * k) 32)) []
    (s1.setCtrl m { s1.ctrl m with done := (s1.ctrl m).done ++ [(lineOf a, mask, bytes, mask &&& s1.poisonMask a)] }, [])
  | .write a bytes poison => ((((s.putMem a bytes).setPoison a poison).memCount m 0x108 1).activates m, [])
  | .writePart a bytes rid poison =>
    let s0 := (sectorList poison).foldl (fun (s : State) k => s.setPoison (lineOf a + 32 * k) true) (s.writeSome a bytes)
    let s1 := (s0.memCount m 0x108 (sectorList (sectorsOf (bytes.map (·.1)))).length).activates m
    match s1.req rid with
    | some r => (s1.finishWrite r bytes, [])
    | none => (s1, [])
  | .readFor a rid =>
    match s.req rid with
    | some r =>
      let secs := sectorList (sectorsOf r.op.offsets)
      let s1 := ((s.checkSector m (lineOf a + 32 * secs.headD 0) e).memCount m 0x100 secs.length).activates m
      s1.readUncached r
    | none => (s, [])
  | .mend _ _ _ _ _ => (s, [])

/-- The first operation that is no reduce-writeback and stands behind none of its line (R220). -/
def nextMemOp : List MemOp → List MemOp → Option MemOp
  | _, [] => none
  | before, op :: rest =>
    if !op.isMend && !before.any (fun x => x.isMend && x.line == op.line) then some op else nextMemOp (before ++ [op]) rest

/-- MEMC_REQUEST: the controller serves the oldest request that may go. -/
def execMemcRequest (m : CtrlIdx) (e : MemErr) (s : State) : Host.Outcome State Fault Refusal :=
  .next (match nextMemOp [] (s.ctrl m).queue with
  | some op =>
    let s1 := s.setCtrl m { s.ctrl m with queue := (s.ctrl m).queue.erase op }
    State.settle (s1.serveMem m op e)
  | none => s)

/-- The first reduce-writeback before which nothing of its line stands. -/
def nextMend : List MemOp → List MemOp → Option MemOp
  | _, [] => none
  | before, op :: rest =>
    if op.isMend && !before.any (fun x => x.line == op.line) then some op else nextMend (before ++ [op]) rest

/-- Apply a reduce-writeback sector by sector: read, combine, write; poison stays (R220, R276). -/
def State.mend (s : State) (m : Nat) (op : MemOp) : State :=
  match op with
  | .mend a rop type touched accs =>
    (sectorList touched).foldl (fun (s : State) k =>
      let bytes := redSector rop type accs k fun o => s.memByte (lineOf a + o)
      let s1 := s.putMem (lineOf a + 32 * k) bytes
      ((s1.memCount m 0x128 1).memCount m 0x100 1).memCount m 0x108 1) s
  | _ => s

/-- MENDER_APPLY. -/
def execMenderApply (m : CtrlIdx) (s : State) : Host.Outcome State Fault Refusal :=
  .next (match nextMend [] (s.ctrl m).queue with
  | some op => ((s.setCtrl m { s.ctrl m with queue := (s.ctrl m).queue.erase op }).mend m op).activates m
  | none => s)

/-! The needle path (R267, R268, R280). -/

/-- The request lies in a bucket of its controller. -/
def MemCtrl.bucketed (x : MemCtrl) (id : Nat) : Bool := x.buckets.any fun e => e.2.contains id

/-- NEEDLE_READ: the controller checks the read and puts it into the bucket of its DRAM bank, when that has a place. -/
def execNeedleRead (rid : Nat) (s : State) : Host.Outcome State Fault Refusal :=
  .next (match s.req rid with
  | none => s
  | some r =>
    let m := s.ctrlOf r.addr
    let x := s.ctrl m
    let b := s.dramBank r.addr
    if r.place != .needle || x.bucketed rid || decide (16 ≤ (SMap.get [] x.buckets b).length) then s
    else match s.ctrlCheck r with
    | some kind => State.settle (s.dropReq rid, r.fault kind 0 0)
    | none => s.setCtrl m { x with buckets := SMap.upd [] x.buckets b (· ++ [rid]) })

/-- Insert a request by DRAM row, then arrival. -/
def insertRow (s : State) (r : Req) : List Req → List Req
  | [] => [r]
  | x :: rest => if s.dramRow r.addr < s.dramRow x.addr then r :: x :: rest else x :: insertRow s r rest

/-- NEEDLE_BUCKET_ISSUE: the entries in ascending row order, one burst for each distinct sector. -/
def execNeedleBucketIssue (m : CtrlIdx) (bucket : Nat) (s : State) : Host.Outcome State Fault Refusal :=
  let x := s.ctrl m
  let rs := (SMap.get [] x.buckets bucket).filterMap s.req
  let blocked := rs.any fun r => x.queue.any fun op => op.line == lineOf r.addr &&
    (match op with | .fetch _ _ => false | .readFor _ _ => false | _ => true)
  .next (if rs.isEmpty || blocked then s
  else
    let order := rs.foldl (fun l r => insertRow s r l) []
    let sectors := (order.map fun r => (lineOf r.addr + (match r.op with | .dmaRead off _ _ _ => off | _ => 0)) / 32).eraseDups
    let rows := (order.map fun r => s.dramRow r.addr).eraseDups
    let x1 := ((((x.count 0x118 order.length).count 0x120 sectors.length).count 0x100 sectors.length).count 0x110 rows.length)
    let s1 := s.setCtrl m { x1 with buckets := SMap.set [] x1.buckets bucket [] }
    State.settle (order.foldl (fun (acc : Served) r =>
      let k := acc.1.readUncached r
      (k.1, acc.2 ++ k.2)) (s1, [])))

/-! Flash (R270 to R273, R280, R283). -/

/-- Tier 3 is read-only (R272). -/
def State.tier3ReadOnly (s : State) : Bool := s.fab.flash.any fun e => e.2.readOnly

/-- The ownership check of a flash controller. -/
def State.flashCheck (s : State) (r : Req) : Option Nat :=
  match s.owns r.part r.addr r.op.isWrite true with
  | .foreign => some fkForeign
  | .denied => some fkPermission
  | .pass => if r.op.isWrite && (s.writeProtected r.addr || s.tier3ReadOnly) then some fkPermission else none

/-- FLASH_WRITE_ACCEPT: a whole page is accepted, and a read returns it from then on. -/
def execFlashWriteAccept (rid : Nat) (s : State) : Host.Outcome State Fault Refusal :=
  .next (match s.req rid with
  | none => s
  | some r =>
    match r.op with
    | .write bytes =>
      if r.place != .flash || bytes.length != 16384 || !s.turnOf r then s
      else match s.flashCheck r with
      | some kind => State.settle (s.dropReq rid, r.fault kind 0 0)
      | none => (bytes.foldl (fun (s : State) e =>
          { s with store := { s.store with flash := SMap.set 0 s.store.flash (r.addr - tier3Base + e.1) e.2 } }) s).dropReq rid
    | _ => s)

/-- FLASH_READ_COMPLETE: a page has been read; `badCodewords` marks the 4 KiB codewords that stay uncorrectable. -/
def execFlashReadComplete (rid : Nat) (badCodewords : BitVec 4) (s : State) : Host.Outcome State Fault Refusal :=
  .next (match s.req rid with
  | none => s
  | some r =>
    match r.op with
    | .dmaRead off len dest _ =>
      if r.place != .flash || !s.turnOf r then s
      else match s.flashCheck r with
      | some kind => State.settle (s.dropReq rid, r.fault kind 0 0)
      | none =>
        let bytes := s.flashBytes (r.addr + off) len
        let s1 := if badCodewords = 0 then s
          else s.warn { code := 0x0306, severity := 1, source := 2, unit := (r.addr - tier3Base) / 16384 % 4, data := leBytes 8 r.addr }
        let isTile := match dest with | .tile _ => true | _ => false
        if badCodewords != 0 && isTile then State.settle (s1.dropReq rid, r.fault fkPoison 0 0)
        else (s1.dropReq rid).deliverDma r bytes dest fun j => badCodewords.getLsbD ((off + j) / 4096)
    | _ => s)

/-! The washer (R277, R284). -/

/-- WASHER_SECTOR: one sector homed in the half is read and checked. How far a pass has come is not stated by a sector's
address, so WASH_STATUS takes free values (assumption 3). -/
def execWasherSector (h : HalfIdx) (sector : Nat) (e : MemErr) (s : State) : Host.Outcome State Fault Refusal :=
  let a := sector / 32 * 32
  .next (if (s.locOf a).isNone || s.homeOf a != h.val then s
  else
    let m := s.ctrlOf a
    let was := s.poisoned a
    let s1 := (s.memCount m 0x100 1).checkSector m a e
    let f := s1.draw 10
    let p := f.1.toNat % 1000
    let x := f.2.half h
    let s2 := f.2.setHalf h (if p < x.washProgress then
        { x with washProgress := p, washPasses := (x.washPasses + 1) % 65536, washHours := f.2.store.washHours }
      else { x with washProgress := p })
    if !was && s2.poisoned a then
      match s2.reloadAt a with
      | some (src, _) => State.settle (s2.startRepair h a src)
      | none => s2
    else s2)

/-! Clears of error registers (R7). -/

/-- CACHE_ERR_STATUS: the W1C bits ue_valid and ce_valid. -/
def State.cacheErrStatusClear (s : State) (h : HalfIdx) (v : Word) : State :=
  let x := s.half h
  s.setHalf h { x with err := { x.err with ue := x.err.ue && !v.getLsbD 31, ce := x.err.ce && !v.getLsbD 30 } }
def execCacheErrStatusClear (h : HalfIdx) (v : Word) (s : State) : Host.Outcome State Fault Refusal := .next (s.cacheErrStatusClear h v)

/-- MEMC_ERR_STATUS. -/
def State.memcErrStatusClear (s : State) (m : CtrlIdx) (v : Word) : State :=
  let x := s.ctrl m
  s.setCtrl m { x with ue := x.ue && !v.getLsbD 31, ce := x.ce && !v.getLsbD 30 }
def execMemcErrStatusClear (m : CtrlIdx) (v : Word) (s : State) : Host.Outcome State Fault Refusal := .next (s.memcErrStatusClear m v)

end Sys2Proof.Machine
end

