-- ==== Sys2Proof/Machine/Walk.lean ====
section
/-!
DEFINITION. Page-table walks, ATS, page requests, invalidation, and answers that do not come (R185, R293 to R298, R302 to R311).
-/
namespace Sys2Proof.Machine

/-! The BAR4 windows of the module's own functions (R492, R495, R496). -/

def State.bar4Size (s : State) (fn : Nat) : Nat := 2 ^ (if fn = 0 then s.host.pfSize else s.host.vfSize)

/-- The device physical address of an offset of a function's BAR4; none where it maps to nothing. -/
def State.aperture (s : State) (fn off : Nat) : Option Nat :=
  if fn = 0 then some ((s.host.aperture.toNat + off) % 2 ^ 48)
  else match s.partOfFn fn with
  | none => none
  | some p =>
    let half := s.bar4Size fn / 2
    let t2 := decide (half ≤ off)
    let o := if t2 then off - half else off
    match SMap.get none s.store.regions (if t2 then 64 + p else p) with
    | some x => if o < x.bytes t2 then some (x.base + o) else none
    | none => none

/-- The window that a PCIe address falls into: function and offset. -/
def State.ownWindow (s : State) (a : Nat) : Option (Nat × Nat) :=
  (List.range 65).findSome? fun fn => match SMap.get none s.host.bar4Base fn with
    | some b => if b ≤ a && a < b + s.bar4Size fn then some (fn, a - b) else none
    | none => none

/-- A translated address: module memory or host memory (R297). What a window maps to nothing is a reserved address. -/
def State.classify (s : State) (a : Nat) : OutKind × Nat :=
  match s.ownWindow a with
  | some (fn, o) => (.module, (s.aperture fn o).getD tier1Top)
  | none => (.hostTranslated, a)

/-- A page at `a` of `size` bytes meets a window. -/
def State.meetsWindow (s : State) (a size : Nat) : Bool :=
  (List.range 65).any fun fn => match SMap.get none s.host.bar4Base fn with
    | some b => decide (b < a + size) && decide (a < b + s.bar4Size fn)
    | none => false

/-- One aperture maps the whole page, byte after byte. -/
def State.wholeInWindow (s : State) (a size : Nat) : Bool :=
  match s.ownWindow a with
  | some (fn, o) => decide (size ≤ s.bar4Size fn / 2) &&
      (match s.aperture fn o, s.aperture fn (o + size - 1) with
        | some x, some y => y == x + size - 1
        | _, _ => false)
  | none => false

/-- The cached entry for `va` in a page of `size` bytes at `page` that translates to `pa`: the whole page, or, where a window or a tier ends
within the page, its 4 KiB around `va`, so that one output address and kind serve every byte (R297, R299; assumption 44). -/
def State.pageEntry (s : State) (ctx va page size pa : Nat) (writable : Bool) (attr : Nat) : TlbEntry :=
  let whole := !s.meetsWindow pa size || s.wholeInWindow pa size
  let d := if whole then 0 else (va - page) / 4096 * 4096
  let k := s.classify (pa + d)
  { ctx, va := page + d, size := if whole then size else 4096, out := k.2, kind := k.1, writable, attr, pinned := false }

/-! Writes of Valac and of the walkers to module memory. -/

/-- A write at the home of a line, without a context. -/
def State.moduleWrite (s : State) (a : Nat) (bytes : List Byte) : State :=
  let id := s.fab.nextReq
  let s1 := s.addReq { id := 0, agent := .valac, tag := 0, part := 0, ctx := 0, type := .normal, kind := .module, addr := lineOf a,
                       op := .write (bytes.zipIdx.map fun b => (a % 128 + b.2, b.1)), place := .home, lc := false, waited := 0,
                       site := { slot := 0, pc := 0, active := 0, live := 0 } }
  State.settle (s1.homeServe id true)

/-! The walk (R295, R296). -/

/-- A page-table walk's end. -/
inductive WalkEnd where
  | leaf (va size pa : Nat) (writable : Bool) (attr : Nat) (nx : Bool)
  /-- A cause of R308: not present (0x02), or not writable (0x05). -/
  | ask (cause : Nat)
  | fail (cause : Nat)
deriving DecidableEq, Repr

/-- A bit of an entry; `dflt` where the format gives it no position. -/
def entryBit (dflt : Bool) (pos : Nat) (e : DWord) : Bool := if pos = 0xFF then dflt else e.getLsbD pos

def FormatDesc.adUpdate (f : FormatDesc) : Bool := f.flags.getLsbD 1
/-- A non-last entry is a leaf. -/
def FormatDesc.marksLeaf (f : FormatDesc) (e : DWord) : Bool := entryBit false f.leafBit e == f.flags.getLsbD 2
def FormatDesc.allowsWrite (f : FormatDesc) (e : DWord) : Bool :=
  f.writable == 0xFF || (entryBit true f.writable e != f.flags.getLsbD 3)
def FormatDesc.userOpen (f : FormatDesc) (e : DWord) : Bool := f.user == 0xFF || (entryBit true f.user e != f.flags.getLsbD 4)
/-- The physical address field, in place. -/
def FormatDesc.field (f : FormatDesc) (e : DWord) : Nat := bitsOf e.toNat f.paLow (f.paHigh + 1 - f.paLow) * 2 ^ f.paLow
def FormatDesc.attrOf (f : FormatDesc) (e : DWord) : Nat :=
  f.attr.zipIdx.foldl (fun n a => n + bit (entryBit false a.1 e) * 2 ^ a.2) 0
def setBit (on : Bool) (pos : Nat) (e : DWord) : DWord := if on then e ||| BitVec.ofNat 64 (2 ^ pos) else e

def State.walkCacheOf (s : State) (d : Nat) : List (Nat × Nat × Nat × DWord) := SMap.get [] s.xlat.walkCache d
/-- Keep a non-leaf entry (R299). -/
def State.keepEntry (s : State) (d ctx l pre : Nat) (e : DWord) : State :=
  let x := (ctx, l, pre, e)
  let others := (s.walkCacheOf d).filter fun y => !(y.1 == ctx && y.2.1 == l && y.2.2.1 == pre)
  { s with xlat := { s.xlat with walkCache := SMap.set [] s.xlat.walkCache d ((x :: others).take 256) } }

/-- What a walk asks: context, die of the walker, format, address, for a write. -/
structure WalkJob where
  ctx   : Nat
  die   : Nat
  fmt   : FormatDesc
  va    : Nat
  write : Bool
  /-- The compare-and-swaps on host entries succeed within four restarts (R296). -/
  casOk : Bool
deriving DecidableEq, Repr

/-- Set accessed and dirty of a leaf entry; answers the entry, and whether the leaf counts as present. -/
def State.updateLeaf (s : State) (j : WalkJob) (place : Option Nat) (ea : Nat) (e : DWord) : Bool × DWord × State :=
  let f := j.fmt
  let needA := f.accessed != 0xFF && !e.getLsbD f.accessed
  let needD := j.write && f.dirty != 0xFF && !e.getLsbD f.dirty
  if !needA && !needD then (true, e, s)
  else if !f.adUpdate then (false, e, s)
  else
    let e1 := setBit needD f.dirty (setBit needA f.accessed e)
    match place with
    | some a => (true, e1, s.moduleWrite a (leBytes 8 e1.toNat))
    | none => if j.casOk then (true, e1, s.emit (.entryUpdate ea e1)) else (false, e, s)

/-- The walk from a level on: `entries` are those that the host returns, in order; entries in a BAR4 window are read from the
module's memory, and non-leaf entries from the walk cache when it holds them. -/
def State.walkFrom (j : WalkJob) : List ((Nat × Nat) × Nat) → Nat → Bool → List DWord → State → WalkEnd × State
  | [], _, _, _, s => (.fail 3, s)
  | ((lo, n), l) :: rest, table, writable, entries, s =>
    let f := j.fmt
    let ea := table + 8 * bitsOf j.va lo n
    let pre := j.va / 2 ^ lo
    let cached := if rest.isEmpty then none else (s.walkCacheOf j.die).find? fun y => y.1 == j.ctx && y.2.1 == l && y.2.2.1 == pre
    let place := (s.ownWindow ea).bind fun w => s.aperture w.1 w.2
    let read : Option DWord := match cached with
      | some y => some y.2.2.2
      | none => match s.ownWindow ea with
        | some _ => place.map fun a => BitVec.ofNat 64 (leNat (s.physBytes a 8))
        | none => entries.head?
    let left := if cached.isNone && (s.ownWindow ea).isNone then entries.drop 1 else entries
    match read with
    | none => (.fail 6, s)
    | some e =>
      if !e.getLsbD f.present then (.ask 2, s)
      else if !f.userOpen e then (.fail 4, s)
      else if j.write && !f.allowsWrite e then (.ask 5, s)
      else
        let w := writable && f.allowsWrite e
        if rest.isEmpty || (f.leafLevels.getLsbD l && f.marksLeaf e) then
          let size := 2 ^ lo
          let pa := f.field e
          if !rest.isEmpty && pa % size != 0 then (.fail 3, s)
          else match s.updateLeaf j place ea e with
          | (false, _, s1) => (.ask 2, s1)
          | (true, e1, s1) =>
            let clean := f.dirty != 0xFF && !e1.getLsbD f.dirty
            (.leaf (j.va / size * size) size (pa / size * size) (w && !clean) (f.attrOf e1) (entryBit false f.nx e1), s1)
        else State.walkFrom j rest (f.field e) w left (s.keepEntry j.die j.ctx l pre e)

/-- The whole walk of a context. -/
def State.walk (s : State) (x : Ctx) (j : WalkJob) (entries : List DWord) : WalkEnd × State :=
  if !s.canonical j.ctx j.va then (.fail 1, s)
  else State.walkFrom j (j.fmt.index.take j.fmt.levels).zipIdx x.root true entries s

/-! Rows (R309) and pages of a PIN (R302). -/

def State.sendAts (s : State) (die : Nat) (r : XRow) : State :=
  match s.ctxById r.ctx with
  | some x => if x.ats then (s.xlatCount die 0x130 1).emit (.translationRequest x.fn x.pasid r.va r.write) else s
  | none => s

/-- Die whose walkers serve a row; those of a PIN are counted at D0 (assumption 30). -/
def XRow.die (r : XRow) : Nat := match r.dma with | some d => d.1 / 80 | none => 0

/-- The row fails with a cause: a TRANSLATION fault of its descriptor, or the end of its PIN. -/
def State.failRow (s : State) (n : Nat) (r : XRow) (cause : Nat) : State :=
  match r.dma with
  | some (c, uid) =>
    let s1 := s.setRow n none
    match (s.core c).dmaQ.find? fun e => e.uid == uid with
    | some e => s1.takeFault { core := c, ctx := r.ctx, part := (s.core c).partition, kind := fkTranslation, cause, addr := r.va,
                               site := { slot := e.slot, pc := e.pc, active := e.active, live := e.live } }
    | none => s1
  | none => s.setRow n (some { r with state := .done, pin := r.pin.map fun w => { w with failed := some (stInvalid, r.va) } })

/-- A cause of R308: wait for a page request, or fail when one was sent for this page or none may be. -/
def State.askRow (s : State) (n : Nat) (r : XRow) (cause : Nat) : State :=
  let p := s.pri (match s.ctxById r.ctx with | some x => x.fn | none => 0)
  if r.asked then s.failRow n r cause
  else if p.enabled && !p.stopped then s.setRow n (some { r with state := .waitSlot })
  else s.failRow n r 8

/-- Leaves held by every window. -/
def State.pinnedLeaves (s : State) : Nat :=
  (s.xlat.ctxs.flatMap fun e => e.2.windows.map fun w => w.leaves.length).sum

/-- The row has its leaf: the descriptor goes on, or the PIN goes to its next page. -/
def State.leafRow (s : State) (n : Nat) (r : XRow) (e : TlbEntry) : State :=
  match r.pin with
  | some w =>
    if e.va < w.start || w.last < e.va + e.size then
      s.setRow n (some { r with state := .done, pin := some { w with failed := some (stInvalid, r.va) } })
    else if 1048576 ≤ s.pinnedLeaves + w.leaves.length then
      s.setRow n (some { r with state := .done, pin := some { w with failed := some (stNoResources, r.va) } })
    else
      let w1 : PinWalk := { w with leaves := w.leaves ++ [{ e with pinned := true }] }
      if e.va + e.size = w.last then s.setRow n (some { r with state := .done, pin := some w1 })
      else
        let r1 : XRow := { r with pin := some w1, va := e.va + e.size, asked := false, state := .translate }
        (s.setRow n (some r1)).sendAts r.die r1
  | none =>
    match r.dma with
    | some (c, uid) =>
      let s1 := (s.setRow n none).updCore c fun k => { k with dmaQ := k.dmaQ.map fun x => if x.uid = uid then { x with stall := none } else x }
      (s1.setL2tlb (c / 40) (tlbUse 4096 (s1.l2tlb (c / 40)) e)).useUtlb c true e
    | none => s

/-- WALK_COMPLETE: a walk for row `row` ends. -/
def execWalkComplete (row : Nat) (entries : List DWord) (casOk : Bool) (s : State) : Host.Outcome State Fault Refusal :=
  if 5 < entries.length then .fault (.malformed "WALK_COMPLETE")
  else .next (match s.row row with
  | none => s
  | some r =>
    match s.ctxById r.ctx with
    | none => s
    | some x =>
      if r.state != .translate || x.ats then s
      else
        let j : WalkJob := { ctx := r.ctx, die := r.die, fmt := SMap.get {} s.xlat.formats x.fmt, va := r.va, write := r.write, casOk }
        let m := (s.xlatCount r.die 0x128 1).walk x j entries
        match m.1 with
        | .fail cause => m.2.failRow row r cause
        | .ask cause => m.2.askRow row r cause
        | .leaf va size pa writable attr _ =>
          m.2.leafRow row r (m.2.pageEntry r.ctx r.va va size pa writable attr))

/-- ATS_COMPLETION: a Translation Completion, or its failure on the link (R298). -/
def execAtsCompletion (row : Nat) (ok r w u : Bool) (size : Nat) (addr : DWord) (s : State) : Host.Outcome State Fault Refusal :=
  .next (match s.row row with
  | none => s
  | some x =>
    match s.ctxById x.ctx with
    | none => s
    | some c =>
      if x.state != .translate || !c.ats then s
      else if 0 < x.skip then s.setRow row (some { x with skip := x.skip - 1 })
      else if !ok then s.failRow row x 6
      else if !r then s.askRow row x 2
      else if x.write && !w then s.askRow row x 5
      else
        let n := Nat.max size 4096
        let va := x.va / n * n
        s.leafRow row x (if u then
            { ctx := x.ctx, va, size := n, out := va, kind := .hostUntranslated, writable := w, attr := 0, pinned := false }
          else s.pageEntry x.ctx x.va va n (addr.toNat / n * n) w 0))

/-! Page requests (R308 to R310). -/

/-- The lowest index that no outstanding page request holds. -/
def PriState.freeIdx (p : PriState) : Nat := ((List.range (p.busy.length + 1)).find? fun i => !p.busy.any fun b => b.idx == i).getD 0

/-- PAGE_REQUEST_SEND: an allocation is free for a row that waits for one. -/
def execPageRequestSend (row : Nat) (s : State) : Host.Outcome State Fault Refusal :=
  .next (match s.row row with
  | none => s
  | some r =>
    match s.ctxById r.ctx with
    | none => s
    | some x =>
      let p := s.pri x.fn
      if r.state != .waitSlot || !p.enabled || p.stopped || p.alloc ≤ p.busy.length then s
      else
        let i := p.freeIdx
        let s1 := s.setPri x.fn { p with busy := p.busy ++ [{ idx := i, row, ctx := r.ctx, cancelled := false }] }
        ((s1.setRow row (some { r with state := .waitPri, asked := true })).xlatCount r.die 0x138 1).emit
          (.pageRequest x.fn x.pasid r.va i r.write))

/-- PRI_RESPONSE. -/
def execPriResponse (fn : FnIdx) (prgi : Nat) (code : PrgCode) (s : State) : Host.Outcome State Fault Refusal :=
  let p := s.pri fn
  .next (match p.busy.find? fun b => b.idx == prgi with
  | none => s
  | some b =>
    let stop := p.stopped || (code == .failure && !b.cancelled)
    let s1 := s.setPri fn { p with busy := p.busy.erase b, stopped := stop }
    match (if b.cancelled then none else s.row b.row) with
    | none => s1
    | some r =>
      match code with
      | .success => (s1.setRow b.row (some { r with state := .translate })).sendAts r.die r
      | .invalid => s1.failRow b.row r 7
      | .failure => s1.failRow b.row r 8)

/-- A waiting row fails because no response came; the later response finds nothing. -/
def State.expireRow (s : State) (row : Nat) : State :=
  let hit := fun (b : PageReq) => b.row == row
  let s1 := { s with xlat := { s.xlat with pri := SMap.mapV {} s.xlat.pri fun _ p => { p with busy := p.busy.filter fun b => !hit b } } }
  match s.row row with
  | some r => if r.state == .waitPri then s1.failRow row r 9 else s
  | none => s1

/-- PRI_TIMEOUT: pri_timeout has passed since the row's page request. -/
def execPriTimeout (row : Nat) (s : State) : Host.Outcome State Fault Refusal := .next (s.expireRow row)

/-! Invalidation (R304, R307). -/

/-- Ranges [a, a + n) and [b, b + m) meet. -/
def meets (a n b m : Nat) : Bool := a < b + m && b < a + n

/-- Mark the windows of a context that a range touches, with their events (R304). -/
def State.staleWindows (s : State) (ctx lo len : Nat) : State :=
  match s.ctxById ctx with
  | none => s
  | some x =>
    let hit := fun (w : Window) => meets w.va w.len lo len
    let s1 := s.setCtx (ctxSlot ctx) { x with windows := x.windows.map fun w => if hit w then { w with stale := true } else w }
    (x.windows.filter hit).foldl (fun s w => s.postPart 0x13 x.partition (leBytes 2 ctx ++ List.replicate 6 0 ++ leBytes 8 w.va)) s1

/-- Steps 1 and 2 of R307 for one context. -/
def State.invalidateCtx (s : State) (ctx lo len : Nat) : State :=
  let hit := fun (e : TlbEntry) => e.ctx == ctx && meets e.va e.size lo len
  let cores := SMap.mapV {} s.cores fun _ k => { k with utlb := k.utlb.filter (!hit ·), dtlb := k.dtlb.filter (!hit ·) }
  let l2 := SMap.mapV [] s.xlat.l2 fun _ l => l.filter (!hit ·)
  let wc := SMap.mapV [] s.xlat.walkCache fun _ l => l.filter fun e => e.1 != ctx
  let rows := SMap.mapV none s.xlat.rows fun _ r => r.map fun r =>
    { r with pin := r.pin.map fun w => { w with stale := w.stale || w.leaves.any hit } }
  let s1 := ({ s with cores := cores, xlat := { s.xlat with l2 := l2, walkCache := wc, rows := rows } }).staleWindows ctx lo len
  (s1.xlat.rows.filter fun e => match e.2 with
    | some r => r.ctx == ctx && r.state == .translate && decide (lo ≤ r.va) && decide (r.va < lo + len)
    | none => false).foldl (fun s e => match e.2 with
      | some r =>
        match s.ctxById ctx with
        | some x => if x.ats then (s.setRow e.1 (some { r with skip := r.skip + 1 })).sendAts r.die r else s
        | none => s
      | none => s) s1

/-- Contexts that an Invalidate Request of a function names. -/
def State.invalTargets (s : State) (fn pasid : Nat) (every : Bool) : List Nat :=
  (s.xlat.ctxs.filter fun e => e.2.state != 0 && e.2.fn == fn && (every || e.2.pasid == pasid)).map fun e => e.2.gen * 1024 + e.1

/-- Count an invalidation at every die. -/
def State.countInval (s : State) : State := (List.range 8).foldl (fun s d => s.xlatCount d 0x140 1) s

/-- Step 3 of R307: what the removed entries translated has been transmitted or accepted. -/
def State.invalDrained (s : State) (ctxs : List Nat) (upto : Nat) : Bool :=
  !(s.cores.any fun k => k.2.wb.any fun e => ctxs.contains e.ctx) &&
  !s.fab.reqs.any fun r => decide (r.id < upto) && ctxs.contains r.ctx && r.agent.core.isSome &&
    (match r.place with
      | .home | .replica | .flash => true
      | .host => r.op.isWrite
      | _ => false)

/-- ATS_INVALIDATE_REQUEST. -/
def execAtsInvalidateRequest (fn : FnIdx) (pasid : BitVec 20) (global : Bool) (addr : DWord) (size : Nat) (s : State) :
    Host.Outcome State Fault Refusal :=
  let s1 := (s.invalTargets fn pasid.toNat global).foldl (fun s c => s.invalidateCtx c addr.toNat size) s.countInval
  .next (s1.setPri fn { s1.pri fn with
    inval := (s1.pri fn).inval ++ [{ pasid := pasid.toNat, every := global, addr := addr.toNat, size, upto := s1.fab.nextReq }] })

/-- ATS_INVALIDATE_COMPLETE: the oldest request of the function whose step 3 is done is answered. -/
def execAtsInvalidateComplete (fn : FnIdx) (s : State) : Host.Outcome State Fault Refusal :=
  let p := s.pri fn
  .next (match p.inval.find? fun i => s.invalDrained (s.invalTargets fn i.pasid i.every) i.upto with
  | some i => (s.setPri fn { p with inval := p.inval.erase i }).emit (.invalidateDone fn)
  | none => s)

/-! Answers that do not come (R184 to R186). -/

/-- Retire an access with every other one of its context that waits on the same target. -/
def State.retire (s : State) (r : Req) : State :=
  let gone := fun (x : Req) => x.ctx == r.ctx && x.place == r.place && x.agent.core.isSome
  let ids := (s.fab.reqs.filter gone).map (·.id)
  let syncs := s.twin.syncs.map fun o => match o.rid with
    | some i => if ids.contains i then { o with rid := none } else o
    | none => o
  { s with fab := { s.fab with reqs := s.fab.reqs.filter (!gone ·) }, twin := { s.twin with syncs := syncs } }

/-- TARGET_TIMEOUT. -/
def execTargetTimeout (t : TimeoutRef) (s : State) : Host.Outcome State Fault Refusal :=
  .next (match t with
  | .request rid =>
    match s.req rid with
    | some r =>
      if (r.place == .host || r.place == .twin) && r.agent.core.isSome then State.settle (s.retire r, r.fault fkUnreachable 0 0)
      else if r.place == .twin then
        let w := match s.winAt r.addr with | some x => x.1 | none => 0
        let syncs := s.twin.syncs.map fun o => if o.rid = some rid then { o with rid := none } else o
        (({ s with twin := { s.twin with syncs := syncs } }).dropReq rid).warn
          { code := 0x0705, severity := 1, data := leBytes 8 w ++ leBytes 8 r.addr }
      else s
    | none => s
  | .row row =>
    match s.row row with
    | some r =>
      let p := (s.ctxById r.ctx).bind fun x => s.part x.partition
      if r.dma.isSome && (match p with | some x => x.state == .quiescing | none => false) then s.expireRow row else s
    | none => s)

end Sys2Proof.Machine
end

