-- ==== Sys2Proof/Machine/Power.lean ====
section
/-!
DEFINITION. P-steps, droop, the cap loop, telemetry and thermal limits (R440 to R452, R460, R461).
-/
namespace Sys2Proof.Machine

/-! Halves, partitions and bound groups (R26, R236, R441). -/

/-- The cores of a half, as a rectangle (R16). -/
def halfRect (h : Nat) : Rect := { x0 := 10 * (h / 2 % 4) + 5 * (h % 2), y0 := 8 * (h / 8), w := 5, h := 8 }

/-- Partitions with a core in the half. -/
def State.partsOn (s : State) (h : Nat) : List Nat :=
  (s.rects.filter fun e => match e.2 with | some r => r.overlaps (halfRect h) | none => false).map (·.1)

/-- Halves that a rectangle touches. -/
def Rect.halves (r : Rect) : List Nat := (List.range 16).filter fun h => r.overlaps (halfRect h)

def Kernel.usesMatrix (k : Kernel) : Bool := k.flags.testBit 0
def Kernel.usesMesh (k : Kernel) : Bool := k.flags.testBit 1
def Kernel.bounded (k : Kernel) : Bool := k.flags.testBit 2

/-- The kernel that a launch descriptor or a node names. -/
def State.descKernel (s : State) (desc : List Byte) : Option Kernel := s.kernel (fieldAt desc 0 4)
def State.descMesh (s : State) (desc : List Byte) : Bool := match s.descKernel desc with | some k => k.usesMesh | none => false

/-- Rectangles that running mesh launches hold (R236). -/
def State.meshRects (s : State) : List Rect :=
  (s.work.launches.filter Launch.running).flatMap fun l =>
    match s.rect l.part with
    | none => []
    | some p =>
      match l.graph with
      | none => if s.descMesh l.desc then (p.sub l.desc).toList else []
      | some g => ((s.graphNodes g).zip l.nodes).filterMap fun x =>
          if x.2.phase == .running && s.descMesh x.1 then p.sub x.1 else none

/-- The bound group of a half (R441). -/
def State.boundGroup (s : State) (h : Nat) : List Nat :=
  match s.meshRects.find? fun r => r.halves.contains h with
  | some r => r.halves
  | none =>
    let other := if h % 2 = 0 then h + 1 else h - 1
    if (s.partsOn h).any fun p => (s.partsOn other).contains p then (if h % 2 = 0 then [h, other] else [other, h]) else [h]

/-- The half belongs to a bound group under R236 while its launch runs (R451). -/
def State.meshHeld (s : State) (h : Nat) : Bool := s.meshRects.any fun r => r.halves.contains h

/-! P-steps (R440 to R446). -/

/-- Voltage of a P-step in mV. -/
def stepMv (n : Nat) : Nat := if 15 ≤ n then 580 else 800 - 15 * n
/-- Period of a P-step in fs, rounded up: the clock is 1,900 − 80·n MHz. -/
def stepFs (n : Nat) : Nat := (1000000000 + (1899 - 80 * Nat.min n 15)) / (1900 - 80 * Nat.min n 15)

/-- Go on toward the target: a lower frequency switches at once, unless droop holds it (R442, R446). -/
def Steward.proceed (x : Steward) : Steward :=
  if x.frozen || x.droop then x else { x with fstep := Nat.max x.fstep x.target }

/-- A new target (R442). -/
def Steward.aim (x : Steward) (t : Nat) : Steward :=
  if x.target = t then x
  else
    let start := !x.moving
    let x1 := { x with target := t, fromStep := if start then x.fstep else x.fromStep }
    if x1.fstep = t && x1.voltage = stepMv t then { x1 with moving := false, frozen := false }
    else
      let freeze := start && x.droop
      ({ x1 with moving := true, frozen := x1.frozen || freeze,
                 counters := if freeze then bump x1.counters 0x118 1 else x1.counters }).proceed

/-- The step that a half must hold (R441, R460). -/
def State.requiredStep (s : State) (h : Nat) : Nat :=
  if (s.partsOn h).isEmpty then 15 else Nat.min 15 (Nat.max (s.steward h).capStep (s.steward h).thermStep)

/-- Give a half its target; the halves of a running mesh launch keep theirs (R451). -/
def State.retarget (s : State) (h : Nat) : State :=
  if s.meshHeld h then s else s.setSteward h ((s.steward h).aim (s.requiredStep h))

def State.retargetAll (s : State) : State := (List.range 16).foldl State.retarget s

/-- PSTEP_VOLTAGE_ARRIVED: the slew ends; on a raise the frequency switches now. -/
def execPstepVoltageArrived (h : HalfIdx) (s : State) : Host.Outcome State Fault Refusal :=
  let x := s.steward h
  .next (if !x.moving || x.frozen || x.droop then s
  else s.setSteward h { x with voltage := stepMv x.target, fstep := x.target, moving := false, counters := bump x.counters 0x110 1 })

/-- DROOP_ASSERT: a detector asserts; `overBudget` marks a breach of R445. -/
def execDroopAssert (h : HalfIdx) (overBudget : Bool) (s : State) : Host.Outcome State Fault Refusal :=
  let x := s.steward h
  let freeze := x.moving && !x.frozen
  let c1 := bump x.counters 0x108 1
  let c2 := if freeze then bump c1 0x118 1 else c1
  let s1 := s.setSteward h { x with droop := true, frozen := x.frozen || x.moving, counters := if overBudget then bump c2 0x120 1 else c2 }
  .next (if !overBudget then s1
  else
    let s2 := s1.warn { code := 0x0601, severity := 1, source := 1, unit := h.val / 2, data := leBytes 1 h }
    (s2.boundGroup h).foldl (fun s i =>
      (s.setSteward i { s.steward i with capStep := Nat.min 15 (Nat.max (s.steward i).capStep (s.steward i).thermStep + 1) }).retarget i) s2)

/-- DROOP_DEASSERT: how many cycles were stretched is not stated, so the count grows by a free value (assumption 3). -/
def execDroopDeassert (h : HalfIdx) (s : State) : Host.Outcome State Fault Refusal :=
  let x := s.steward h
  .next (if !x.droop then s
  else
    let f := s.draw 32
    f.2.setSteward h { x with droop := false, counters := bump x.counters 0x100 f.1.toNat })

/-- PSTEP_RESUME: 10 µs have passed since the last detector deasserted; `delayNs` is the delay (R446). -/
def execPstepResume (h : HalfIdx) (delayNs : Nat) (s : State) : Host.Outcome State Fault Refusal :=
  let x := s.steward h
  .next (if !x.frozen || x.droop then s
  else
    let s1 := s.setSteward h ({ x with frozen := false, lastDelay := delayNs % 2 ^ 32 }).proceed
    s1.note { code := 0x0602, severity := 0, source := 1, unit := h.val / 2,
              data := leBytes 1 h ++ leBytes 1 x.fromStep ++ leBytes 1 x.target ++ leBytes 1 0 ++ leBytes 4 delayNs })

/-! Limits and telemetry (R447, R448, R452, R507, R547). -/

/-- The limit in force, in W: the lower of the two roles', and of what the input allows. -/
def Power.limit (p : Power) : Nat :=
  let l := Nat.min p.limitM p.limitC
  match p.inputCap with | some c => Nat.min l c | none => l
/-- The ramp in force, in 0.1 W/µs. -/
def Power.ramp (p : Power) : Nat := Nat.min p.rampM p.rampC

/-- Mean of a list, 0 of none. -/
def meanOf (l : List Nat) : Nat := if l.isEmpty then 0 else l.sum / l.length
/-- PWR_STATUS.power. -/
def Power.mean (p : Power) : Nat := meanOf p.latest

/-- A change of the limit in force leaves the samples before it out of the cap loop (R449). -/
def State.withLimits (s : State) (p : Power) : State :=
  { s with power := if p.limit = s.power.limit then p else { p with samples := [] } }

/-- Twin state as HST_STATUS and GET_STATUS give it. -/
def Twin.code (t : Twin) : Nat := match t.state with | .paired => 1 | .lost => 2 | _ => 0

/-- Highest of the readings of a place, in 0.125 °C. -/
def hottest (temps : List Half16) : Half16 :=
  match temps with
  | [] => 0
  | t :: r => r.foldl (fun m x => if m.toInt < x.toInt then x else m) t

def State.halfTemps (s : State) (h : Nat) : List Half16 := (List.range 8).map fun i => SMap.get 0 (s.steward h).temps i
def State.hubTemps (s : State) (k : Nat) : List Half16 := (List.range 4).map fun i => SMap.get 0 s.power.hubTemps (4 * k + i)

/-- The telemetry window's fields, up to 0x078 (R507). -/
def State.telemetryFields (s : State) : List Byte :=
  leBytes 8 (2 * s.power.updates) ++ leBytes 8 s.now ++ leBytes 8 s.power.energy ++ leBytes 8 (s.power.rinseEnergy / 10) ++
  leBytes 4 s.power.mean ++ leBytes 4 s.power.limit ++ leBytes 2 s.power.ramp ++ leBytes 1 s.sys.state ++ leBytes 1 s.twin.code ++
  leBytes 4 s.power.vin ++ leBytes 4 s.power.iin ++ List.replicate 12 0 ++
  (List.range 16).map (fun h => BitVec.ofNat 8 (s.steward h).fstep) ++
  (List.range 16).flatMap (fun h => leBytes 2 (hottest (s.halfTemps h)).toNat) ++
  (List.range 4).flatMap fun k => leBytes 2 (hottest (s.hubTemps k)).toNat

/-- REGULATOR_SAMPLE: module power in W, input voltage and current. -/
def execRegulatorSample (watts vinMv iinMa : Nat) (s : State) : Host.Outcome State Fault Refusal :=
  let p := s.power
  let integral := p.integral + 100 * watts
  let p1 : Power := { p with latest := (watts :: p.latest).take 10, samples := (watts :: p.samples).take 10, vin := vinMv % 2 ^ 32,
                             iin := iinMa % 2 ^ 32, integral, energy := Nat.max p.energy integral, ahead := decide (integral < p.energy),
                             updates := p.updates + 1 }
  let s1 := { s with power := p1 }
  .next { s1 with power := { p1 with telemetry := s1.telemetryFields } }

/-! The cap loop (R449 to R451). -/

/-- Class of a unit: a partition of the class LC lies on it. -/
def State.unitLc (s : State) (u : List Nat) : Bool :=
  u.any fun h => (s.partsOn h).any fun p => match s.part p with | some x => !x.be | none => false
/-- Slowest P-step that every partition of a unit allows. -/
def State.unitMin (s : State) (u : List Nat) : Nat :=
  u.foldl (fun m h => (s.partsOn h).foldl (fun m p => match s.part p with | some x => Nat.min m x.pstepMin | none => m) m) 15
def State.unitStep (s : State) (u : List Nat) : Nat := u.foldl (fun m h => Nat.max m (s.requiredStep h)) 0
def State.unitTherm (s : State) (u : List Nat) : Nat := u.foldl (fun m h => Nat.max m (s.steward h).thermStep) 0
def State.unitPower (s : State) (u : List Nat) : Nat := (u.map fun h => (s.steward h).estimate).sum

/-- Units with a partition core: each half or bound group once. -/
def State.units (s : State) : List (List Nat) :=
  (((List.range 16).filter fun h => !(s.partsOn h).isEmpty).map s.boundGroup).eraseDups

/-- Insert a unit by falling power. -/
def insertUnit (s : State) (u : List Nat) : List (List Nat) → List (List Nat)
  | [] => [u]
  | v :: r => if s.unitPower v < s.unitPower u then u :: v :: r else v :: insertUnit s u r

/-- Units that can go slower, in the order of R449 (units without partition cores are at P-step 15 already). -/
def State.slowOrder (s : State) : List (List Nat) :=
  let us := s.units.filter fun u => s.unitStep u < 15
  let be := (us.filter fun u => !s.unitLc u && decide (s.unitStep u < s.unitMin u)).foldl (fun l u => insertUnit s u l) []
  let lc := us.filter s.unitLc
  be ++ lc.filter (fun u => s.unitStep u < s.unitMin u) ++ lc.filter (fun u => s.unitMin u ≤ s.unitStep u)

/-- Units that the cap loop holds, in the reverse order; none past a step that throttling holds. -/
def State.fastOrder (s : State) : List (List Nat) :=
  let us := s.units.filter fun u => s.unitTherm u < s.unitStep u
  let lc := us.filter s.unitLc
  let be := (us.filter fun u => !s.unitLc u).foldl (fun l u => insertUnit s u l) []
  lc.filter (fun u => s.unitMin u < s.unitStep u) ++ lc.filter (fun u => s.unitStep u ≤ s.unitMin u) ++ be.reverse

/-- Choose units until their estimated changes reach `goal` (slowing), or stop before they exceed it (speeding up). The
estimates are not stated: free values (assumption 3). -/
def State.chooseUnits (s : State) (slow : Bool) (goal : Nat) : List (List Nat) → Nat → List (Nat × Bool) → List (Nat × Bool) × State
  | [], _, acc => (acc, s)
  | u :: rest, sum, acc =>
    if slow && goal ≤ sum then (acc, s)
    else
      let f := s.draw 16
      let sum1 := sum + f.1.toNat
      if !slow && goal ≤ sum1 then (acc, f.2)
      else f.2.chooseUnits slow goal rest sum1 (acc ++ [(u.headD 0, slow)])

/-- CAP_LOOP. -/
def execCapLoop (s : State) : Host.Outcome State Fault Refusal :=
  let p := s.power
  let m := meanOf p.samples
  .next (if p.samples.isEmpty then s
  else if p.limit < m then
    let r := s.chooseUnits true (m - p.limit) s.slowOrder 0 []
    { r.2 with power := { r.2.power with capQueue := r.1 } }
  else if m + 200 < p.limit then
    let r := s.chooseUnits false (p.limit - 200 - m) s.fastOrder 0 []
    { r.2 with power := { r.2.power with capQueue := r.1 } }
  else { s with power := { p with capQueue := [] } })

/-- The cap loop holds a unit below its preferred step. -/
def State.capHolds (s : State) : Bool := (List.range 16).any fun h => !(s.partsOn h).isEmpty && 0 < (s.steward h).capStep

/-- POWER_CAP when capping begins or ends. -/
def State.capEvents (s : State) : State :=
  let on := s.capHolds
  if on = s.power.capping then s
  else ({ s with power := { s.power with capping := on } }).postBoth 0x22 (leBytes 4 s.power.limit ++ leBytes 1 (bit !on))

/-- CAP_UNIT_CHANGE: the change of the next chosen unit is issued. -/
def execCapUnitChange (s : State) : Host.Outcome State Fault Refusal :=
  .next (match s.power.capQueue with
  | [] => s
  | (h, slow) :: rest =>
    let s1 := { s with power := { s.power with capQueue := rest, cntCapSteps := s.power.cntCapSteps + 1 } }
    let u := s1.boundGroup h
    let step := s1.unitStep u
    let next := if slow then Nat.min 15 (step + 1) else step - 1
    (u.foldl (fun s i => (s.setSteward i { s.steward i with capStep := next }).retarget i) s1).capEvents)

/-- A half runs slower than its partition allows (R450). -/
def State.belowRange (s : State) (p : Nat) : Bool :=
  match s.part p, s.rect p with
  | some x, some r => r.halves.any fun h => x.pstepMin < (s.steward h).fstep
  | _, _ => false

/-! Thermal limits (R461). -/

/-- A reading in 0.125 °C is at least, or at most, a temperature in °C. -/
def hotAt (c : Int) (t : Half16) : Bool := 8 * c ≤ t.toInt
def coolAt (c : Int) (t : Half16) : Bool := t.toInt ≤ 8 * c

def columnHalves (k : Nat) : List Nat := [2 * k, 2 * k + 1, 2 * k + 8, 2 * k + 9]
def hubOfHalf (h : Nat) : Nat := h / 2 % 4

/-- A half's throttling begins or ends, with its entry and event. -/
def State.throttleHalf (s : State) (h : Nat) (on : Bool) : State :=
  if (s.steward h).throttle = on then s
  else
    let s1 := s.setSteward h { s.steward h with throttle := on }
    (s1.note { code := 0x0604, severity := 0, source := 1, unit := h / 2, cause := bit !on, data := leBytes 1 h }).postBoth
      0x21 (leBytes 1 (h / 2) ++ leBytes 1 (bit !on))

/-- THERMAL_SAMPLE: the readings of one place. -/
def execThermalSample (l : SensorLoc) (temps : List (BitVec 16)) (s : State) : Host.Outcome State Fault Refusal :=
  let hot := temps.any (hotAt 95)
  let cool := temps.all (coolAt 92)
  match l with
  | .half h =>
    if temps.length ≠ 8 then .fault (.malformed "THERMAL_SAMPLE")
    else
      let s1 := s.setSteward h { s.steward h with temps := temps.zipIdx.foldl (fun m e => SMap.set 0 m e.2 e.1) [] }
      .next (if hot then s1.throttleHalf h true
      else if cool && !SMap.get false s.power.hubThrottle (hubOfHalf h) then s1.throttleHalf h false else s1)
  | .hub k =>
    if temps.length ≠ 4 then .fault (.malformed "THERMAL_SAMPLE")
    else
      let m := temps.zipIdx.foldl (fun (m : SMap Half16) e => SMap.set 0 m (4 * k.val + e.2) e.1) s.power.hubTemps
      let s1 := { s with power := { s.power with hubTemps := m } }
      let on := if hot then true else if cool then false else SMap.get false s.power.hubThrottle k
      let s2 := { s1 with power := { s1.power with hubThrottle := SMap.set false s1.power.hubThrottle k on } }
      .next (if hot then (columnHalves k).foldl (fun s h => s.throttleHalf h true) s2
      else if cool then (columnHalves k).foldl (fun s h => if (s.halfTemps h).all (coolAt 92) then s.throttleHalf h false else s) s2
      else s2)

/-- THROTTLE_STEP: a half that still reads 95 °C goes one step slower; one that has cooled comes one step back. -/
def execThrottleStep (h : HalfIdx) (s : State) : Host.Outcome State Fault Refusal :=
  let hot := (s.halfTemps h).any (hotAt 95) || (s.hubTemps (hubOfHalf h)).any (hotAt 95)
  let u := s.boundGroup h
  let step := s.unitStep u
  .next (if (s.steward h).throttle && hot then
    u.foldl (fun s i => (s.setSteward i { s.steward i with thermStep := Nat.min 15 (step + 1) }).retarget i) s
  else if !(s.steward h).throttle && 0 < (s.steward h).thermStep then
    u.foldl (fun s i => (s.setSteward i { s.steward i with thermStep := (s.steward i).thermStep - 1 }).retarget i) s
  else s)

end Sys2Proof.Machine
end

