-- ==== Sys2Proof/Machine/Time.lean ====
section
/-!
DEFINITION. Meridian time: beats, measurements, lock, holdover (R401 to R410).
-/
namespace Sys2Proof.Machine

def MerState.code : MerState → Nat
  | .unset => 0
  | .locked => 1
  | .holdover => 2
  | .free => 3

/-- Die counters run from the meridian lock step of a start on (R408, R531, R535). -/
def State.diesRun (s : State) : Bool := s.sys.mainOn && (s.sys.state != 1 || 8 ≤ s.sys.step)

/-- The part of a slew, in 0.1 ns, that one beat takes: at most 200 ppm of 1 µs (R407). -/
def slewPart (slew : Int) : Int := max (-2) (min 2 slew)

/-- A die counter after a beat: corrected by one tick, and set to the master where the master has stepped (R408). -/
def dieAfter (die master : Nat) : Nat :=
  let d := die + 1000
  if d + 2 < master || master + 2 < d then master else if d < master then d + 1 else if master < d then d - 1 else d

/-- The master and the counts that 1 µs moves. -/
def Meridian.beat (m : Meridian) (dies : Bool) : Meridian :=
  let part := slewPart m.slew
  let tenths : Int := 10000 + (m.frac : Int) + part
  let master := m.master + tenths.toNat / 10
  { m with master, frac := tenths.toNat % 10, slew := m.slew - part, beats := m.beats + 1, quiet := m.quiet + 1,
           dies := if dies then (List.range 8).foldl (fun d i => SMap.set 0 d i (dieAfter (SMap.get 0 m.dies i) master)) m.dies else m.dies }

/-- MERIDIAN_BEAT: 1 µs passes (R408). -/
def execMeridianBeat (s : State) : Host.Outcome State Fault Refusal :=
  .next (if s.sys.valacUp then { s with time := s.time.beat s.diesRun } else s)

/-- A new lock state with its entry and event; `lost` is the event's byte (R406). -/
def State.merMove (s : State) (st : MerState) (lost : Nat) : State :=
  let s1 := { s with time := { s.time with state := st, good := 0 } }
  (s1.note { code := 0x0504, severity := 0, cause := st.code, data := leBytes 8 (wrapNat 64 s.time.offset) }).post 0x40 0xFF (leBytes 1 lost)

/-- Correct a measured offset (R407). -/
def State.merCorrect (s : State) (o : Int) : State :=
  if o ≤ 1000000 then { s with time := { s.time with slew := 10 * o } }
  else ({ s with time := { s.time with master := s.time.master + o.toNat, slew := 0 } }).warn
    { code := 0x0501, severity := 1, data := leBytes 8 o.toNat }

/-- A measurement of the source in force (R405 to R407). -/
def State.measure (s : State) (o : Int) : State :=
  let m := s.time
  let near := decide (-100 ≤ o ∧ o ≤ 100)
  let m1 : Meridian := { m with offset := o, quiet := 0, good := if near then m.good + 1 else 0 }
  let s1 := { s with time := m1 }
  match m.state with
  | .unset =>
    if !m.stepped then { s1 with time := { m1 with master := ((m.master : Int) + o).toNat, stepped := true, good := 0 } }
    else if 8 ≤ m1.good then s1.merMove .locked 0
    else s1
  | .locked =>
    let s2 := s1.merCorrect o
    if o < -1000 || 1000 < o then s2.merMove .holdover 1 else s2
  | .holdover =>
    let s2 := s1.merCorrect o
    if 8 ≤ m1.good then s2.merMove .locked 0 else s2
  | .free => s

/-- PTP_MEASUREMENT: an exchange with the master; `arb` marks the ARB timescale (R404). -/
def execPtpMeasurement (offset : Int) (arb : Bool) (s : State) : Host.Outcome State Fault Refusal :=
  .next (if s.time.source != 0 || !s.sys.valacUp then s
  else if arb then s.warn { code := 0x0502, severity := 1, data := leBytes 1 s.time.domain }
  else s.measure offset)

/-- MERIDIAN_MEASUREMENT_LOSS: 2 s without a measurement. -/
def execMeridianMeasurementLoss (s : State) : Host.Outcome State Fault Refusal :=
  .next (if s.time.state == .locked && 2000000 ≤ s.time.quiet then s.merMove .holdover 1 else s)

/-- MERIDIAN_BEAT_LOSS: a device error of the kind of R329; the reason of the aborts is not stated (assumption 3). -/
def execMeridianBeatLoss (d : DieIdx) (s : State) : Host.Outcome State Fault Refusal :=
  let f := s.draw 2
  .next ((f.2.abortRunning (0x20 + f.1.toNat)).deviceError
    { code := 0x0503, severity := 3, source := 1, unit := d.val, data := leBytes 1 d })

end Sys2Proof.Machine
end

