-- ==== Sys2Proof/Machine/Speculum.lean ====
section
/-!
DEFINITION. The speculum link, pairing, mirror windows and the twin's reload reads (R465 to R486).
-/
namespace Sys2Proof.Machine

/-! Flits (R467, R470). -/

def Twin.unacked (t : Twin) : Nat := (t.nextSeq + 65536 - t.oldest) % 65536

/-- SPEC_FLIT_RECEIVE: a data flit, with an acknowledgement for this module's own flits. The uncorrectable codewords behind a bad
flit are a free number (assumption 3). -/
def execSpecFlitReceive (seq : BitVec 16) (crcOk : Bool) (ack : Option (BitVec 16)) (s : State) : Host.Outcome State Fault Refusal :=
  .next (if s.twin.rate = 0 then s
  else
    let t := s.twin
    if crcOk && seq.toNat == t.expected then
      let t1 : Twin := { t with expected := (t.expected + 1) % 65536, nakSent := false }
      let t2 : Twin := match ack with
        | some a => if (a.toNat + 65536 - t.oldest) % 65536 ≤ t.unacked then { t1 with oldest := a.toNat } else t1
        | none => t1
      ({ s with twin := t2 }).specCount 0x200 1
    else
      let f := s.draw 8
      let s1 := if crcOk then s else f.2.specCount 0x210 f.1.toNat
      if t.nakSent then s1
      else ({ s1 with twin := { s1.twin with nakSent := true } }).emit (.specNak t.expected))

/-- SPEC_NAK: resend from the NAKed flit. -/
def execSpecNak (seq : BitVec 16) (s : State) : Host.Outcome State Fault Refusal :=
  let t := s.twin
  .next (if t.rate = 0 || t.unacked < (seq.toNat + 65536 - t.oldest) % 65536 then s
  else s.specCount 0x208 ((t.nextSeq + 65536 - seq.toNat) % 65536))

/-- SPEC_REPLAY_TIMEOUT: 50 µs without progress. -/
def execSpecReplayTimeout (s : State) : Host.Outcome State Fault Refusal :=
  .next (if s.twin.rate = 0 then s else s.specCount 0x208 s.twin.unacked)

def countBits (m : BitVec 18) : Nat := ((List.range 18).filter fun i => m.getLsbD i).length

/-- SPEC_LANE_FAIL: a spare, half rate, or down. Which number names the direction is not stated (assumption 3). -/
def execSpecLaneFail (lane : Fin 18) (s : State) : Host.Outcome State Fault Refusal :=
  .next (if s.twin.rate = 0 then s
  else
    let bad := s.twin.rxBad ||| BitVec.ofNat 18 (2 ^ lane.val)
    let good := 18 - countBits bad
    let s1 := { s with twin := { s.twin with rxBad := bad, rxActive := if 16 ≤ good && !s.twin.halfRate then 16 else if 8 ≤ good then 8 else 0 } }
    if good < 8 then { s1 with twin := { s1.twin with rate := 0 } }
    else if good < 16 && !s.twin.halfRate then
      let f := s1.draw 1
      ({ f.2 with twin := { f.2.twin with halfRate := true } }).warn { code := 0x0702, severity := 1, source := 3, unit := 1, data := leBytes 1 f.1.toNat }
    else s1)

/-! Windows (R475). -/

/-- Offer a window to the twin (a class 3 record). -/
def State.offerWindow (s : State) (w : Nat) : State :=
  let x := s.win w
  s.sendRecord 9 w 0 (leBytes 1 x.mode ++ leBytes 4 x.lag ++ leBytes 8 x.start ++ leBytes 8 x.len)

/-- Both modules hold the window with equal settings and are PAIRED: it becomes ACTIVE. -/
def State.windowTry (s : State) (w : Nat) : State :=
  let x := s.win w
  if x.state = .waiting && s.twin.state = .paired && x.peer = some (x.mode, x.lag, x.start, x.len) then
    s.setWin w { x with state := .active, epoch := 1, fill := 0, closed := none, lagExceeded := false, applied := 0, staged := [],
                        stagedBytes := 0, closedHere := none }
  else s

/-- WINDOW_OFFER: the twin's settings of a window; mode 0 clears it. -/
def execWindowOffer (w : WinIdx) (mode : Fin 3) (lag start len : Nat) (s : State) : Host.Outcome State Fault Refusal :=
  let x := s.win w
  let new := if mode.val = 0 then none else some (mode.val, lag, start, len)
  let changed := new != some (x.mode, x.lag, x.start, x.len)
  let x1 : MirWin := { x with peer := new }
  .next ((s.setWin w (if x.state = .active && changed then { x1 with state := .waiting, staged := [], stagedBytes := 0 } else x1)).windowTry w)

/-! Pairing (R471, R472). -/

def PairState.code : PairState → Nat
  | .unpaired => 0
  | .training => 1
  | .attesting => 2
  | .paired => 3
  | .lost => 4

/-- Every open PAIR ends. -/
def State.endPair (s : State) (status : Nat) : State :=
  (s.valac.ops.filter fun o => o.cmd.opcode == 0x0700).foldl (fun (s : State) o => s.opDone o.id status false []) s

/-- Automatic pairing is due: a pairing identity is set and no hold stands. -/
def State.startTraining (s : State) : State :=
  if s.fw.pairId.isSome && !s.twin.hold && s.twin.state = .unpaired then { s with twin := { s.twin with state := .training } } else s

/-- PAIR_TRAINING_DONE: 16 lanes pass at one rate; the exchange begins with this module's nonce. -/
def execPairTrainingDone (rate : Fin 3) (s : State) : Host.Outcome State Fault Refusal :=
  .next (if (s.twin.state = .training || s.twin.state = .lost) && rate.val ≠ 0 then
    let f := s.draw 256
    let t : Twin := { f.2.twin with state := .attesting, rate := rate.val, rxActive := 16, rxBad := 0, halfRate := false, expected := 0,
                                    nakSent := false, nextSeq := 0, oldest := 0 }
    ({ f.2 with twin := t }).sendRecord 9 0 0 (leBytes 32 f.1.toNat)
  else s)

/-- PAIR_TRAINING_RETRY: no peer answers; `tenSeconds` marks 10 s since an open PAIR. -/
def execPairTrainingRetry (tenSeconds : Bool) (s : State) : Host.Outcome State Fault Refusal :=
  .next (if (s.twin.state = .training || s.twin.state = .lost) && tenSeconds then s.endPair stNotReady else s)

/-- PAIRING_MESSAGE: the peer's proof, as R471 checks it, and whether the peer accepts this module. The cause of a rejection by the
peer alone is not stated (assumption 3). -/
def execPairingMessage (chainOk keyOk versionOk signatureOk peerAccepts : Bool) (secver : Byte) (serial : List Byte) (s : State) :
    Host.Outcome State Fault Refusal :=
  .next (if s.twin.state ≠ .attesting then s
  else
    let failing := if !chainOk then 1 else if !(keyOk && s.fw.pairId.isSome) then 2 else if secver.toNat < s.fw.floor then 3
      else if !versionOk then 4 else if !signatureOk then 5 else 0
    if failing = 0 && peerAccepts then
      let t : Twin := { s.twin with state := .paired, peerSecver := some secver.toNat, ready := false,
                                    lastBeat := s.time.beats, lastHeartbeat := s.now }
      let s1 := (({ s with twin := t }).post 0x30 0xFF (leBytes 1 0)).endPair stSuccess
      let ws := (List.range 64).filter fun w => (s1.win w).state == .waiting
      ws.foldl (fun s w => (s.offerWindow w).windowTry w) s1
    else
      let f := s.draw 3
      let s1 := if failing = 0 then f.2 else s
      let s2 := s1.warn { code := 0x0701, severity := 1, cause := if failing = 0 then 1 + f.1.toNat % 5 else failing, data := padTo 16 serial }
      ({ s2 with twin := { s2.twin with state := .unpaired, hold := true } }).endPair stVerify)

/-! Loss (R479). -/

/-- Repairs that wait for the twin go on to their next copy (R285). -/
def State.failTwinRepairs (s : State) : State :=
  (List.range 16).foldl (fun s h =>
    match (s.half h).repair with
    | some r => match (SMap.get none s.store.reloads r.source).bind r.copyAddr with
      | some (true, _) => State.settle (s.repairNextCopy h r)
      | _ => s
    | none => s) s

/-- Steps 1 to 4 of R479; `lost` posts TWIN_STATE 1 and logs TWIN_LOST. Closed epochs and SYNC records that have arrived are at their
homes already. -/
def State.twinGone (s : State) (lost : Bool) (next : PairState) : State :=
  let s1 := { s with twin := { s.twin with state := next } }
  let s2 := if lost then (s1.note { code := 0x0707, severity := 0, data := leBytes 8 s.twin.lastHeartbeat }).post 0x30 0xFF (leBytes 1 1) else s1
  let windows := SMap.mapV ({} : MirWin) s2.twin.windows fun _ x =>
    if x.state = .active then { x with state := .broken, staged := [], stagedBytes := 0, closed := none, fill := 0, peer := none }
    else { x with peer := none }
  let syncs := s2.twin.syncs.map fun o => { o with dead := true }
  let s3 := ({ s2 with twin := { s2.twin with windows := windows, syncs := syncs, ready := true } }).failTwinRepairs
  s3.post 0x30 0xFF (leBytes 1 2)

/-- TWIN_LOST: no valid heartbeat for 100 µs. -/
def execTwinLost (s : State) : Host.Outcome State Fault Refusal :=
  .next (if s.twin.state = .paired && s.twin.lastBeat + 100 ≤ s.time.beats then s.twinGone true .lost else s)

/-- UNPAIR_NOTICE. -/
def execUnpairNotice (s : State) : Host.Outcome State Fault Refusal :=
  .next (if s.twin.state = .paired then s.twinGone false .unpaired else s)

/-- HEARTBEAT_SEND: every 10 µs. -/
def execHeartbeatSend (s : State) : Host.Outcome State Fault Refusal :=
  .next (if s.twin.rate = 0 then s else s.emit (.heartbeat s.twin.state.code s.time.source s.now))

/-- HEARTBEAT_RECEIVE: `offset` is what its timestamps measure (R405). -/
def execHeartbeatReceive (peerState : Fin 5) (peerSource : Fin 3) (offset : Int) (s : State) : Host.Outcome State Fault Refusal :=
  .next (if s.twin.rate = 0 then s
  else
    let s1 := { s with twin := { s.twin with lastBeat := s.time.beats, lastHeartbeat := s.now, peerSource := peerSource.val } }
    if s.time.source = 1 && s.twin.state = .paired && peerState.val = 3 then s1.measure offset else s1)

/-! Records of the twin (R476, R477, R484). -/

/-- A record outside every ACTIVE window. -/
def State.mirrorStray (s : State) (w line : Nat) : State :=
  (s.specCount 0x228 1).warn { code := 0x0706, severity := 1, data := leBytes 8 w ++ leBytes 8 line }

/-- The line lies in window `w`, which is ACTIVE in the mode. -/
def State.windowTakes (s : State) (w mode line : Nat) : Bool :=
  let x := s.win w
  x.state == .active && x.mode == mode && decide (x.start ≤ line) && decide (line < x.start + x.len)

/-- The request of a mirror write. -/
def mirrorReq (tag line : Nat) (data : List (Nat × Byte)) : Req :=
  { id := 0, agent := .mirror, tag, part := 0, ctx := 0, type := .normal, kind := .module, addr := line, op := .write data,
    place := .home, lc := false, waited := 0, site := { slot := 0, pc := 0, active := 0, live := 0 } }

/-- Serve a request at its home if nothing goes before it; otherwise it waits there. -/
def State.serveNow (s : State) (id : Nat) : State :=
  match s.req id with
  | some r => if s.turnOf r then State.settle (s.homeServe id true) else s
  | none => s

/-- A mirror write at its home. -/
def State.mirrorWrite (s : State) (tag line : Nat) (data : List (Nat × Byte)) : State :=
  (s.addReq (mirrorReq tag line data)).serveNow s.fab.nextReq

/-- EPOCH_WRITE_RECORD: staged for the open epoch. -/
def execEpochWriteRecord (w : WinIdx) (line : Nat) (data : List (Nat × Byte)) (s : State) : Host.Outcome State Fault Refusal :=
  if !(line % 128 == 0 && decide (line < 2 ^ 48) && data.all fun e => decide (e.1 < 128)) then .fault (.malformed "EPOCH_WRITE_RECORD")
  else .next (if s.twin.rate = 0 then s
  else if !s.windowTakes w 2 line then s.mirrorStray w line
  else
    let x := s.win w
    s.setWin w { x with staged := x.staged ++ [(line, data)], stagedBytes := x.stagedBytes + recordBytes data })

/-- SYNC_WRITE_RECORD: performed at the home here, then acknowledged. -/
def execSyncWriteRecord (w : WinIdx) (tag : Word) (line : Nat) (data : List (Nat × Byte)) (s : State) : Host.Outcome State Fault Refusal :=
  if !(line % 128 == 0 && decide (line < 2 ^ 48) && data.all fun e => decide (e.1 < 128)) then .fault (.malformed "SYNC_WRITE_RECORD")
  else .next (if s.twin.rate = 0 then s
  else if !s.windowTakes w 1 line then s.mirrorStray w line
  else s.mirrorWrite tag.toNat line data)

/-- SYNC_ACK: the origin's write is complete. -/
def execSyncAck (tag : Word) (s : State) : Host.Outcome State Fault Refusal :=
  .next (match s.twin.syncs.find? fun o => o.tag == tag.toNat && !o.dead with
  | some o =>
    let s1 := { s with twin := { s.twin with syncs := s.twin.syncs.erase o } }
    match o.rid with
    | some r => s1.dropReq r
    | none => s1
  | none => s)

/-- EPOCH_CLOSE_RECORD: the epoch has arrived whole, and is applied. -/
def execEpochCloseRecord (w : WinIdx) (epoch : Nat) (s : State) : Host.Outcome State Fault Refusal :=
  let x := s.win w
  .next (if s.twin.rate = 0 || x.state ≠ .active || x.mode ≠ 2 || x.closedHere.isSome then s
  else
    let s1 := s.setWin w { x with staged := [], stagedBytes := 0, closedHere := some (epoch, x.staged) }
    if x.staged.isEmpty then (s1.setWin w { s1.win w with applied := epoch, closedHere := none }).sendRecord 5 w epoch []
    else
      let first := s1.fab.nextReq
      let s2 := x.staged.foldl (fun (s : State) e => s.addReq (mirrorReq (2 ^ 32) e.1 e.2)) s1
      (List.range x.staged.length).foldl (fun (s : State) i => s.serveNow (first + i)) s2)

/-- EPOCH_APPLIED: the twin's notice; `withinLag` compares it with the lag bound. -/
def execEpochApplied (w : WinIdx) (epoch : Nat) (withinLag : Bool) (s : State) : Host.Outcome State Fault Refusal :=
  let x := s.win w
  .next (match x.closed with
  | some (e, _) =>
    if e ≠ epoch then s
    else
      let s1 := s.setWin w { x with closed := none, lagExceeded := !withinLag }
      if withinLag then s1 else s1.warn { code := 0x0704, severity := 1, data := leBytes 8 w ++ leBytes 8 epoch }
  | none => s)

/-! Reload reads (R483, R285). -/

/-- A sector reads poisoned at its home. -/
def State.sectorBad (s : State) (a : Nat) : Bool :=
  match (s.half (s.homeOf a)).homeWay a with
  | some k =>
    let l := (s.half (s.homeOf a)).line k
    if l.valid.getLsbD (a % 128 / 32) then l.poison.getLsbD (a % 128 / 32) else s.poisoned a
  | none => s.poisoned a

/-- RELOAD_REQUEST of the twin. -/
def execReloadRequest (tag : Word) (addr : Nat) (s : State) : Host.Outcome State Fault Refusal :=
  let a := addr / 32 * 32
  .next (if s.twin.state ≠ .paired then s
  else if (s.reloadAt a).isSome && !s.sectorBad a then
    (s.sendRecord 6 0 a (leBytes 4 tag.toNat ++ leBytes 4 0 ++ s.physBytes a 32)).specCount 0x230 1
  else s.sendRecord 7 0 a (leBytes 4 tag.toNat ++ leBytes 4 0))

/-- RELOAD_DATA: the twin's answer for one sector, none for a failure record. -/
def execReloadData (tag : Word) (data : Option (List Byte)) (s : State) : Host.Outcome State Fault Refusal :=
  let hit := fun (h : Nat) => match (s.half h).repair with
    | some r =>
      let i := (tag.toNat + 2 ^ 32 - r.tag) % 2 ^ 32
      if r.left.contains i then some (h, r, i) else none
    | none => none
  if (match data with | some b => b.length != 32 | none => false) then .fault (.malformed "RELOAD_DATA")
  else .next (match (List.range 16).findSome? hit with
  | none => s
  | some (h, r, i) =>
    match data with
    | none => State.settle (s.repairNextCopy h r)
    | some b =>
      let r1 : Repair := { r with left := r.left.erase i, data := SMap.putBytes r.data (32 * i) b }
      let s1 := s.setHalf h { s.half h with repair := some r1 }
      if r1.left.isEmpty then State.settle (s1.repairDone h r1 fun j => SMap.getBytes r1.data (32 * j) 32) else s1)

end Sys2Proof.Machine
end

