-- ==== Sys2Proof/Machine/HostPort.lean ====
section
/-!
DEFINITION. The host attachment: BAR4 requests, completions of the module's own requests, configuration requests, the link
and interrupts (R487 to R500, R503).
-/
namespace Sys2Proof.Machine

/-! BAR4 requests (R495 to R497). -/

/-- The parts of [off, off + len) that lie in one line each: offset, displacement in the request, and length. -/
def linePieces (off len : Nat) : List (Nat × Nat × Nat) :=
  let first := off / 128
  let n := (off + len + 127) / 128 - first
  (List.range n).map fun i =>
    let lo := Nat.max off (128 * (first + i))
    let hi := Nat.min (off + len) (128 * (first + i + 1))
    (lo, lo - off, hi - lo)

/-- The cause of R497 under which a function's access of one line is refused; none when it passes. -/
def State.hostCheck (s : State) (fn off : Nat) (write : Bool) : Option Nat :=
  if s.sys.state != 2 then some 1
  else match s.aperture fn off with
  | none => some 2
  | some a =>
    if (match addrClass a with | .tier1 | .tier2 => (s.spot a).isNone | _ => true) then some 2
    else match (if fn = 0 then Own.pass else s.owns ((s.partOfFn fn).getD 64) a write false) with
    | .foreign => some 3
    | .denied => some 4
    | .pass => if write && s.writeProtected a then some 5 else none

/-- The first cause, in the order of R497, among the lines of a request. -/
def State.hostCause (s : State) (fn off len : Nat) (write : Bool) : Option Nat :=
  let found := (linePieces off len).filterMap fun p => s.hostCheck fn p.1 write
  [1, 2, 3, 4, 5].find? fun c => found.contains c

/-- The function is there, and the request lies in its BAR4. -/
def State.bar4Holds (s : State) (fn off len : Nat) : Bool := s.fnEnabled fn && decide (off + len ≤ s.bar4Size fn)

/-- A request of a function for one line, at device physical address `a`. -/
def State.hostReq (s : State) (fn a tag : Nat) (op : ReqOp) (poison : BitVec 4) : Req :=
  { id := 0, agent := .host fn, tag, part := (if fn = 0 then none else s.partOfFn fn).getD 0xFF, ctx := 0, type := .normal,
    kind := .module, addr := lineOf a, op, place := .home, lc := false, waited := 0,
    site := { slot := 0, pc := 0, active := 0, live := 0 }, poison }

/-- Issue a host request: served at once when nothing goes before it, otherwise at its home's next commands. -/
def State.hostIssue (s : State) (r : Req) : State := (s.addReq r).serveNow s.fab.nextReq

/-- BAR4_READ. -/
def execBar4Read (fn : FnIdx) (off len : Nat) (s : State) : Host.Outcome State Fault Refusal :=
  if len = 0 || 4096 < len then .fault (.malformed "BAR4_READ")
  else .next (if !s.bar4Holds fn off len then s
  else match s.hostCause fn off len false with
  | some c => (s.emit (.completion fn off (if c = 3 then 2 else 1) [] false)).hostRefuse fn off c
  | none => (linePieces off len).foldl (fun (s : State) (p : Nat × Nat × Nat) =>
      let a := (s.aperture fn p.1).getD 0
      s.hostIssue (s.hostReq fn a p.1 (.hostRead (a % 128) p.2.2) 0)) s)

/-- BAR4_WRITE. -/
def execBar4Write (fn : FnIdx) (off : Nat) (data : List Byte) (poisoned relaxed : Bool) (s : State) :
    Host.Outcome State Fault Refusal :=
  if data.length = 0 || 512 < data.length then .fault (.malformed "BAR4_WRITE")
  else .next (if !s.bar4Holds fn off data.length then s
  else match s.hostCause fn off data.length true with
  | some c =>
    let s1 := s.hostRefuse fn off c
    if c = 5 then
      s1.warn { code := 0x0309, severity := 1, data := leBytes 8 ((s.aperture fn off).getD 0) ++ leBytes 1 fn.val }
    else s1
  | none =>
    let s1 := if poisoned then s.hostRefuse fn off 8 else s
    (linePieces off data.length).foldl (fun (s : State) (p : Nat × Nat × Nat) =>
      let a := (s.aperture fn p.1).getD 0
      let bytes := ((data.drop p.2.1).take p.2.2).zipIdx.map fun e => (a % 128 + e.2, e.1)
      let poison := if poisoned then sectorsOf (bytes.map (·.1)) else 0
      s.hostIssue (s.hostReq fn a (bit relaxed) (.write bytes) poison)) s1)

/-- BAR4_ATOMICOP: no completer. -/
def execBar4AtomicOp (fn : FnIdx) (off : Nat) (s : State) : Host.Outcome State Fault Refusal :=
  .next (if !s.bar4Holds fn off 1 then s
  else (s.emit (.completion fn off 1 [] false)).hostRefuse fn off
    (match s.hostCause fn off 1 false with | some c => c | none => 6))

/-- HST_APERTURE_BASE_WRITE: bits [47:36] take the value written. -/
def State.setAperture (s : State) (v : DWord) : State :=
  { s with host := { s.host with aperture := v &&& 0x0000FFF000000000#64 } }
def execHstApertureBaseWrite (v : DWord) (s : State) : Host.Outcome State Fault Refusal := .next (s.setAperture v)

/-! Completions of the module's requests (R193, R273, R498). -/

/-- Runs of consecutive offsets. -/
def runsOf : List (Nat × Byte) → List (Nat × List Byte)
  | [] => []
  | (o, b) :: rest =>
    match runsOf rest with
    | (p, bs) :: more => if p = o + 1 then (o, b :: bs) :: more else (o, [b]) :: (p, bs) :: more
    | [] => [(o, [b])]

/-- The first offset and the number of bytes that a read or AtomicOp of host memory asks for. -/
def ReqOp.span (op : ReqOp) : Nat × Nat :=
  match op with
  | .load _ _ _ true _ _ => (0, 128)
  | .ldk _ _ => (0, 128)
  | op =>
    let o := op.offsets
    let lo := o.foldl Nat.min 128
    (lo, o.foldl (fun m x => Nat.max m (x + 1)) lo - lo)

def ReqOp.isPosted : ReqOp → Bool
  | .write _ => true
  | _ => false

/-- Host memory answers request `r` with the bytes of its span; `poisoned` bytes are consumed or stored poisoned. -/
def State.hostData (s : State) (r : Req) (bytes : List Byte) (poisoned : Bool) : Served :=
  let sp := r.op.span
  let get := fun o => (bytes[o - sp.1]?).getD 0
  match r.op with
  | .dmaRead _ _ dest _ =>
    let toModule := match dest with | .lines l => l.all fun x => x.2.2.1 == .module | _ => false
    if poisoned && !toModule then (s.dropReq r.id, r.fault fkPoison 0 0)
    else ((s.dropReq r.id).deliverDma r bytes dest fun _ => poisoned, [])
  | .atomic _ _ size d lanes =>
    if poisoned then (s.dropReq r.id, r.fault fkPoison 0 0)
    else match r.agent with
    | .vec c slot =>
      ((s.updGroup c slot fun g => lanes.foldl (fun (g : Group) (l : Nat × Nat × DWord × DWord) =>
        g.putElem l.1 d size false (gather get l.2.1 (sizeBytes size))) g).dropReq r.id, [])
    | _ => (s.dropReq r.id, [])
  | _ =>
    if poisoned then (s.dropReq r.id, r.fault fkPoison 0 0)
    else ((s.deliverLoad r get).dropReq r.id, [])

/-- A posted write is transmitted (R179, R185). -/
def State.transmit (s : State) (r : Req) (bytes : List (Nat × Byte)) : State :=
  let fn := match s.ctxById r.ctx with | some x => x.fn | none => 0
  (runsOf bytes).foldl (fun (s : State) (e : Nat × List Byte) => s.emit (.memWrite fn (r.addr + e.1) e.2)) (s.dropReq r.id)

/-- HOST_COMPLETION: of a read or an AtomicOp the completion, of a posted write its transmission. -/
def execHostCompletion (rid : Nat) (c : CplStatus) (s : State) : Host.Outcome State Fault Refusal :=
  if (match c with | .data b => decide (4096 < b.length) | .poisoned b => decide (4096 < b.length) | _ => false) then
    .fault (.malformed "HOST_COMPLETION")
  else .next (match s.req rid with
  | none => s
  | some r =>
    if r.place != .host || !s.turnOf r then s
    else match r.op, c with
    | .write bytes, .data _ => s.transmit r bytes
    | .write _, _ => s
    | op, .data b => if b.length = op.span.2 then State.settle (s.hostData r b false) else s
    | op, .poisoned b => if b.length = op.span.2 then State.settle (s.hostData r b true) else s
    | _, .unsupported => State.settle (s.retire r, r.fault fkUnreachable 0 0)
    | _, .aborted => State.settle (s.retire r, r.fault fkUnreachable 0 0))

/-! Configuration (R487, R491, R492, R499, R500, R503). -/

/-- Send the messages of pending vectors that are not masked any longer (R499). -/
def State.sendPending (s : State) (fn : Nat) : State :=
  (List.range (tableSize fn)).foldl (fun (s : State) v =>
    let x := s.vector fn v
    if x.pending && !x.masked && !SMap.get false s.host.fnMask fn then
      (s.setVector fn v { x with pending := false }).signal fn v
    else s) s

def State.updHost (s : State) (f : HostIf → HostIf) : State := { s with host := f s.host }

/-- The base addresses of the VFs' BAR4 follow from that of VF 1 (SR-IOV, PRESUMED). -/
def vfBases (first : Nat) (size : Nat) : SMap (Option Nat) → SMap (Option Nat) :=
  fun m => (List.range 64).foldl (fun (m : SMap (Option Nat)) i => SMap.set none m (i + 1) (some (first + i * size))) m

def State.setBar4Base (s : State) (fn addr : Nat) : State :=
  s.updHost fun h =>
    if fn = 0 then { h with bar4Base := SMap.set none h.bar4Base 0 (some (addr / 2 ^ h.pfSize * 2 ^ h.pfSize)) }
    else { h with bar4Base := vfBases (addr / 2 ^ h.vfSize * 2 ^ h.vfSize) (2 ^ h.vfSize) h.bar4Base }

/-- Room on the rings of the VFs: their backlogs are written (R371, R372). -/
def State.drainVfs (s : State) : State := (List.range 64).foldl (fun (s : State) i => s.evrDrain (i + 1) 257) s

/-- A configuration write takes effect. -/
def State.configWrite (s : State) (fn : Nat) (w : CfgWrite) : State :=
  match w with
  | .bar4Base addr => s.setBar4Base fn addr.toNat
  | .bar4Size n =>
    s.updHost fun h =>
      if fn = 0 then (if 36 ≤ n && n ≤ 43 then { h with pfSize := n } else h)
      else (if 32 ≤ n && n ≤ 40 then
        let h1 := { h with vfSize := n }
        match SMap.get none h.bar4Base 1 with
        | some a => { h1 with bar4Base := vfBases (a / 2 ^ n * 2 ^ n) (2 ^ n) h.bar4Base }
        | none => h1
      else h)
  | .numVfs n => s.updHost fun h => if fn = 0 && n ≤ 64 && !h.vfEnable then { h with numVfs := n } else h
  | .vfEnable => if fn = 0 then (s.updHost fun h => { h with vfEnable := true }).drainVfs else s
  | .functionMask on =>
    let s1 := s.updHost fun h => { h with fnMask := SMap.set false h.fnMask fn on }
    if on then s1 else s1.sendPending fn
  | .stu v => s.updHost fun h => { h with stu := SMap.set 0 h.stu fn v.toNat }
  | .atsEnable on => s.setPri fn { s.pri fn with ats := on }
  | .priEnable on => s.setPri fn { s.pri fn with enabled := on }
  | .priAlloc n => s.setPri fn { s.pri fn with alloc := Nat.min n (if fn = 0 then 1024 else 64) }
  | .priReset => s.setPri fn { s.pri fn with stopped := false }

/-- HOST_CONFIG_REQUEST: Request Retry Status until step 1 has ended (R503). -/
def execHostConfigRequest (fn : FnIdx) (w : Option CfgWrite) (s : State) : Host.Outcome State Fault Refusal :=
  .next (if s.sys.step ≤ 1 then s.emit (.configReply fn true)
  else if !s.fnEnabled fn then s
  else
    let s1 := match w with | some x => s.configWrite fn x | none => s
    s1.emit (.configReply fn false))

/-- Lanes that pass give the width (R488). -/
def linkWidth (lanes : BitVec 16) : Nat :=
  let n := ((List.range 16).filter fun i => lanes.getLsbD i).length
  if 16 ≤ n then 16 else if 8 ≤ n then 8 else if 4 ≤ n then 4 else 0

/-- HOST_LINK_TRAIN: `rate` is the code of HST_LINK; `retries` retrainings came before. -/
def execHostLinkTrain (rate : Fin 8) (lanes : BitVec 16) (retries : Nat) (s : State) : Host.Outcome State Fault Refusal :=
  .next (if !s.sys.standby then s
  else
    let w := linkWidth lanes
    if w = 0 || rate.val = 0 then
      (s.updHost fun h => { h with rate := 0, width := 0, retries }).note
        { code := 0x0408, severity := 1, data := leBytes 2 lanes.toNat }
    else if rate.val < 4 && retries < 8 then s.updHost fun h => { h with rate := 0, width := 0, retries := retries + 1 }
    else
      let s1 := s.updHost fun h => { h with rate := rate.val, width := w, retries }
      if rate.val < 4 then s1.warn { code := 0x0407, severity := 1, data := leBytes 1 rate.val ++ leBytes 1 w } else s1)

/-- MSIX_UNMASK: the host clears the mask of a vector. -/
def execMsixUnmask (fn : FnIdx) (vector : Nat) (s : State) : Host.Outcome State Fault Refusal :=
  .next (if !s.fnEnabled fn || tableSize fn ≤ vector then s
  else
    let x := s.vector fn vector
    let s1 := s.setVector fn vector { x with masked := false, pending := false }
    if x.pending then s1.signal fn vector else s1)

end Sys2Proof.Machine
end

