-- ==== Sys2Proof/Machine/Mailbox.lean ====
section
/-!
DEFINITION. The mailbox protocol: doorbells, acceptance, the checks of R349, responses, asynchronous operations and their
locks (R338 to R352).
-/
namespace Sys2Proof.Machine

/-! The command tables (R352 to R364). -/

/-- A row of the command tables: who may send it, and its mode. -/
structure CmdInfo where
  opcode  : Nat
  manager : Bool
  tenant  : Bool
  console : Bool
  async   : Bool
  /-- Marks sb and E. -/
  standby : Bool
  event   : Bool
deriving DecidableEq, Repr

def cmdRow (opcode : Nat) (manager tenant console async standby event : Bool) : CmdInfo :=
  { opcode, manager, tenant, console, async, standby, event }

def cmdTableIdentity : List CmdInfo :=
  [cmdRow 0x0000 true true true false true true, cmdRow 0x0001 true true true false true true, cmdRow 0x0002 true true true false true true]
def cmdTableParts : List CmdInfo :=
  [cmdRow 0x0100 true false false false false false, cmdRow 0x0101 true false false true false false,
   cmdRow 0x0102 true false false true false false, cmdRow 0x0103 true false false false false false,
   cmdRow 0x0104 true false false true false false, cmdRow 0x0105 true false false true false false,
   cmdRow 0x0106 true true true false false true, cmdRow 0x0110 true true false false false false,
   cmdRow 0x0111 true true false false false false, cmdRow 0x0112 true true false false false false]
def cmdTableMemory : List CmdInfo :=
  [cmdRow 0x0200 true false false true false false, cmdRow 0x0201 true false false true false false,
   cmdRow 0x0202 true false false false false false, cmdRow 0x0210 true false false false false false,
   cmdRow 0x0211 true true false true false false, cmdRow 0x0212 true true false false false false,
   cmdRow 0x0213 true true false false false false, cmdRow 0x0220 true false false false false false,
   cmdRow 0x0221 true false false false false false, cmdRow 0x0230 true true false true false false,
   cmdRow 0x0240 true false false false false false, cmdRow 0x0241 true false false true false false,
   cmdRow 0x0242 true false true false false false]
def cmdTableQueues : List CmdInfo :=
  [cmdRow 0x0300 true true false false false false, cmdRow 0x0301 true true false false false false,
   cmdRow 0x0302 true true false true false false, cmdRow 0x0303 true true false false false true,
   cmdRow 0x0304 true false false false false true, cmdRow 0x0305 true true false false false true,
   cmdRow 0x0306 true true false false false false, cmdRow 0x0400 true true false true false false,
   cmdRow 0x0401 true true false false false false, cmdRow 0x0410 true true false true false false,
   cmdRow 0x0411 true true false true false false, cmdRow 0x0412 true true false false false false,
   cmdRow 0x0420 true true false false false true]
def cmdTableTimePower : List CmdInfo :=
  [cmdRow 0x0500 true false true false false false, cmdRow 0x0501 true true true false true true,
   cmdRow 0x0502 true true false false false true, cmdRow 0x0600 true false true false false false,
   cmdRow 0x0601 true false true false false false, cmdRow 0x0602 true false false false false false,
   cmdRow 0x0603 true true true false false true, cmdRow 0x0700 true false true true false false,
   cmdRow 0x0701 true false true false false false, cmdRow 0x0702 true false false false false false,
   cmdRow 0x0703 true true false false false false, cmdRow 0x0704 true false true false false true]
def cmdTableSecurity : List CmdInfo :=
  [cmdRow 0x0800 true false true false false false, cmdRow 0x0801 true false true true false false,
   cmdRow 0x0802 true false true false true false, cmdRow 0x0803 true false true false true false,
   cmdRow 0x0804 true false true false true false, cmdRow 0x0805 true false true false true false,
   cmdRow 0x0806 false false true false true false, cmdRow 0x0807 true false true false true true,
   cmdRow 0x0808 true false true false true true, cmdRow 0x0900 true true true false false true,
   cmdRow 0x0901 true true true false false false, cmdRow 0x0902 true false true false true true,
   cmdRow 0x0903 true false true false false true, cmdRow 0x0A00 true false true true false false,
   cmdRow 0x0A01 true false true false false false]
def cmdTable : List CmdInfo :=
  cmdTableIdentity ++ cmdTableParts ++ cmdTableMemory ++ cmdTableQueues ++ cmdTableTimePower ++ cmdTableSecurity

def cmdInfo (opcode : Nat) : Option CmdInfo := cmdTable.find? fun r => r.opcode == opcode

/-- The role of a mailbox: 0 manager, 1 tenant, 2 console (R338). -/
def mbxRole (m : Nat) : Nat := if m ≤ 1 then 0 else if m ≤ 65 then 1 else 2
def CmdInfo.allows (i : CmdInfo) (role : Nat) : Bool := if role = 0 then i.manager else if role = 1 then i.tenant else i.console

/-! Doorbells and acceptance (R340 to R342). -/

def Valac.setMbx (v : Valac) (m : Nat) (x : Mailbox) : Valac := { v with mailboxes := SMap.set {} v.mailboxes m x }

/-- A doorbell of a function's mailbox. -/
def State.doorbell (s : State) (m : Nat) (v : Word) : State :=
  match mbxFn m with
  | none => s
  | some fn =>
    if !s.sys.valacUp || !s.fnEnabled fn then s
    else
      let b := s.mbx m
      if b.state = 1 then s.setMbx m { b with overrun := true }
      else s.setMbx m { b with state := 1, doorbell := v.setWidth 16 }

def execMbxDoorbell (m : MbxIdx) (v : Word) (s : State) : Host.Outcome State Fault Refusal := .next (s.doorbell m v)

/-- Mailboxes that are served: all, or those of the recovery loader (R516). -/
def State.served (s : State) (m : Nat) : Bool := !s.fw.recovery || m == 0 || m == 66

/-- The mailbox whose command Valac accepts next (R342). -/
def State.nextMbx (s : State) : Option Nat :=
  if (s.mbx 1).state = 1 && s.served 1 then some 1
  else ((List.range 67).map fun i => (s.valac.lastServed + 1 + i) % 67).find? fun m => (s.mbx m).state == 1 && s.served m

/-! Responses (R340, R348). -/

/-- The response of a command. -/
def State.responseBytes (s : State) (c : Cmd) (status detail : Nat) (payload : List Byte) : List Byte :=
  leBytes 2 c.opcode ++ leBytes 2 c.seq.toNat ++ leBytes 4 payload.length ++ leBytes 2 status ++ leBytes 2 detail ++
  leBytes 4 0 ++ leBytes 8 c.token.toNat ++ leBytes 8 s.now ++ payload

/-- A RESPONSE frame to the console, when a session is up (R523). -/
def State.responseFrame (s : State) (body : List Byte) : State :=
  match s.fw.session with
  | some x =>
    if !x.proved then s else
    let s1 := s.emit (.frame 5 x.id (BitVec.ofNat 64 (x.txCount + 1)) body)
    { s1 with fw := { s1.fw with session := some { x with txCount := x.txCount + 1 } } }
  | none => s

/-- Valac writes the response, sets last_seq, then DONE, and takes up the next command (R340, R342). -/
def State.respond (s : State) (c : Cmd) (status detail : Nat) (payload : List Byte) : State :=
  let body := s.responseBytes c status detail payload
  let s0 := { s with valac := { s.valac with cur := none, lastServed := if c.mbx = 1 then s.valac.lastServed else c.mbx } }
  if c.discard then s0
  else
    let b := s0.mbx c.mbx
    let s1 := s0.setMbx c.mbx { b with buffer := SMap.putBytes b.buffer 0 body, state := 2, lastSeq := c.seq }
    let s2 := if c.mbx = 66 then s1.responseFrame body else s1
    if c.notify then s2.mbxEvent c.mbx 1 (leBytes 1 c.mbx ++ leBytes 1 0 ++ leBytes 2 c.seq.toNat ++ leBytes 2 status) else s2

/-! Acceptance and checks 1 to 4 (R349). -/

/-- Commands of the console before the first lock (R525). -/
def beforeLock : List Nat := [0x0000, 0x0001, 0x0002, 0x0501, 0x0807, 0x0808, 0x0902, 0x0806]
/-- Commands of the recovery loader (R516). -/
def loaderServes : List Nat := [0x0000, 0x0001, 0x0002, 0x0800, 0x0801, 0x0807, 0x0808, 0x0902]

/-- Check 3 fails. -/
def State.notPermitted (s : State) (c : Cmd) (i : CmdInfo) (roleField : Nat) : Bool :=
  roleField != c.role || !i.allows c.role ||
  (c.role == 1 && (s.partOfFn (c.mbx - 1)).isNone && decide (0x0100 ≤ c.opcode)) ||
  (c.mbx == 1 && !i.event) ||
  (c.mbx == 66 && SMap.get 0 s.fw.used 4 == 0 && !beforeLock.contains c.opcode)

/-- Check 4 fails. -/
def State.notReady (s : State) (c : Cmd) (i : CmdInfo) : Bool :=
  if s.fw.recovery then !loaderServes.contains c.opcode
  else if s.sys.state ≤ 1 then !i.standby
  else if s.sys.state = 3 then !i.standby && !i.event && !(c.opcode == 0x0A01 && c.payload.head? == some 1)
  else false

/-- Copy a mailbox's command (R347). -/
def State.readCmd (s : State) (m : Nat) : Cmd :=
  let h := SMap.getBytes (s.mbx m).buffer 0 4096
  { mbx := m, opcode := fieldAt h 0 2, seq := BitVec.ofNat 16 (fieldAt h 2 2), notify := bitsOf (fieldAt h 9 1) 0 1 == 1,
    token := BitVec.ofNat 64 (fieldAt h 16 8), role := mbxRole m, payload := (h.drop 32).take (fieldAt h 4 4) }

/-- Valac accepts the command of mailbox `m`: refused by one of the checks 1 to 4, or in progress. -/
def State.accept (s : State) (m : Nat) : State :=
  let h := SMap.getBytes (s.mbx m).buffer 0 32
  let c := s.readCmd m
  if 4064 < fieldAt h 4 4 || 1 < fieldAt h 9 1 || !zeroAt h 10 6 || !zeroAt h 24 8 || c.seq != (s.mbx m).doorbell then
    s.respond c stInvalid 0xFFFF []
  else match cmdInfo c.opcode with
  | none => s.respond c stInvalidOpcode 0 []
  | some i =>
    if s.notPermitted c i (fieldAt h 8 1) then s.respond c stNotPermitted 0 []
    else if s.notReady c i then s.respond c stNotReady 0 []
    else { s with valac := { s.valac with cur := some c } }

/-- COMMAND_ACCEPT. -/
def execCommandAccept (s : State) : Host.Outcome State Fault Refusal :=
  .next (if !s.sys.valacUp || s.valac.cur.isSome then s
  else match s.nextMbx with
  | some m => s.accept m
  | none => s)

/-! Performing a command: checks 5 and 6, the effect, the response (R343, R344, R349). -/

/-- What a command answers: an error, or its effect with the response payload. -/
inductive Reply where
  | err (status detail : Nat)
  | ok (payload : List Byte) (s : State)
deriving DecidableEq, Repr

def Cmd.arg (c : Cmd) (off n : Nat) : Nat := fieldAt c.payload off n

/-- The lowest offset among the arguments that fail. -/
def firstBad (bad : List (Bool × Nat)) : Option Nat :=
  bad.foldl (fun best e => if e.1 then (match best with | some b => some (Nat.min b e.2) | none => some e.2) else best) none

/-- Reserved ranges of a payload: each fails at its first byte that is not zero (R9). -/
def Cmd.reserved (c : Cmd) (ranges : List (Nat × Nat)) : List (Bool × Nat) :=
  ranges.flatMap fun r => (List.range r.2).map fun i => (((c.payload[r.1 + i]?).getD 0) != 0, r.1 + i)

/-- Check 5 over the length and the arguments, check 6 over the rules in their order, then the effect. -/
def Cmd.check (c : Cmd) (len : Nat) (bad rules : List (Bool × Nat)) (ok : Reply) : Reply :=
  if c.payload.length ≠ len then .err stInvalid 0xFFFF
  else match firstBad bad with
  | some o => .err stInvalid o
  | none => match rules.find? (·.1) with
    | some r => .err r.2 0
    | none => ok

/-- The command in progress, when it has this opcode, is performed and answered. -/
def State.run (s : State) (opcode : Nat) (f : Cmd → Reply) : State :=
  match s.valac.cur with
  | none => s
  | some c =>
    if c.opcode ≠ opcode then s
    else match f c with
    | .err status detail => s.respond c status detail []
    | .ok payload s1 => s1.respond c stSuccess 0 payload

/-- Unfinished operations of a mailbox (R343). -/
def State.opsOf (s : State) (m : Nat) : Nat := (s.valac.ops.filter fun o => o.cmd.mbx == m).length
/-- A ninth operation. -/
def State.opsFull (s : State) (c : Cmd) : Bool := decide (8 ≤ s.opsOf c.mbx)

/-- Start the operation of an accepted asynchronous command; its number is `s.valac.nextOp`. -/
def State.startOp (s : State) (c : Cmd) (arg : Nat) : State :=
  { s with valac := { s.valac with ops := s.valac.ops ++ [{ id := s.valac.nextOp, cmd := c, arg }], nextOp := s.valac.nextOp + 1 } }

/-! Objects that open operations lock (R343). -/

inductive Obj where
  | part (p : Nat)
  | ctx (c : Nat)
  | region (r : Nat)
  | queue (q : Nat)
  | graph (g : Nat)
  | kernel (k : Nat)
deriving DecidableEq, Repr

/-- The region table index that REGION_SET names (R260): tier 1 or 2, of a partition or a share group. -/
def regionIndex (kind owner tier : Nat) : Nat := if kind = 1 then owner + (if tier = 2 then 64 else 0) else 128 + owner + (if tier = 2 then 16 else 0)

/-- What a command names. -/
def Cmd.names (c : Cmd) : List Obj :=
  if 0x0101 ≤ c.opcode && c.opcode ≤ 0x0105 then [.part (c.arg 0 1)]
  else if c.opcode = 0x0200 then
    .region (regionIndex (c.arg 0 1) (c.arg 1 1) (c.arg 2 1)) :: (if c.arg 0 1 = 1 then [.part (c.arg 1 1)] else [])
  else if c.opcode = 0x0201 then (if c.arg 12 2 / 2 ^ 14 = 1 then [.part (c.arg 12 1)] else [])
  else if c.opcode = 0x0211 || c.opcode = 0x0400 || c.opcode = 0x0410 then [.ctx (c.arg 0 2)]
  else if c.opcode = 0x0302 then [.queue (c.arg 0 2)]
  else if c.opcode = 0x0411 then [.graph (c.arg 0 4)]
  else []

/-- An open operation locks the object. -/
def State.locked (s : State) (o : Obj) : Bool := s.valac.ops.any fun x => x.cmd.names.contains o

/-- The partition of a tenant's mailbox; none for the manager and the console. -/
def State.tenantPart (s : State) (c : Cmd) : Option Nat := if c.role = 1 then s.partOfFn (c.mbx - 1) else none
/-- A tenant names an object of another partition (R351). -/
def State.foreignTo (s : State) (c : Cmd) (p : Nat) : Bool := c.role == 1 && s.tenantPart c != some p

end Sys2Proof.Machine
end

