-- ==== Sys2Proof/Machine/RegMap.lean ====
section
/-!
DEFINITION. What the registers of internal control space read as, block by block, in aligned words of 4 bytes; an 8 B register
is two of them (R65, R103, R224, R252, R286, R287, R312 to R314, R336, R337, R366, R417, R439, R463, R464, R485, R486, R530).
-/
namespace Sys2Proof.Machine

/-- Word of an 8 B register at `base`, when `w` lies in it. -/
def half8 (v w base : Nat) : Nat := if w = base then v % 2 ^ 32 else v / 2 ^ 32 % 2 ^ 32

/-- Word of an 8 B counter. -/
def cntWord (m : SMap DWord) (w : Nat) : Nat := half8 (SMap.get 0 m (w / 8 * 8)).toNat w (w / 8 * 8)

/-- Word of a block that is laid out in bytes. -/
def blockWord (bs : List Byte) (off : Nat) : Nat := fieldAt bs off 4

/-! Cores (chapters 02, 03, 07, 09). -/

def CoreMode.code : CoreMode → Nat
  | .idle => 0
  | .clearing => 1
  | .running => 2
  | .draining => 3
  | .faulted => 4

def MtxOp.isLoad : MtxOp → Bool
  | .load _ _ _ => true
  | _ => false
def MtxOp.isStream : MtxOp → Bool
  | .stream _ _ _ _ => true
  | _ => false

/-- A descriptor of the core waits for a page (CORE_STATUS.pri_wait). -/
def State.priWait (s : State) (c : Nat) : Bool :=
  s.xlat.rows.any fun e => match e.2 with
    | some r => (r.state == .waitSlot || r.state == .waitPri) && (match r.dma with | some d => d.1 == c | none => false)
    | none => false

def State.coreStatus (s : State) (c : Nat) : Nat :=
  let k := s.core c
  (k.groups.filter fun e => e.2.occupied).length * 2 ^ 16 + 64 * bit (s.priWait c) + 32 * bit (!k.dmaQ.isEmpty) +
    16 * bit (!k.mtxQ.isEmpty) + k.mode.code

/-- CORE_ID. -/
def coreId (c : Nat) : Nat :=
  if h : c < 640 then
    let k : CoreIdx := ⟨c, h⟩
    yOfCore k * 2 ^ 24 + xOfCore k * 2 ^ 16 + c % 80 * 2 ^ 8 + 8 * (c / 40 % 2) + c / 80
  else 0

/-- CORE_OCCUPANCY: of the kernel last started; 0 before the first. -/
def Core.occupancy (k : Core) : Nat := if k.lastCtx.isNone then 0 else k.slots * 2 ^ 16 + k.slots * k.W

def State.mtxStatus (s : State) (c : Nat) : Nat :=
  let k := s.core c
  let rinsing := !k.arrayOff && (match k.rinse with | some n => n != 0 | none => (s.steward (c / 40)).rinse != 0)
  Nat.min 16 k.mtxQ.length * 2 ^ 16 + k.plane1.kind % 8 * 2 ^ 9 + 256 * bit k.plane1.loaded + k.plane0.kind % 8 * 2 ^ 5 +
    16 * bit k.plane0.loaded + 8 * bit (k.mtxQ.any fun e => !e.cols.isEmpty) + 4 * bit (k.mtxQ.any fun e => e.started && e.op.isStream) +
    2 * bit (k.mtxQ.any fun e => e.started && e.op.isLoad) + bit rinsing

/-- Ports that lead across a die edge (MESH_CTRL.cross). -/
def crossBits (c : Nat) : Nat := bit (crossing c 0) + 2 * bit (crossing c 1) + 4 * bit (crossing c 2) + 8 * bit (crossing c 3)

def MeshFault.word (f : MeshFault) : Nat :=
  bit f.valid * 2 ^ 31 + f.stream % 16 * 2 ^ 24 + f.port % 8 * 2 ^ 21 + f.slot % 1024 * 2 ^ 10 + f.cause % 256

def CoreFault.word (f : CoreFault) : Nat := bit f.more * 2 ^ 31 + f.group % 256 * 2 ^ 16 + f.detail % 256 * 2 ^ 8 + f.kind % 256

/-- CORE_KCFG. -/
def Core.kcfg (k : Core) : Nat := k.tilePages % 1024 * 2 ^ 16 + k.uniforms % 128 * 2 ^ 8 + k.width % 4 * 2 ^ 6 + k.regsDiv8 % 64

/-- The registers of a core control block below its counters. -/
def State.coreWord (s : State) (c w : Nat) : Nat :=
  let k := s.core c
  if w < 0x100 then
    (if w = 0x00 then coreId c
    else if w = 0x04 then bit (!k.arrayOff)
    else if w = 0x0C then s.coreStatus c
    else if w = 0x10 then k.partition % 256 * 2 ^ 16 + k.context % 2 ^ 16
    else if w = 0x14 then k.occupancy
    else if w = 0x18 || w = 0x1C then half8 k.kernelBase w 0x18
    else if w = 0x20 then k.kcfg
    else if w = 0x24 then k.watchdog.toNat
    else if w = 0x28 || w = 0x2C then half8 k.schedBase w 0x28
    else if w = 0x40 then k.fault.word
    else if w = 0x48 || w = 0x4C then half8 k.fault.pc.toNat w 0x48
    else if w = 0x50 || w = 0x54 then half8 k.fault.active.toNat w 0x50
    else if w = 0x58 || w = 0x5C then half8 k.fault.live.toNat w 0x58
    else if w = 0x60 then k.stackMax
    else 0)
  else if w < 0x158 || (0x300 ≤ w && w < 0x348) || (0x700 ≤ w && w < 0x720) then cntWord k.counters w
  else if w = 0x200 then s.mtxStatus c
  else if w = 0x400 then bit k.router.lc * 2 ^ 12 + crossBits c * 2 ^ 8 + k.router.edge.toNat * 2 ^ 4 + bit k.router.run
  else if w = 0x404 then k.router.slots % k.router.length * 2 ^ 16 + bit k.router.running
  else if w = 0x408 then k.router.fault.word
  else if w = 0x40C then k.router.meshSlots % 2048
  else if w = 0x410 || w = 0x414 then half8 k.router.start.toNat w 0x410
  else if 0x500 ≤ w && w < 0x538 then cntWord k.router.counters w
  else 0

/-! Arbiters (chapter 10). -/

def State.arbWord (s : State) (p : ArbId) (w : Nat) : Nat :=
  let key := arbKey p
  let a := s.arb key
  let i := arbInfo key
  if w = 0x000 then i.1 * 2 ^ 16 + i.2.1
  else if w = 0x004 then (match a.waitLimit with | some v => v | none => i.2.2)
  else if w = 0x008 then a.holdLimit
  else if w = 0x010 || w = 0x014 then half8 (a.cutoff.toNat % 2 ^ i.2.1) w 0x010
  else if 0x100 ≤ w && w < 0x100 + 32 * i.2.1 then cntWord a.counters w
  else 0

/-! Cache halves and memory controllers (chapters 06, 08). -/

def Half.sweepReg (x : Half) : Nat := x.sweepCtx % 2 ^ 16 * 2 ^ 32 + bit x.sweepMode * 2 ^ 30 + x.sweepPart % 256 * 2 ^ 16 + x.sweepWays.toNat

def State.halfWord (s : State) (h w : Nat) : Nat :=
  let x := s.half h
  if w = 0x00 then 8 * (h % 2) + h / 2
  else if w = 0x04 then (if x.cfgBusy then x.nNext else x.nReplica)
  else if w = 0x08 then 2 * bit x.cfgBusy + bit x.sweepBusy
  else if w = 0x10 || w = 0x14 then half8 x.sweepReg w 0x10
  else if w = 0x20 then bit x.err.ue * 2 ^ 31 + bit x.err.ce * 2 ^ 30 + x.err.bank % 16 * 2 ^ 24 + x.err.set % 4096 * 2 ^ 12 +
    x.err.way % 16 * 2 ^ 8 + x.err.kind % 4
  else if w = 0x28 || w = 0x2C then half8 (x.err.addr / 32 * 32) w 0x28
  else if w = 0xF0 then 256 * bit x.filterOn + x.filterPart % 64
  else if 0x100 ≤ w && w < 0x180 then cntWord x.counters w
  else if 0x1000 ≤ w && w < 0x1100 then (SMap.get 0 x.waymask ((w - 0x1000) / 4)).toNat
  else if w = 0x2000 then x.washPasses % 2 ^ 16 * 2 ^ 16 + Nat.min 999 x.washProgress
  else 0

/-- CACHE_BANK_STATUS. -/
def State.bankWord (s : State) (h b : Nat) : Nat :=
  let x := s.half h
  bit (SMap.get none x.force b).isSome * 2 ^ 24 + Nat.min 128 (s.bankResv h b) * 2 ^ 16 + SMap.get 0 x.hwm b % 128 * 2 ^ 8 + x.missBusy b % 128

/-- Most requests held in one channel queue. -/
def State.longestQueue (s : State) (m : Nat) : Nat :=
  let ops := (s.ctrl m).queue.filter fun o => !o.isMend
  (List.range 32).foldl (fun best c => Nat.max best (ops.filter fun o => s.chanOf o.line == c).length) 0

def State.ctrlWord (s : State) (m w : Nat) : Nat :=
  let x := s.ctrl m
  if w = 0x00 then x.needleWait % 4096
  else if w = 0x08 then Nat.min 64 x.menders * 2 ^ 16 + Nat.min 32 (s.longestQueue m)
  else if w = 0x20 then bit x.ue * 2 ^ 31 + bit x.ce * 2 ^ 30 + x.errChan % 32 * 8 + x.errKind % 4
  else if w = 0x28 || w = 0x2C then half8 (x.errAddr / 32 * 32) w 0x28
  else if 0x100 ≤ w && w < 0x148 then cntWord x.counters w
  else 0

/-- FLASH_HEALTH. -/
def FlashCtrl.word (x : FlashCtrl) : Nat :=
  x.sparePct % 256 * 2 ^ 16 + Nat.min 255 x.wearPct * 2 ^ 8 + 2 * bit x.readOnly + bit (decide (90 ≤ x.wearPct))

/-! Translation, bundles, stewards, meridian (chapters 09, 10, 13, 15). -/

/-- Rows of a die in one of the states of `p`. -/
def State.dieRows (s : State) (d : Nat) (p : XRow → Bool) : Nat :=
  (s.xlat.rows.filter fun e => match e.2 with | some r => r.die == d && p r | none => false).length

def State.xlatWord (s : State) (d w : Nat) : Nat :=
  if w = 0x00 then
    let pri := s.dieRows d fun r => r.dma.isSome && (r.state == .waitSlot || r.state == .waitPri)
    let walks := s.dieRows d fun r => r.state == .translate && (match s.ctxById r.ctx with | some x => !x.ats | none => false)
    Nat.min 1280 pri * 2 ^ 16 + Nat.min 64 (walks - 8) * 2 ^ 8 + Nat.min 8 walks
  else if 0x100 ≤ w && w < 0x148 then half8 (SMap.get 0 s.xlat.counters (4096 * d + w / 8 * 8)).toNat w (w / 8 * 8)
  else 0

def State.bndWord (s : State) (p : BndPort) (w : Nat) : Nat :=
  match portBundle p with
  | none => 0
  | some (b, d) =>
    let x := s.bundle b
    let y := x.dir d
    if w = 0x00 then b * 2 ^ 16 + bundleTracks b * 2 ^ 8 + bit d
    else if w = 0x04 then y.badTracks % 256 * 2 ^ 16 + y.width % 4 * 2 ^ 10 + (x.dir (!d)).width % 4 * 2 ^ 8 + 2 * bit x.retraining + bit x.trained
    else if 0x100 ≤ w && w < 0x138 then cntWord y.counters w
    else if 0x1000 ≤ w && w < 0x10C0 then
      leNat ((List.range 4).map fun i => if w - 0x1000 + i < 4 * bundleTracks b then SMap.get 0x1F y.groups (w - 0x1000 + i) else 0)
    else 0

def State.stewWord (s : State) (h w : Nat) : Nat :=
  let x := s.steward h
  if w = 0x00 then x.target % 16 * 2 ^ 28 + x.fstep % 16 * 2 ^ 24 + x.voltage % 1024 * 2 ^ 14 + bit x.moving * 2 ^ 13 + bit x.frozen * 2 ^ 12 +
    bit x.droop * 2 ^ 11 + bit x.throttle * 2 ^ 10 + x.rinse % 128
  else if w = 0x04 then x.estimate % 2 ^ 16
  else if w = 0x08 then x.lastDelay % 2 ^ 32
  else if 0x10 ≤ w && w < 0x20 then
    (SMap.get 0 x.temps ((w - 0x10) / 2)).toNat + (SMap.get 0 x.temps ((w - 0x10) / 2 + 1)).toNat * 2 ^ 16
  else if 0x100 ≤ w && w < 0x130 then cntWord x.counters w
  else 0

/-! The module block. -/

def regionBytes (r : Option Region) : List Byte :=
  match r with
  | none => List.replicate 32 0
  | some x =>
    let bits := x.strands.foldl (fun n k => n + 2 ^ k) 0
    leBytes 8 (2 ^ 63 + x.base) ++ leBytes 8 (bits % 2 ^ 64) ++ leBytes 8 (bits / 2 ^ 64) ++ leBytes 8 (x.bays * 2 ^ 16 + x.firstBay)

/-- A context table entry (R312). -/
def Ctx.bytes (x : Ctx) (slot : Nat) : List Byte :=
  leBytes 2 (x.gen * 1024 + slot) ++ leBytes 1 x.state ++ leBytes 1 x.partition ++ leBytes 4 x.pasid ++ leBytes 1 x.fn ++
  leBytes 1 (bit x.ats) ++ leBytes 1 x.fmt ++ leBytes 1 x.granule ++ leBytes 2 x.windows.length ++
  leBytes 2 (x.windows.filter fun w => w.stale).length ++ leBytes 8 x.root ++ leBytes 8 x.attrMap.toNat ++
  leBytes 4 (x.windows.map fun w => w.leaves.length).sum ++ List.replicate 28 0

/-- Contexts and queues of a partition, and its enabled arrays. -/
def State.partCtxs (s : State) (p : Nat) : List Nat := (s.xlat.ctxs.filter fun e => e.2.state != 0 && e.2.partition == p).map (·.1)
def State.partQueues (s : State) (p : Nat) : List Nat :=
  (s.work.queues.filter fun e => match e.2 with | some q => q.part == p | none => false).map (·.1)
def State.arraysIn (s : State) (r : Rect) : Nat := (r.cores.filter fun c => !(s.core c).arrayOff).length

/-- The rectangle has cores on both sides of a seam, and cores of more than one die. -/
def Rect.spansSeam (r : Rect) : Bool := r.halves.any fun h => h % 2 == 0 && r.halves.contains (h + 1)
def Rect.spansDies (r : Rect) : Bool := match r.halves with | [] => false | h :: t => t.any fun i => i / 2 != h / 2

/-- An entry of the partition table (R439). -/
def State.partBytes (s : State) (p : Nat) : List Byte :=
  match s.part p, s.rect p with
  | some x, some r =>
    let flags := bit r.spansSeam + 2 * bit r.spansDies + 4 * bit x.resize.isSome + 8 * bit ((s.sys.lcDegraded || s.belowRange p) && !x.be)
    [1] ++ leBytes 1 x.state.code ++ leBytes 1 (bit x.be) ++ leBytes 1 x.fn ++ leBytes 1 r.x0 ++ leBytes 1 r.y0 ++ leBytes 1 r.w ++
    leBytes 1 r.h ++ leBytes 4 x.slice ++ leBytes 2 x.mask.toNat ++ leBytes 1 x.pstepMin ++ leBytes 1 flags ++
    leBytes 2 (s.arraysIn r) ++ leBytes 2 (s.partCtxs p).length ++ leBytes 2 (s.partQueues p).length ++ leBytes 2 0 ++
    leBytes 8 x.refused ++ leBytes 8 x.overruns ++ List.replicate 24 0
  | _, _ => List.replicate 64 0

/-- Limits of the bounded settings, in the order of R527. -/
def boundLimit (i : Nat) : Nat := if i = 0 then 255 else if i = 1 then 64 else if i = 2 then 32 else if i = 3 then 16 else if i = 4 then 8 else 0

/-- Transits that hold an almanac entry (R414): consumed, with a transit, and not started. -/
def Launch.transits (l : Launch) (nodes : List (List Byte)) : Nat :=
  let own := bit (l.flag 1 && (l.phase == .waiting || l.phase == .admitted))
  if l.verdict.isSome || l.stop.isSome then 0
  else match l.graph with
  | none => own
  | some _ => own + ((nodes.zip l.nodes).filter fun e => bitsOf (fieldAt e.1 7 1) 1 1 == 1 &&
      (e.2.phase == .waiting || e.2.phase == .admitted)).length
def State.almanacUsed (s : State) : Nat :=
  (s.work.launches.map fun l => l.transits (match l.graph with | some g => s.graphNodes g | none => [])).sum

/-- PWR_STATUS. -/
def State.pwrStatus (s : State) : Nat :=
  let below := (List.range 64).any fun p => s.belowRange p
  let throttled := (List.range 16).any fun h => (s.steward h).throttle
  s.power.mean % 2 ^ 16 * 2 ^ 16 + 1024 * bit below + 512 * bit throttled + 256 * bit s.power.capping + s.power.ramp % 256

def State.moduleWord (s : State) (w : Nat) : Nat :=
  if 0x10000 ≤ w && w < 0x11400 then blockWord (regionBytes (SMap.get none s.store.regions ((w - 0x10000) / 32))) (w % 32)
  else if w = 0x20000 then s.store.washHours % 256
  else if w = 0x30000 then s.xlat.priTimeout % 2 ^ 16
  else if 0x31000 ≤ w && w < 0x31200 then blockWord (padTo 64 (SMap.get {} s.xlat.formats ((w - 0x31000) / 64)).raw) (w % 64)
  else if 0x40000 ≤ w && w < 0x50000 then blockWord ((s.ctx ((w - 0x40000) / 64)).bytes ((w - 0x40000) / 64)) (w % 64)
  else if w = 0x50000 then s.time.domain % 256 * 2 ^ 8 + s.time.state.code * 2 ^ 4 + 8 * bit s.timeValid + s.time.source % 4
  else if w = 0x50008 || w = 0x5000C then half8 (wrapNat 64 s.time.offset) w 0x50008
  else if w = 0x50010 then
    Nat.min 511 (s.work.queues.filter fun e => match e.2 with | some q => q.waitAlmanac | none => false).length * 2 ^ 16 + Nat.min 256 s.almanacUsed
  else if 0x60000 ≤ w && w < 0x61000 then blockWord (s.partBytes ((w - 0x60000) / 64)) (w % 64)
  else if w = 0x70000 then s.pwrStatus
  else if w = 0x70004 then s.power.limitC % 2 ^ 16 * 2 ^ 16 + s.power.limitM % 2 ^ 16
  else if w = 0x70008 then s.power.rampC % 2 ^ 16 * 2 ^ 16 + s.power.rampM % 2 ^ 16
  else if w = 0x70010 || w = 0x70014 then half8 (s.power.energy % 2 ^ 64) w 0x70010
  else if w = 0x70018 || w = 0x7001C then half8 (s.power.rinseEnergy / 10 % 2 ^ 64) w 0x70018
  else if w = 0x70020 || w = 0x70024 then half8 (s.power.cntRampShort % 2 ^ 64) w 0x70020
  else if w = 0x70028 || w = 0x7002C then half8 (s.power.cntUnramped % 2 ^ 64) w 0x70028
  else if w = 0x70030 || w = 0x70034 then half8 (s.power.cntCapSteps % 2 ^ 64) w 0x70030
  else if w = 0x80000 then s.fw.running.secver % 256 * 2 ^ 8 + s.fw.floor % 256
  else if 0x80010 ≤ w && w < 0x80024 then
    boundLimit ((w - 0x80010) / 4) * 2 ^ 16 + SMap.get 0 s.fw.used ((w - 0x80010) / 4) % 2 ^ 16
  else 0

/-! The speculum block. -/

def WinState.code : WinState → Nat
  | .off => 0
  | .waiting => 1
  | .active => 2
  | .broken => 3

def State.winWord (s : State) (w : Nat) : Nat :=
  let x := s.win w
  let out := (s.twin.syncs.filter fun o => o.window == w && !o.dead).length
  x.state.code * 2 ^ 30 + x.mode % 4 * 2 ^ 28 + bit x.lagExceeded * 2 ^ 27 + bit x.closed.isSome * 2 ^ 26 +
    Nat.min 128 ((x.fill + 16383) / 16384) * 2 ^ 16 + Nat.min 4096 out

def State.specWord (s : State) (w : Nat) : Nat :=
  if w = 0x000 then s.twin.state.code * 2 ^ 29 + bit s.twin.hold * 2 ^ 28 + s.twin.rate % 4 * 2 ^ 26 + bit s.twin.ready * 2 ^ 25
  else if w = 0x004 then s.twin.rxActive % 32 * 2 ^ 18 + s.twin.rxBad.toNat
  else if 0x100 ≤ w && w < 0x200 && w ≠ 0x1F8 then s.winWord ((w - 0x100) / 4)
  else if 0x200 ≤ w && w < 0x238 then cntWord s.twin.counters w
  else 0

/-! The decoder of internal control space (R366). -/

/-- What an offset names: a block and an offset in it. -/
inductive Block where
  | module
  | core (c : CoreIdx)
  | arb (p : ArbId)
  | half (h : HalfIdx)
  | bank (h : HalfIdx) (b : BankIdx)
  | memc (m : CtrlIdx)
  | xlat (d : DieIdx)
  | bnd (p : BndPort)
  | warden (d : DieIdx)
  | steward (h : HalfIdx)
  | flash (k : HubIdx)
  | hubTemp (k : HubIdx)
  | spec
  | reserved
deriving DecidableEq, Repr

/-- A 64 KiB block with its ARB block at +0xF000. -/
def withArb (b : Block) (p : ArbId) (o : Nat) : Block × Nat := if 0xF000 ≤ o then (.arb p, o - 0xF000) else (b, o)

/-- A bundle port; the ends of the spine lead nowhere. -/
def bndBlock (p : BndPort) (o : Nat) : Block × Nat :=
  if (portBundle p).isNone then (.reserved, 0) else withArb (.bnd p) (.bnd p) o

def dieBlock (d : DieIdx) (o : Nat) : Block × Nat :=
  if 0x100000 ≤ o && o < 0x600000 then
    let c := (o - 0x100000) / 0x10000
    if h : c < 80 then
      let k : CoreIdx := ⟨80 * d.val + c, by have := d.isLt; omega⟩
      withArb (.core k) (.tile k) ((o - 0x100000) % 0x10000)
    else (.reserved, 0)
  else if 0x60F000 ≤ o && o < 0x65F000 then
    let c := (o - 0x60F000) / 0x1000
    if h : c < 80 then (.arb (.dmaIssue ⟨80 * d.val + c, by have := d.isLt; omega⟩), (o - 0x60F000) % 0x1000) else (.reserved, 0)
  else if 0x800000 ≤ o && o < 0xA00000 then
    let h : HalfIdx := ⟨2 * d.val + (o - 0x800000) / 0x100000 % 2, by have := d.isLt; omega⟩
    let b : BankIdx := ⟨(o - 0x800000) / 0x10000 % 16, by omega⟩
    let w := o % 0x10000
    if 0xF000 ≤ w then (.arb (.bank h b), w - 0xF000) else if w = 0x8000 then (.bank h b, 0) else if b.val = 0 then (.half h, w) else (.reserved, 0)
  else if 0xC00000 ≤ o && o < 0xC30000 then
    let m : CtrlIdx := ⟨3 * d.val + (o - 0xC00000) / 0x10000 % 3, by have := d.isLt; omega⟩
    withArb (.memc m) (.memc m) (o % 0x10000)
  else if 0xD00000 ≤ o && o < 0xD10000 then (.xlat d, o % 0x10000)
  else if 0xE00000 ≤ o && o < 0xE30000 then bndBlock (.die d ⟨(o - 0xE00000) / 0x10000 % 3, by omega⟩) (o % 0x10000)
  else if 0xE3F000 ≤ o && o < 0xE40000 then (.arb (.seam d true), o - 0xE3F000)
  else if 0xE4F000 ≤ o && o < 0xE50000 then (.arb (.seam d false), o - 0xE4F000)
  else if o = 0xF01000 || o = 0xF01004 then (.warden d, o - 0xF01000)
  else if 0xF40000 ≤ o && o < 0xF60000 then
    (.steward ⟨2 * d.val + (o - 0xF40000) / 0x10000 % 2, by have := d.isLt; omega⟩, o % 0x10000)
  else (.reserved, 0)

def hubBlock (k : HubIdx) (o : Nat) : Block × Nat :=
  if 0x100000 ≤ o && o < 0x160000 then
    let m : CtrlIdx := ⟨24 + 6 * k.val + (o - 0x100000) / 0x10000 % 6, by have := k.isLt; omega⟩
    withArb (.memc m) (.memc m) (o % 0x10000)
  else if o = 0x180000 then (.flash k, 0)
  else if 0x200000 ≤ o && o < 0x240000 then bndBlock (.hub k ⟨(o - 0x200000) / 0x10000 % 4, by omega⟩) (o % 0x10000)
  else if o = 0x300010 || o = 0x300014 then (.hubTemp k, o - 0x300010)
  else (.reserved, 0)

/-- The block that an offset of internal control space lies in. -/
def icsBlock (off : Nat) : Block × Nat :=
  let o := off % 0x01000000
  let n := off / 0x01000000 % 256
  if off < 0x0100000000 then (.module, off)
  else if off < 0x0200000000 then (if h : n < 8 then dieBlock ⟨n, h⟩ o else (.reserved, 0))
  else if off < 0x0300000000 then (if h : n < 4 then hubBlock ⟨n, h⟩ o else (.reserved, 0))
  else if h : n < 2 then
    (if 0xE00000 ≤ o && o < 0xE20000 then bndBlock (.engine ⟨n, h⟩ ⟨(o - 0xE00000) / 0x10000 % 2, by omega⟩) (o % 0x10000)
    else if n = 1 && 0x100000 ≤ o && o < 0x101000 then (.spec, o - 0x100000)
    else (.reserved, 0))
  else (.reserved, 0)

/-- What an aligned word of a block reads as. -/
def State.blockRead (s : State) (b : Block) (w : Nat) : Nat :=
  match b with
  | .module => s.moduleWord w
  | .core c => s.coreWord c.val w
  | .arb p => s.arbWord p w
  | .half h => s.halfWord h.val w
  | .bank h b => s.bankWord h.val b.val
  | .memc m => s.ctrlWord m.val w
  | .xlat d => s.xlatWord d.val w
  | .bnd p => s.bndWord p w
  | .warden d => half8 (s.dieTime d.val) w 0
  | .steward h => s.stewWord h.val w
  | .flash k => (s.flashCtrl k.val).word
  | .hubTemp k => (SMap.get 0 s.power.hubTemps (4 * k.val + w / 2)).toNat + (SMap.get 0 s.power.hubTemps (4 * k.val + w / 2 + 1)).toNat * 2 ^ 16
  | .spec => s.specWord w
  | .reserved => 0

/-- An aligned word of internal control space. -/
def State.icsWord (s : State) (off : Nat) : Nat := s.blockRead (icsBlock off).1 (icsBlock off).2

/-- A register of `size` bytes, 4 or 8, read whole (R24). -/
def State.icsRead (s : State) (off size : Nat) : Nat := if size = 8 then s.icsWord off + s.icsWord (off + 4) * 2 ^ 32 else s.icsWord off

/-- The side effect of reading a word: RC fields (R7). -/
def State.readEffect (s : State) (off : Nat) : State :=
  match icsBlock off with
  | (.core c, w) => if w = 0x60 then s.coreStackMaxRead c else s
  | (.bank h b, _) => s.missregHwmRead h b
  | _ => s

/-! The identity and status registers of PF BAR0 (R505, R506). -/

def State.hstStatus (s : State) : Nat := s.sys.step % 256 * 2 ^ 16 + s.twin.code * 2 ^ 8 + s.sys.state % 4 * 4 + bit (s.sys.state == 2)
def State.hstLink (s : State) : Nat := s.host.rate % 16 * 2 ^ 12 + s.host.width % 32
def State.enabledArrays (s : State) : Nat := ((List.range 640).filter fun c => !(s.core c).arrayOff).length
def State.hstIdent (s : State) : Nat := s.enabledArrays * 2 ^ 16 + s.fw.grade % 2 ^ 16

end Sys2Proof.Machine
end

