-- ==== Sys2Proof/WellFormed.lean ====
section
/-!
DEFINITION. Which commands a link of the module can carry at all: payload lengths of the transports and of the reads that
Valac makes. The register spaces, addresses and contents are free; what the module does with a wrong one is its meaning.
-/
namespace Sys2Proof

/-- A read brings back exactly `n` bytes, or fails. -/
def ReadResult.len (n : Nat) : ReadResult → Bool
  | .data b => b.length == n
  | .fail _ _ => true

/-- A completion for `n` bytes at most (R487: Max Read Request Size). -/
def CplStatus.wf : CplStatus → Bool
  | .data b => b.length ≤ 4096
  | .poisoned b => b.length ≤ 4096
  | _ => true

/-- Host register writes carry 1 to 512 bytes (R487: Max Payload Size). -/
def wfPayload (data : List Byte) : Bool := 0 < data.length && data.length ≤ 512

/-- Bytes of a line record lie in the line (R484). -/
def wfLine (line : Nat) (data : List (Nat × Byte)) : Bool :=
  line % 128 == 0 && line < 2 ^ 48 && data.all fun e => e.1 < 128

/-- The commands that a link can carry. -/
def Instr.wellFormed : Instr → Bool
  | .registerWrite _ off data => wfPayload data && off < 2 ^ 40
  | .bar4Read _ _ len => 0 < len && len ≤ 4096
  | .bar4Write _ _ data _ _ => wfPayload data
  | .bundleCredit _ _ counts => counts.length ≤ 48
  | .epochWriteRecord _ line data => wfLine line data
  | .syncWriteRecord _ _ line data => wfLine line data
  | .reloadData _ (some data) => data.length == 32
  | .launchConsume _ r => r.len 512
  | .semaphorePoll _ r => r.len 8
  | .completionRingRecheck _ r => r.len 8
  | .launchCommit _ sig rec => sig.len 8 && rec.len 8
  | .hostCompletion _ r => r.wf
  | .walkComplete _ entries _ => entries.length ≤ 5
  | .thermalSample (.half _) temps => temps.length == 8
  | .thermalSample (.hub _) temps => temps.length == 4
  | _ => true

end Sys2Proof
end

