-- ==== Sys2Proof/Machine/Launches.lean ====
section
/-!
DEFINITION. Launch descriptors and their checks, what Valac reads and writes for a queue, consuming a descriptor, and wait
semaphores (R291, R373 to R386, R414, R415).
-/
namespace Sys2Proof.Machine

/-! Accesses of Valac through a queue's context (R291, R373). -/

/-- The pinned leaf that maps all of [va, va + n). -/
def State.pinnedSpan (s : State) (ctx va n : Nat) : Option TlbEntry :=
  (s.pinned ctx va).bind fun e => if va + n ≤ e.va + e.size then some e else none

/-- A read of Valac: at its home where a pinned leaf maps it to module memory, otherwise what the access brings back. -/
def State.valacRead (s : State) (ctx part va n : Nat) (r : ReadResult) : ReadResult :=
  match s.pinnedSpan ctx va n with
  | some e =>
    if e.kind != .module then r
    else
      let a := e.addr va
      if s.owns part a false false != .pass then .fail (BitVec.ofNat 8 fkForeign) 0
      else if (List.range n).any fun i => s.sectorBad (a + i) then .fail (BitVec.ofNat 8 fkPoison) 0
      else .data (s.physBytes a n)
  | none => r

/-- A write of Valac: whether it was performed, and the state after it. -/
def State.valacWrite (s : State) (ctx part va : Nat) (bytes : List Byte) (r : ReadResult) : Bool × State :=
  match s.pinnedSpan ctx va bytes.length with
  | some e =>
    let a := e.addr va
    if e.kind == .module then
      if s.owns part a true false == .pass && e.writable && !s.writeProtected a then
        (true, (linePieces a bytes.length).foldl (fun s p => s.moduleWrite p.1 ((bytes.drop p.2.1).take p.2.2)) s)
      else (false, s)
    else match r with
    | .fail _ _ => (false, s)
    | .data _ => (true, s.emit (.memWrite (s.ctx (ctxSlot ctx)).fn a bytes))
  | none => match r with
    | .fail _ _ => (false, s)
    | .data _ => (true, s.emit (.valacWrite ctx va bytes))

/-! Descriptors (R377 to R379). -/

def descFlag (d : List Byte) (i : Nat) : Bool := bitsOf (fieldAt d 7 1) i 1 == 1
def sigOp (d : List Byte) : Nat := fieldAt d 0x14 1
def waitAddr (d : List Byte) : Nat := fieldAt d 0x20 8
def sigAddr (d : List Byte) : Nat := fieldAt d 0x30 8
def transitOf (d : List Byte) : Nat := fieldAt d 0x18 8
def predCount (d : List Byte) : Nat := fieldAt d 0x18C 2
def preds (d : List Byte) : List Nat := (List.range (predCount d)).map fun i => fieldAt d (0x190 + 2 * i) 2
def nodeFlag (d : List Byte) (i : Nat) : Bool := bitsOf (fieldAt d 0x18E 2) i 1 == 1

/-- Threads per group of a kernel. -/
def Kernel.lanes (k : Kernel) : Nat := 16 * 2 ^ k.width

/-- Check 1: reserved fields or values, or fields of plain and graph launches mixed. -/
def badFields (d : List Byte) (node : Bool) : Bool :=
  let rect := fieldAt d 0x12 1 == 0 && !zeroAt d 0x10 4
  decide (16 ≤ fieldAt d 7 1) || !zeroAt d 0x15 3 || !zeroAt d 0x1D0 48 || decide (2 < sigOp d) || decide (3 < fieldAt d 6 1) || rect ||
  (if node then
    descFlag d 0 || !zeroAt d 0x188 4 || decide (32 < predCount d) || decide (4 ≤ fieldAt d 0x18E 2) ||
      !zeroAt d (0x190 + 2 * predCount d) (64 - 2 * predCount d)
  else if descFlag d 0 then !zeroAt d 8 8 || !zeroAt d 6 1 || !zeroAt d 0x10 4 || !zeroAt d 64 320 || !zeroAt d 0x18C 68
  else !zeroAt d 0x188 72)

/-- Checks 8 and 9 against the rectangle of the partition. -/
def State.misfit (s : State) (p : Nat) (d : List Byte) : Option Nat :=
  match s.rect p, s.descKernel d with
  | some r, some k =>
    match r.sub d with
    | none => some 0x04
    | some x =>
      if k.usesMatrix && x.cores.all (fun c => (s.core c).arrayOff) then some 0x04
      else if k.usesMesh && (x.w != k.rectW || x.h != k.rectH) then some 0x05
      else none
  | some _, none => some 0x01
  | none, _ => some 0x04

/-- The completion ring that a descriptor names exists in the partition. -/
def State.ringOk (s : State) (p : Nat) (d : List Byte) : Bool :=
  fieldAt d 4 2 == 0xFFFF || (match s.cring (fieldAt d 4 2) with | some c => c.part == p | none => false)

/-- Check 5 fails, for the semaphores in use. -/
def badSemaphores (d : List Byte) : Bool := (descFlag d 2 && waitAddr d % 8 != 0) || (sigOp d != 0 && sigAddr d % 8 != 0)

/-- The live version that a descriptor binds to; version 0 is the newest. -/
def Graph.bind (g : Graph) (v : Nat) : Option GraphVersion :=
  g.versions.find? fun x => x.version == (if v = 0 then g.newest else v)

/-- The reason of the first check of R379 that fails as a descriptor is consumed, or as a graph is stored. -/
def State.refusal (s : State) (p : Nat) (d : List Byte) (node : Bool) : Option Nat :=
  if badFields d node then some 0x07
  else if descFlag d 0 then
    match s.graph (fieldAt d 0 4) with
    | none => some 0x01
    | some g =>
      if g.released || g.part != p then some 0x01
      else if (g.bind (fieldAt d 0x188 4)).isNone then some 0x0B
      else if !s.ringOk p d then some 0x0A
      else if badSemaphores d then some 0x08
      else none
  else match s.descKernel d with
  | none => some 0x01
  | some k =>
    if !k.verified || k.part != p then some 0x01
    else if !s.ringOk p d then some 0x0A
    else if badSemaphores d then some 0x08
    else if fieldAt d 8 8 = 0 || 2 ^ 44 < fieldAt d 8 8 then some 0x03
    else if fieldAt d 6 1 ≠ 0 && fieldAt d 6 1 ≠ k.width + 1 then some 0x02
    else s.misfit p d

/-! Eligibility (R382). -/

def State.partRunning (s : State) (p : Nat) : Bool := match s.part p with | some x => x.state == .running | none => false

/-- The queue's oldest launch that Valac has not done with. -/
def State.headOf (s : State) (q : Nat) : Option Launch := s.work.launches.find? fun l => l.queue == q
def State.atHead (s : State) (l : Launch) : Bool := (s.headOf l.queue).map (·.id) == some l.id

/-- A launch may start: consumed, undecided, at the head of an active queue of a running partition and a live context. -/
def State.eligible (s : State) (l : Launch) : Bool :=
  s.sys.state == 2 && l.verdict.isNone && l.stop.isNone && (l.phase == .waiting || l.phase == .admitted) && s.atHead l &&
  (match s.queue l.queue with | some q => q.state == .active | none => false) && s.partRunning l.part &&
  (match s.ctxById l.ctx with | some x => x.state == 1 | none => false) && (!l.flag 2 || l.semOk)

/-- Note when launches become eligible, and when they cease to be. -/
def State.markEligible (s : State) : State :=
  let f := fun (l : Launch) =>
    if l.phase != .waiting then l
    else if !s.eligible l then { l with eligibleAt := none }
    else if l.eligibleAt.isNone then { l with eligibleAt := some s.now } else l
  { s with work := { s.work with launches := s.work.launches.map f } }

/-! Consuming a descriptor (R376, R414, R415). -/

def verdictFault (kind reason : Nat) : Verdict := { status := .fault, fault := kind, reason, notRun := true }

def newNode : Node :=
  { phase := .waiting, verdict := none, cores := [], held := [], semOk := false, start := 0, energyStart := 0, stamp := 0, record := none,
    work0 := 0, peak := 0 }

/-- Nodes of the version that a graph descriptor would bind to. -/
def State.boundNodes (s : State) (d : List Byte) : Option (GraphVersion × Nat) :=
  if !descFlag d 0 then none
  else (s.graph (fieldAt d 0 4)).bind fun g => (g.bind (fieldAt d 0x188 4)).map fun v => (v, fieldAt d 0 4)

/-- Almanac entries that a descriptor needs (R414). -/
def State.transitsOf (s : State) (d : List Byte) : Nat :=
  bit (descFlag d 1) + (match s.boundNodes d with | some v => (v.1.nodes.filter fun n => descFlag n 1).length | none => 0)

/-- Transit times of a descriptor lie more than 60 s ahead. -/
def State.tooFar (s : State) (d : List Byte) : Bool :=
  (d :: (match s.boundNodes d with | some v => v.1.nodes | none => [])).any fun n =>
    descFlag n 1 && decide (s.now + 60000000000 < transitOf n)

/-- The launch as it is consumed; `reason` of a refusal. -/
def State.newLaunch (s : State) (q : Nat) (x : Queue) (d : List Byte) (reason : Option Nat) : Launch :=
  let bound := if reason.isSome then none else s.boundNodes d
  { id := BitVec.ofNat 64 (q * 2 ^ 52 + x.head.toNat * 2 ^ 20), queue := q, part := x.part, ctx := x.ctx, desc := d, phase := .waiting,
    kernel := fieldAt d 0 4, graph := bound.map fun v => (v.2, v.1.version), eligibleAt := none, admittedEnd := none, start := 0,
    energyStart := 0, semOk := false, cores := [], busy := [],
    nodes := (match bound with | some v => v.1.nodes.map fun _ => newNode | none => []), late := false, overlap := false, lost := false,
    recordsLost := false, stop := reason.map (verdictFault 0), verdict := none, signalled := false, record := none, preramp := none,
    stamp := 0, admitNo := 0, work0 := 0, peak := 0 }

/-- One launch more is bound to a version. -/
def State.useVersion (s : State) (g : Nat × Nat) : State :=
  match s.graph g.1 with
  | none => s
  | some x => s.setGraph g.1 (some { x with versions := x.versions.map fun v =>
      if v.version = g.2 then { v with users := v.users + 1 } else v })

/-- Valac copies a descriptor and advances head. -/
def State.consume (s : State) (q : Nat) (x : Queue) (d : List Byte) : State :=
  let reason := match s.refusal x.part d false with
    | some r => some r
    | none => if s.tooFar d then some 0x0C else none
  let l := s.newLaunch q x d reason
  let aborted := x.abortSeqs.contains x.head
  let s1 := s.setQueue q (some { x with head := x.head + 1, waitAlmanac := false, abortSeqs := x.abortSeqs.filter (· != x.head) })
  let s2 := { s1 with work := { s1.work with launches := s1.work.launches ++ [l] } }
  let s3 := match l.graph with | some g => s2.useVersion g | none => s2
  if aborted then s3.commitLaunch l.id { verdictAborted 0x21 with notRun := true } else s3.markEligible

/-- Launches of a queue that are consumed and not retired. -/
def State.unretired (s : State) (q : Nat) : Nat := (s.work.launches.filter fun l => l.queue == q && l.verdict.isNone).length

/-- LAUNCH_CONSUME: `desc` is what the ring read brings back. -/
def execLaunchConsume (q : QueueIdx) (desc : ReadResult) (s : State) : Host.Outcome State Fault Refusal :=
  if !desc.len 512 then .fault (.malformed "LAUNCH_CONSUME")
  else .next (match s.queue q with
  | none => s
  | some x =>
    if s.sys.state != 2 || x.state != .active || !s.partRunning x.part || x.head == x.tail || decide (2 ≤ s.unretired q) then s
    else match s.valacRead x.ctx x.part (x.ring.toNat + 512 * (x.head.toNat % 2 ^ x.log2)) 512 desc with
    | .fail _ _ => s.haltQueue q .haltedError 1
    | .data d =>
      if 256 < s.almanacUsed + s.transitsOf d && 0 < s.transitsOf d then s.setQueue q (some { x with waitAlmanac := true })
      else s.consume q x d)

/-! Wait semaphores (R383, R385, R386). -/

def failValue : Nat := 2 ^ 64 - 1
def verdictSkipped (reason : Nat) : Verdict := { status := .skipped, fault := 0, reason, notRun := true }

/-- What a reading of a wait semaphore decides: satisfied or not, or a verdict without running. -/
def judge (d : List Byte) : ReadResult → Bool × Option Verdict
  | .fail kind cause => (false, some (verdictFault kind.toNat cause.toNat))
  | .data b =>
    let v := leNat b
    if v = failValue then (false, some (verdictSkipped 0x30)) else (decide (fieldAt d 0x28 8 ≤ v), none)

/-- Number of the node that an identifier names, 0 for a whole launch (R380). -/
def nodeOf (id : DWord) : Nat := bitsOf id.toNat 0 13
def wholeOf (id : DWord) : DWord := id &&& ~~~(0x1FFF : DWord)

def State.setNode (s : State) (l : Launch) (i : Nat) (f : Node → Node) : State :=
  s.setLaunch { l with nodes := l.nodes.zipIdx.map fun (e : Node × Nat) => if e.2 = i then f e.1 else e.1 }

/-- SEMAPHORE_POLL of a launch at the head of its queue, or of a node of it; `word` is what the read brings back. -/
def execSemaphorePoll (launch : DWord) (word : ReadResult) (s : State) : Host.Outcome State Fault Refusal :=
  if !word.len 8 then .fault (.malformed "SEMAPHORE_POLL")
  else .next (match s.launch (wholeOf launch) with
  | none => s
  | some l =>
    if l.verdict.isSome || l.stop.isSome || !s.atHead l then s
    else if nodeOf launch = 0 then
      if !l.flag 2 || l.phase != .waiting then s
      else
        let r := judge l.desc (s.valacRead l.ctx l.part (waitAddr l.desc) 8 word)
        (s.setLaunch { l with semOk := r.1, stop := r.2 }).markEligible
    else
      let i := nodeOf launch - 1
      match l.nodes[i]?, (match l.graph with | some g => (s.graphNodes g)[i]? | none => none) with
      | some n, some d =>
        if n.phase != .waiting || n.verdict.isSome || !descFlag d 2 then s
        else
          let r := judge d (s.valacRead l.ctx l.part (waitAddr d) 8 word)
          s.setNode l i fun n => { n with semOk := r.1, verdict := r.2 }
      | _, _ => s)

end Sys2Proof.Machine
end

