-- ==== Sys2Proof/Machine/Starts.lean ====
section
/-!
DEFINITION. The order of launches, the admission of latency-critical work, and the start of launches, layers and transits (R235, R236,
R251, R381, R399, R411 to R415, R422, R430 to R435, R450, R457).
-/
namespace Sys2Proof.Machine

/-! Descriptors of a launch and of its nodes. -/

def Launch.descs (l : Launch) (nodes : List (List Byte)) : List (List Byte) := if l.graph.isSome then nodes else [l.desc]
def State.descsOf (s : State) (l : Launch) : List (List Byte) := l.descs (match l.graph with | some g => s.graphNodes g | none => [])

/-- Cores of the rectangle of a descriptor. -/
def State.descCores (s : State) (p : Nat) (d : List Byte) : List Nat :=
  match (s.rect p).bind fun r => r.sub d with
  | some r => r.cores
  | none => []

/-- Nodes of the layer that node `i` begins or goes on: `i` and those joined to it by layer_next (R399). -/
def layerFrom (ds : List (List Byte)) : Nat → Nat → List Nat
  | _, 0 => []
  | i, n + 1 => i :: (if nodeFlag (ds.getD i []) 0 && i + 1 < ds.length then layerFrom ds (i + 1) n else [])
def layerOf (ds : List (List Byte)) (i : Nat) : List Nat := layerFrom ds i ds.length
/-- The node is not the first of its layer. -/
def midLayer (ds : List (List Byte)) (i : Nat) : Bool := 0 < i && nodeFlag (ds.getD (i - 1) []) 0
def State.layerCores (s : State) (p : Nat) (ds : List (List Byte)) (i : Nat) : List Nat :=
  ((layerOf ds i).flatMap fun j => s.descCores p (ds.getD j [])).eraseDups

/-! Shares and the bound of a launch (R251, R381). -/

/-- Cores of a rectangle that take a share, in rank order. -/
def State.takers (s : State) (k : Kernel) (cores : List Nat) : List Nat := cores.filter fun c => !(k.usesMatrix && (s.core c).arrayOff)

/-- Groups of a grid. -/
def gridGroups (k : Kernel) (d : List Byte) : Nat := (fieldAt d 8 8 + k.lanes - 1) / k.lanes

/-- Clock of P-step `n` in MHz. -/
def stepMhz (n : Nat) : Nat := 1900 - 80 * Nat.min n 15

def ceilDiv (a b : Nat) : Nat := (a + b - 1) / b

/-- R251 in ns, rounded up; none for a kernel without a bound. -/
def State.wcet (s : State) (p : Nat) (d : List Byte) (clear : Bool) : Option Nat :=
  match s.descKernel d, s.part p with
  | some k, some x =>
    if !k.bounded then none
    else
      let n := (s.takers k (s.descCores p d)).length
      let g := ceilDiv (gridGroups k d) (Nat.max 1 n)
      let rounds := ceilDiv g (Nat.max 1 (residentGroups k.regs k.lanes))
      some (5000 + ceilDiv (bit clear * 8192 * 1000 + (8 + rounds * k.cycleBound + 4096) * 1050) (stepMhz x.pstepMin))
  | _, _ => none

/-- Sum of bounds; none when one is missing. -/
def sumBounds (l : List (Option Nat)) : Option Nat := l.foldl (fun a b => match a, b with | some x, some y => some (x + y) | _, _ => none) (some 0)

/-! Cores that launches hold or reserve. -/

/-- Cores that a running launch holds: of a best-effort graph, those of its running nodes and of the rest of their layers. -/
def State.holds (s : State) (l : Launch) : List Nat :=
  if l.verdict.isSome || !l.running then []
  else if l.graph.isSome && !s.launchLc l then l.nodes.flatMap fun n => n.held
  else l.cores

def meet (a b : List Nat) : Bool := a.any fun c => b.contains c

/-- A launch was admitted and has not started. -/
def Launch.reserves (l : Launch) : Bool := l.verdict.isNone && l.stop.isNone && l.phase == .admitted && l.admittedEnd.isSome

/-- No other launch holds one of the cores, nor a reservation made before `before`, and none is under ARRAY_TEST (R363). -/
def State.coresFree (s : State) (l : Launch) (cores : List Nat) (before : Nat) : Bool :=
  !cores.any s.underTest && !s.work.launches.any fun x => x.id != l.id &&
    (meet (s.holds x) cores || (x.reserves && decide (x.admitNo < before) && meet (s.launchCores x) cores))

/-- Pending transits of a launch: times and cores (R413, R414). -/
def State.pendingTransits (s : State) (l : Launch) : List (Nat × List Nat) :=
  if l.verdict.isSome || l.stop.isSome then []
  else
    let own := if l.flag 1 && (l.phase == .waiting || l.phase == .admitted) then [(transitOf l.desc, s.launchCores l)] else []
    let nodes := match l.graph with
      | some g => ((s.graphNodes g).zip l.nodes).filterMap fun e =>
          if descFlag e.1 1 && e.2.phase == .waiting && e.2.verdict.isNone then some (transitOf e.1, s.descCores l.part e.1) else none
      | none => []
    own ++ nodes

/-- A pending transit of another queue keeps these cores from 100 µs before its time, unless the bound ends before it (R413); of two
transits the earlier goes first. -/
def State.guardOpen (s : State) (l : Launch) (cores : List Nat) (bound own : Option Nat) : Bool :=
  !s.timeValid || !(s.work.launches.any fun x => x.queue != l.queue && (s.pendingTransits x).any fun t =>
    decide (t.1 ≤ s.now + 100000) && (match own with | some u => decide (t.1 < u) | none => true) && meet t.2 cores && (match bound with | some w => decide (t.1 ≤ s.now + w) | none => true))

/-! Checks of an eligible launch (R304, R379 checks 8 to 11, R433). -/

/-- The context that the cores last run, or will have run before a launch admitted now. -/
def State.contextOn (s : State) (c : Nat) : Option Nat :=
  let admitted := s.work.launches.filter fun l => l.reserves && (s.launchCores l).contains c
  match admitted.foldl (fun (b : Option Launch) l => match b with | some x => if x.admitNo < l.admitNo then some l else b | none => some l) none with
  | some l => some l.ctx
  | none => match s.work.launches.find? fun l => (s.holds l).contains c with
    | some l => some l.ctx
    | none => (s.core c).lastCtx.map (·.1)
def State.mustClear (s : State) (ctx : Nat) (cores : List Nat) : Bool := cores.any fun c => s.contextOn c != some ctx

/-- Neighbour bundles that are lost. -/
def State.lostBundles (s : State) : List Nat := (List.range 6).filter fun b => (s.bundle b).d0.width == 2 || (s.bundle b).d1.width == 2

/-- A mesh launch or node whose rectangle spans a lost bundle. -/
def State.spansLost (s : State) (l : Launch) : Bool :=
  (s.descsOf l).any fun d => s.descMesh d && s.lostBundles.any fun b =>
    let cs := s.descCores l.part d
    cs.any (fun c => c / 80 == (bundleDies b).1) && cs.any fun c => c / 80 == (bundleDies b).2

def State.staleContext (s : State) (ctx : Nat) : Bool := match s.ctxById ctx with | some x => x.windows.any fun w => w.stale | none => true

/-- A latency-critical partition takes kernels with a bound only. -/
def State.unbounded (s : State) (l : Launch) : Bool :=
  (match s.part l.part with | some x => !x.be | none => false) &&
  (s.descsOf l).any fun d => match s.descKernel d with | some k => !k.bounded | none => true

/-- The reason of the first of checks 8 to 11, or of R433, that fails. -/
def State.lateRefusal (s : State) (l : Launch) : Option Nat :=
  match (s.descsOf l).findSome? fun d => s.misfit l.part d with
  | some r => some r
  | none => if s.staleContext l.ctx then some 0x11 else if s.spansLost l then some 0x06 else if s.unbounded l then some 0x09 else none

/-- Refuse a launch: it commits at LAUNCH_COMMIT. A stale window tears its context down. -/
def State.refuse (s : State) (l : Launch) (reason : Nat) : State :=
  if reason = 0x11 then
    let s1 := s.note { code := 0x0202, severity := 2, partition := l.part, fault := fkUnpinned, ctx := l.ctx, cause := 0x11,
                       data := leBytes 8 l.id.toNat }
    s1.tearContext l.ctx { kind := fkUnpinned, code := 0x11, launch := some l.id, verdict := verdictFault fkUnpinned 0x11 }
  else s.setLaunch { l with stop := some (verdictFault 0 reason) }

/-! Admission (R431, R434, R435, R450). -/

/-- Start of the layer that runs on a core, and the sum of the bounds of its kernels (R434): a best-effort launch. -/
def State.layerEnd (s : State) (l : Launch) (c : Nat) : Nat :=
  match l.graph with
  | none => l.start + ((s.wcet l.part l.desc false).getD 0)
  | some g =>
    let ds := s.graphNodes g
    let running := l.nodes.zipIdx.filter fun (e : Node × Nat) => e.1.held.contains c && (e.1.phase == .running || e.1.phase == .ended)
    match running.head? with
    | none => 0
    | some (n, i) =>
      let rest := (layerOf ds i).map fun j => (s.wcet l.part (ds.getD j []) false).getD 0
      n.start + rest.sum

/-- f(c). -/
def State.freeBy (s : State) (c : Nat) : Nat :=
  s.work.launches.foldl (fun t l =>
    if l.verdict.isSome then t
    else match l.admittedEnd with
    | some e => if (l.running || l.reserves) && (if l.running then l.cores else s.launchCores l).contains c then Nat.max t e else t
    | none => if (s.holds l).contains c then Nat.max t (s.layerEnd l c) else t) s.now

/-- The bound of a launch: of a graph launch the sum over its nodes. -/
def State.launchBound (s : State) (l : Launch) : Option Nat :=
  sumBounds ((s.descsOf l).map fun d => s.wcet l.part d (s.mustClear l.ctx (s.descCores l.part d)))

def State.countRefused (s : State) (p : Nat) : State :=
  match s.part p with
  | some x => s.setPart p (some { x with refused := x.refused + 1 })
  | none => s

/-- Admit or refuse one eligible launch of a latency-critical queue. -/
def State.admitOne (s : State) (l : Launch) : State :=
  match s.lateRefusal l with
  | some r => s.refuse l r
  | none =>
    let d := fieldAt l.desc 0x184 4
    if d ≠ 0 && (s.sys.lcDegraded || s.belowRange l.part) then (s.refuse l 0x09).countRefused l.part
    else
      let from' := (s.launchCores l).foldl (fun t c => Nat.max t (s.freeBy c)) s.now
      let w := (s.launchBound l).getD 0
      if d = 0 || from' + w ≤ l.eligibleAt.getD s.now + d then
        let s1 := s.setLaunch { l with phase := .admitted, admittedEnd := some (from' + w), admitNo := s.work.stamps, cores := s.launchCores l }
        let s2 := { s1 with work := { s1.work with stamps := s1.work.stamps + 1 } }
        match s2.part l.part with
        | some x => s2.setPart l.part (some { x with lastLc := l.queue })
        | none => s2
      else (s.refuse l 0x09).countRefused l.part

/-- A change of size is pending, so that only admitted launches start (R422). -/
def State.resizing (s : State) (p : Nat) : Bool :=
  match s.part p with
  | some x => match x.resize with | some r => !r.inForce | none => false
  | none => false

/-- The queue's launches have held cores for its time slice (R431). -/
def State.hogs (s : State) (q : Nat) : Bool :=
  match s.queue q with
  | some x => match x.holdFrom, s.part x.part with
    | some t, some p => decide (t + 1000 * p.slice ≤ s.now)
    | _, _ => false
  | none => false

/-- Launches by rising queue number. -/
def insertByQueue (l : Launch) : List Launch → List Launch
  | [] => [l]
  | x :: r => if l.queue ≤ x.queue then l :: x :: r else x :: insertByQueue l r
def sortByQueue (ls : List Launch) : List Launch := ls.foldr insertByQueue []

/-- Eligible launches of the latency-critical queues of a partition that await admission, in queue order after `last`. -/
def State.awaiting (s : State) (p last : Nat) : List Launch :=
  let ls := s.work.launches.filter fun l => l.part == p && s.launchLc l && l.phase == .waiting && s.eligible l
  sortByQueue (ls.filter fun l => decide (last < l.queue)) ++ sortByQueue (ls.filter fun l => decide (l.queue ≤ last))

/-- One decision of R431 for the latency-critical launches of a partition. -/
def State.admission (s : State) (p : Nat) : State :=
  match s.part p with
  | none => s
  | some x =>
    if s.resizing p then s
    else
      let ls := s.awaiting p x.lastLc
      let free := ls.filter fun l => !s.hogs l.queue
      (if free.isEmpty then ls else free).foldl (fun s l => match s.launch l.id with
        | some l => if s.eligible l then s.admitOne l else s
        | none => s) s

/-! Starting cores (R235, R236, R381). -/

/-- Words L0 to L39. -/
def launchWords (d : List Byte) : SMap DWord :=
  (List.range 40).foldl (fun (m : SMap DWord) i => SMap.set 0 m i (BitVec.ofNat 64 (fieldAt d (64 + 8 * i) 8))) []

/-- Ports that lead out of the rectangle (R234). -/
def edgeMask (cores : List Nat) (c : Nat) : BitVec 4 :=
  BitVec.ofNat 4 (((List.range 4).map fun p =>
    bit (match neighbour c p with | some n => !cores.contains n | none => true) * 2 ^ p).sum)

/-- What the warden writes into a core before its start. -/
structure StartJob where
  id     : DWord
  part   : Nat
  ctx    : Nat
  desc   : List Byte
  kernel : Kernel
  cores  : List Nat
  takers : List Nat
  lc     : Bool
  start  : DWord
deriving DecidableEq, Repr

def StartJob.share (j : StartJob) (c : Nat) : Share :=
  let g := gridGroups j.kernel j.desc
  let n := Nat.max 1 j.takers.length
  let rank := j.takers.idxOf c
  if !j.takers.contains c then { launch := j.id }
  else { first := rank * (g / n) + Nat.min rank (g % n), groups := g / n + bit (decide (rank < g % n)), gridGroups := g,
         threads := fieldAt j.desc 8 8, rank, launch := j.id, placed := 0 }

def StartJob.router (j : StartJob) (c : Nat) (r : Router) : Router :=
  if !j.kernel.usesMesh then r
  else { r with run := true, lc := j.lc, edge := edgeMask j.cores c, running := false, slots := 0, meshSlots := j.kernel.meshSlots,
                start := j.start, inputs := [], sendQ := [], recvQ := [], crossQ := [], crossB := [] }

/-- The registers of a core before its start (R65, R150). -/
def State.configure (s : State) (j : StartJob) (c : Nat) : State :=
  let k := j.kernel
  let place := j.cores.idxOf c
  let sched := k.addr + k.meshOff + 64 + place * k.stride
  s.updCore c fun x =>
    { x with partition := j.part, context := j.ctx, kernelBase := k.addr, schedBase := if k.usesMesh then sched else x.schedBase,
             tilePages := k.tileBytes / 4096, uniforms := k.uniforms, width := k.width, regsDiv8 := k.regs / 8,
             watchdog := (s.ctx (ctxSlot j.ctx)).watchdog, launchBlock := launchWords j.desc, share := j.share c,
             router := j.router c x.router }

/-- The common time of a mesh start: of a transit its time; of a rectangle on several dies a whole µs at least 2 µs after the
launch became eligible, which one is a free value (assumption 3). -/
def State.meshTime (s : State) (l : Launch) (cores : List Nat) (transit : Option Nat) : DWord × State :=
  match transit with
  | some t => (BitVec.ofNat 64 t, s)
  | none =>
    if cores.any fun c => c / 80 != cores.headD 0 / 80 then
      let f := s.draw 16
      (BitVec.ofNat 64 ((ceilDiv (l.eligibleAt.getD s.now + 2000) 1000 + f.1.toNat) * 1000), f.2)
    else (0, s)

/-- Start the cores of a descriptor. -/
def State.startCores (s : State) (l : Launch) (id : DWord) (d : List Byte) (transit : Option Nat) : State :=
  match s.descKernel d with
  | none => s
  | some k =>
    let cores := s.descCores l.part d
    let takers := s.takers k cores
    let m := s.meshTime l cores transit
    let lc := match s.part l.part with | some x => !x.be | none => false
    let j : StartJob := { id, part := l.part, ctx := l.ctx, desc := d, kernel := k, cores, takers, lc, start := m.1 }
    takers.foldl (fun s c => s.startCore c) (cores.foldl (fun s c => s.configure j c) m.2)

/-- Launches that run at the same moment overlap (R389). -/
def State.markOverlap (s : State) (id : DWord) : State :=
  let busy := fun (l : Launch) => l.id != id && l.verdict.isNone && l.running
  if !s.work.launches.any busy then s
  else { s with work := { s.work with launches := s.work.launches.map fun l => if l.id = id || busy l then { l with overlap := true } else l } }

/-- The hold of a latency-critical queue on its cores begins (R431). -/
def State.beginHold (s : State) (q : Nat) : State :=
  match s.queue q with
  | some x => if x.be || x.holdFrom.isSome then s else s.setQueue q (some { x with holdFrom := some s.now })
  | none => s

/-- The best-effort turn of a partition goes to, or stays with, a queue whose launch starts now (R431). -/
def State.takeTurn (s : State) (p q : Nat) : State :=
  match s.part p with
  | some x => s.setPart p (some (if x.turn = some q && x.turnFrom.isSome then x else { x with turn := some q, turnFrom := some s.now }))
  | none => s

/-- A launch begins to run. -/
def State.beginRun (s : State) (l : Launch) (cores : List Nat) (late : Bool) : State :=
  let s1 := s.setLaunch { l with phase := .running, start := s.now, energyStart := s.power.energy, cores, late, work0 := s.power.work,
                                 peak := s.power.work, preramp := none }
  let s2 := (s1.markOverlap l.id).beginHold l.queue
  if s.launchLc l then s2 else s2.takeTurn l.part l.queue

/-- Start a plain launch. -/
def State.startPlain (s : State) (l : Launch) (late : Bool) (transit : Option Nat) : State :=
  let cores := s.descCores l.part l.desc
  let busy := match s.descKernel l.desc with | some k => s.takers k cores | none => []
  (s.beginRun { l with busy } cores late).startCores l l.id l.desc transit

/-- Start node `i` of a graph launch, which then runs: it holds the rest of its layer as well (R399). -/
def State.startNode (s : State) (l : Launch) (i : Nat) (late : Bool) (transit : Option Nat) : State :=
  match l.graph with
  | none => s
  | some g =>
    let ds := s.graphNodes g
    let d := ds.getD i []
    let cores := s.descCores l.part d
    let takers := match s.descKernel d with | some k => s.takers k cores | none => []
    let layer := layerOf ds i
    let nodes := l.nodes.zipIdx.map fun (e : Node × Nat) =>
      if e.2 = i then { e.1 with phase := .running, cores := takers, held := cores, start := s.now, energyStart := s.power.energy,
                                 work0 := s.power.work, peak := s.power.work }
      else if layer.contains e.2 then { e.1 with held := s.descCores l.part (ds.getD e.2 []) } else e.1
    let l1 : Launch := { l with nodes, busy := l.busy ++ takers, preramp := none }
    let s1 := if l.running then s.setLaunch l1 else s.beginRun l1 (s.launchCores l) late
    s1.startCores l (l.id + BitVec.ofNat 64 (i + 1)) d transit

/-! The rise of a start (R456, R457), in 0.1 W. -/

/-- For a plain launch: the rise of the kernel's previous launch on as many cores. -/
def State.plainRise (s : State) (l : Launch) : Nat :=
  let n := (s.launchCores l).length
  match s.descKernel l.desc with
  | some k => match k.rise with | some r => if r.2 = n then r.1 else 106 * n | none => 106 * n
  | none => 106 * n

/-- For a layer that begins at node `i`. -/
def State.layerRise (s : State) (l : Launch) (i : Nat) : Nat :=
  match l.graph with
  | none => 0
  | some g =>
    let known := match s.graph g.1 with
      | some x => match x.versions.find? fun v => v.version == g.2 with
        | some v => SMap.get 0 v.layers i
        | none => 0
      | none => 0
    if known = 0 then 106 * (s.layerCores l.part (s.graphNodes g) i).length else known - 1

/-- A best-effort start waits for pre-ramp. -/
def State.needsPreramp (s : State) (l : Launch) (rise : Nat) : Bool := !s.launchLc l && decide (s.power.ramp + 400 < rise)

/-- The pre-ramp of a waiting start has ended: F has reached its goal, or its time is over. -/
def State.prerampDone (s : State) (l : Launch) (rise : Nat) : Bool :=
  match l.preramp with
  | some t => decide (s.power.work + rise ≤ s.power.envelope) || decide (t + 1000 * ceilDiv rise (Nat.max 1 s.power.ramp) ≤ s.now)
  | none => false

/-! Which launch may start. -/

/-- A node may start: its predecessors have completed OK, its semaphore is satisfied, and no other node holds its cores. -/
def State.nodeReady (s : State) (l : Launch) (ds : List (List Byte)) (i : Nat) : Bool :=
  match l.nodes[i]?, ds[i]? with
  | some n, some d =>
    let own := s.layerCores l.part ds i
    n.phase == .waiting && n.verdict.isNone && (!descFlag d 2 || n.semOk) &&
    (preds d).all (fun j => match l.nodes[j]? with
      | some m => m.phase == .committed && (match m.verdict with | some v => !v.failed | none => false)
      | none => false) &&
    !l.nodes.zipIdx.any fun (e : Node × Nat) => !(layerOf ds i).contains e.2 && meet e.1.held own
  | _, _ => false

/-- The node's transit time, if any, has come. -/
def State.nodeDue (s : State) (d : List Byte) : Bool := !descFlag d 1 || (s.timeValid && decide (transitOf d ≤ s.now))

/-- The first node of a graph launch that may start. -/
def State.firstReady (s : State) (l : Launch) : Option Nat :=
  match l.graph with
  | none => none
  | some g =>
    let ds := s.graphNodes g
    (List.range ds.length).find? fun i => s.nodeReady l ds i && s.nodeDue (ds.getD i [])

/-- Cores that the start of a launch takes, and its bound. -/
def State.startNeeds (s : State) (l : Launch) : Option (List Nat × Option Nat) :=
  match l.graph with
  | none => some (s.launchCores l, s.launchBound l)
  | some g =>
    if s.launchLc l then (s.firstReady l).map fun _ => (s.launchCores l, s.launchBound l)
    else (s.firstReady l).map fun i =>
      let ds := s.graphNodes g
      (s.layerCores l.part ds i, sumBounds ((layerOf ds i).map fun j =>
        s.wcet l.part (ds.getD j []) (s.mustClear l.ctx (s.descCores l.part (ds.getD j [])))))

/-- Cores, reservations and transits let the launch start. -/
def State.roomFor (s : State) (l : Launch) : Bool :=
  match s.startNeeds l with
  | none => false
  | some (cores, bound) =>
    s.coresFree l cores (if s.launchLc l then l.admitNo else s.work.stamps + 1) && s.guardOpen l cores bound (if l.flag 1 then some (transitOf l.desc) else none) &&
      cores.all fun c => (s.core c).mode == .idle

/-- A best-effort launch that could start if its queue held the turn. -/
def State.beReady (s : State) (l : Launch) : Bool :=
  !s.launchLc l && l.phase == .waiting && s.eligible l && !s.resizing l.part && s.roomFor l &&
    (!l.flag 1 || (s.timeValid && decide (transitOf l.desc ≤ s.now)))

/-- Best-effort queues of a partition that could start a launch, in order after queue `q`. -/
def State.beQueues (s : State) (p q : Nat) : List Nat :=
  let ls := sortByQueue (s.work.launches.filter fun l => l.part == p && s.beReady l)
  (ls.filter fun l => decide (q < l.queue)).map (·.queue) ++ (ls.filter fun l => decide (l.queue ≤ q)).map (·.queue)

/-- The turn of a partition is with this queue, or passes to it now. -/
def State.hasTurn (s : State) (p q : Nat) : Bool :=
  match s.part p with
  | none => false
  | some x =>
    let spent := match x.turnFrom with | some t => decide (t + 1000 * x.slice ≤ s.now) | none => false
    match x.turn with
    | some h => if !spent && (s.beQueues p h).contains h then h == q else (s.beQueues p h).head? == some q
    | none => (s.beQueues p 4096).head? == some q

/-- The order of R431 lets the launch start now. -/
def State.mayStart (s : State) (l : Launch) : Bool :=
  s.eligible l && s.roomFor l &&
  (if s.launchLc l then l.phase == .admitted else !s.resizing l.part && s.hasTurn l.part l.queue)

/-- Start a launch, or the first node of a graph launch that is ready. -/
def State.beginLaunch (s : State) (l : Launch) (late : Bool) (transit : Option Nat) : State :=
  match l.graph with
  | none => s.startPlain l late transit
  | some _ => match s.firstReady l with
    | some i => s.startNode l i late transit
    | none => s

/-- Rise of what a launch would start now. -/
def State.startRise (s : State) (l : Launch) : Nat :=
  match l.graph with
  | none => s.plainRise l
  | some _ => match s.firstReady l with
    | some i => s.layerRise l i
    | none => 0

/-- The decisions that precede a start: admission, and the checks of a best-effort launch. -/
def State.considerStart (s : State) (id : DWord) : State :=
  match s.launch id with
  | none => s
  | some l =>
    let s1 := s.admission l.part
    match s1.launch id with
    | none => s1
    | some l1 =>
      if s1.launchLc l1 || !s1.eligible l1 || l1.phase != .waiting || s1.resizing l1.part then s1
      else match s1.lateRefusal l1 with
      | some r => s1.refuse l1 r
      | none => s1

/-- LAUNCH_START. A transit starts here once its time has passed, late; a best-effort launch of a large rise waits for pre-ramp
first. -/
def execLaunchStart (launch : DWord) (s : State) : Host.Outcome State Fault Refusal :=
  let s1 := s.considerStart launch
  .next (match s1.launch launch with
  | none => s1
  | some l =>
    if !s1.mayStart l then s1
    else if l.flag 1 then
      if s1.timeValid && transitOf l.desc + 1000 ≤ s1.now then s1.beginLaunch l true none else s1
    else if s1.needsPreramp l (s1.startRise l) then
      (if l.preramp.isSome then s1 else s1.setLaunch { l with preramp := some s1.now })
    else s1.beginLaunch l false none)

/-- Node `i` of a running graph launch may start: within a layer at any time, a new layer only while the partition runs and keeps
its size, as cores, reservations and transits allow. -/
def State.nodeMayStart (s : State) (l : Launch) (ds : List (List Byte)) (i : Nat) : Bool :=
  l.phase == .running && l.stop.isNone && l.verdict.isNone && s.nodeReady l ds i &&
  (match s.ctxById l.ctx with | some x => x.state == 1 | none => false) &&
  ((s.descCores l.part (ds.getD i [])).all fun c => (s.core c).mode == .idle) &&
  (midLayer ds i ||
    (s.partRunning l.part && s.sys.state == 2 && (!s.resizing l.part || s.launchLc l) &&
      (let cores := s.layerCores l.part ds i
       s.coresFree l cores (if s.launchLc l then l.admitNo else s.work.stamps + 1) &&
       s.guardOpen l cores (sumBounds ((layerOf ds i).map fun j => s.wcet l.part (ds.getD j []) true))
         (if descFlag (ds.getD i []) 1 then some (transitOf (ds.getD i [])) else none))))

/-- GRAPH_LAYER_START of the node that the identifier names. -/
def execGraphLayerStart (launch : DWord) (s : State) : Host.Outcome State Fault Refusal :=
  .next (match s.launch (wholeOf launch) with
  | none => s
  | some l =>
    let i := nodeOf launch - 1
    let ds := s.descsOf l
    if nodeOf launch = 0 || !s.nodeMayStart l ds i then s
    else
      let d := ds.getD i []
      if descFlag d 1 then
        (if s.timeValid && transitOf d + 1000 ≤ s.now then s.startNode l i l.late none else s)
      else if !midLayer ds i && s.needsPreramp l (s.layerRise l i) then
        (if l.preramp.isSome then s else s.setLaunch { l with preramp := some s.now })
      else s.startNode l i l.late none)

/-- PRERAMP_LAUNCH_START: the start that waited for pre-ramp (R457). -/
def execPrerampLaunchStart (launch : DWord) (s : State) : Host.Outcome State Fault Refusal :=
  .next (match s.launch (wholeOf launch) with
  | none => s
  | some l =>
    if nodeOf launch = 0 then
      (if s.mayStart l && s.prerampDone l (s.startRise l) then s.beginLaunch l false none else s)
    else
      let i := nodeOf launch - 1
      if s.nodeMayStart l (s.descsOf l) i && s.prerampDone l (s.layerRise l i) then s.startNode l i l.late none else s)

/-! Transits (R411 to R413). -/

/-- The latest die counter of a set of cores. -/
def State.latestDie (s : State) (cores : List Nat) : Nat := cores.foldl (fun t c => Nat.max t (s.dieTime (c / 80))) 0

/-- TRANSIT_START: a die counter has passed the transit's time. -/
def execTransitStart (launch : DWord) (s : State) : Host.Outcome State Fault Refusal :=
  let s1 := s.considerStart (wholeOf launch)
  .next (match s1.launch (wholeOf launch) with
  | none => s1
  | some l =>
    if !s1.timeValid then s1
    else if nodeOf launch = 0 then
      let t := transitOf l.desc
      let die := s1.latestDie (s1.launchCores l)
      if l.flag 1 && t ≤ die && s1.mayStart l then
        (if t + 1000 ≤ die then s1.beginLaunch l true none else s1.beginLaunch l false (some t))
      else s1
    else
      let i := nodeOf launch - 1
      let ds := s1.descsOf l
      let d := ds.getD i []
      let t := transitOf d
      let die := s1.latestDie (s1.descCores l.part d)
      if descFlag d 1 && t ≤ die && s1.nodeMayStart l ds i then
        s1.startNode l i l.late (if t + 1000 ≤ die then none else some t)
      else s1)

/-- TRANSIT_GUARD: from 100 µs before a transit, its idle cores are cleared for its context (R413). -/
def execTransitGuard (launch : DWord) (s : State) : Host.Outcome State Fault Refusal :=
  .next (match s.launch (wholeOf launch) with
  | none => s
  | some l =>
    if !s.timeValid then s
    else
      let due := (s.pendingTransits l).filter fun t => decide (t.1 ≤ s.now + 100000)
      (due.flatMap (·.2)).eraseDups.foldl (fun s c =>
        let k := s.core c
        if k.mode == .idle && k.lastCtx != some (l.ctx, l.part) && !(s.work.launches.any fun x => (s.holds x).contains c) then
          s.setCore c { k.cleared with lastCtx := some (l.ctx, l.part) }
        else s) s)

/-- BE_TURN_EXPIRY: the turn passes to the next best-effort queue that can start a launch (R431). -/
def execBeTurnExpiry (p : PartIdx) (s : State) : Host.Outcome State Fault Refusal :=
  .next (match s.part p with
  | none => s
  | some x => match x.turn, x.turnFrom with
    | some q, some t =>
      if s.now < t + 1000 * x.slice then s
      else s.setPart p (some { x with turn := (s.beQueues p q).head?, turnFrom := none })
    | _, _ => s)

end Sys2Proof.Machine
end

