-- ==== Sys2Proof/Machine/Commits.lean ====
section
/-!
DEFINITION. The end of launches: end actions, commit, signal, record, undeliverable records, aborts and time limits (R181, R182, R237,
R384 to R396, R399).
-/
namespace Sys2Proof.Machine

/-! Signals (R384, R386). -/

/-- Perform the signal of a descriptor for a status; answers whether it was lost. -/
def State.doSignal (s : State) (ctx part : Nat) (d : List Byte) (ok : Bool) (r : ReadResult) : Bool × State :=
  let put := fun (v : Nat) => let w := s.valacWrite ctx part (sigAddr d) (leBytes 8 v) r; (!w.1, w.2)
  if sigOp d = 0 then (false, s)
  else if !ok then put failValue
  else if sigOp d = 1 then put (fieldAt d 0x38 8)
  else match s.valacRead ctx part (sigAddr d) 8 r with
  | .fail _ _ => (true, s)
  | .data b =>
    let w := leNat b
    put (if w = failValue then failValue else Nat.min (w + fieldAt d 0x38 8) (failValue - 1))

/-! Records (R387, R388, R390, R391). -/

inductive Delivery where
  | written | waits | failed
deriving DecidableEq, Repr

def orByte (bs : List Byte) (i v : Nat) : List Byte :=
  bs.zipIdx.map fun (e : Byte × Nat) => if e.2 = i then e.1 ||| BitVec.ofNat 8 v else e.1

/-- The ring shows room for one more record. -/
def CRing.room (c : CRing) : Bool := (c.count + (2 ^ 32 - c.seen % 2 ^ 32)) % 2 ^ 32 < 2 ^ c.log2

/-- Write a record to its ring: `r` is what the read of the head word of a full ring brings back, or how the write fares. -/
def State.putRecord (s : State) (ctx part ring : Nat) (bytes : List Byte) (r : ReadResult) : Delivery × State :=
  match s.cring ring with
  | none => (.failed, s)
  | some c =>
    let size := 2 ^ c.log2
    let seen : Option Nat := if c.room then some c.seen
      else match s.valacRead ctx part (c.addr.toNat + 64 * size) 8 r with
        | .fail _ _ => none
        | .data b => some (leNat b % 2 ^ 32)
    match seen with
    | none => (.failed, s)
    | some n =>
      let c1 : CRing := { c with seen := n }
      if !c1.room then (.waits, s.setCring ring (some c1))
      else
        let w := s.valacWrite ctx part (c.addr.toNat + 64 * (c.count % size)) (orByte bytes 0x0B (bit (decide (c.count / size % 2 = 0)))) r
        if w.1 then (.written, w.2.setCring ring (some { c1 with count := c.count + 1 })) else (.failed, s)

/-- Records of a ring that wait ahead of one committed as number `stamp` (R390). -/
def State.recordsAhead (s : State) (part ring stamp : Nat) : Bool :=
  s.work.launches.any fun l => l.part == part && l.cringNo == ring &&
    ((l.record.isSome && l.verdict.isSome && decide (l.stamp < stamp)) || l.nodes.any fun n => n.record.isSome && decide (n.stamp < stamp))

/-- The MSI-X message of a ring. -/
def State.ringSignal (s : State) (ring : Nat) : State :=
  match s.cring ring with
  | some c => s.signal c.fn c.vector
  | none => s

/-- A record is undeliverable: the queue halts, unless its context is torn down (R391, R392). -/
def State.undeliverable (s : State) (l : Launch) (record : List Byte) : State :=
  let s1 := match s.part l.part with
    | some p => s.setPart l.part (some { p with undeliverable := p.undeliverable ++ [record] })
    | none => s
  let n := match s1.part l.part with | some p => p.undeliverable.length | none => 0
  let s2 := match s1.queue l.queue with
    | some q => if q.state == QueueState.haltedFault then s1 else s1.setQueue l.queue (some { q with state := .haltedUndeliverable, reason := 0 })
    | none => s1
  (s2.postPart 0x11 l.part (leBytes 2 l.queue ++ leBytes 2 n)).endHaltOp l.queue

/-- Deliver the record of a committed launch whose signal has been performed; then Valac has done with the launch. -/
def State.deliver (s : State) (id : DWord) (r : ReadResult) : State :=
  match s.launch id with
  | none => s
  | some l =>
    if !l.signalled then s
    else match l.record with
    | none => s.dropLaunch id
    | some b =>
      if l.cringNo = 0xFFFF || !s.ringOk l.part l.desc then s.dropLaunch id
      else if s.recordsAhead l.part l.cringNo l.stamp then s
      else
        let bytes := orByte b 0x0B (8 * bit l.lost + 32 * bit l.recordsLost)
        match s.putRecord l.ctx l.part l.cringNo bytes r with
        | (.written, s1) => (if l.flag 3 then s1.ringSignal l.cringNo else s1).dropLaunch id
        | (.waits, s1) => s1
        | (.failed, s1) => (s1.undeliverable l bytes).dropLaunch id

/-- Deliver the record of a node; an undeliverable one is dropped (R399). -/
def State.deliverNode (s : State) (l : Launch) (i : Nat) (d : List Byte) (r : ReadResult) : State :=
  match l.nodes[i]? with
  | none => s
  | some n => match n.record with
    | none => s
    | some b =>
      let done := fun (s : State) => s.setNode l i fun n => { n with record := none }
      if l.cringNo = 0xFFFF then done s
      else if s.recordsAhead l.part l.cringNo n.stamp then s
      else match s.putRecord l.ctx l.part l.cringNo b r with
      | (.written, s1) => done (if descFlag d 3 then s1.ringSignal l.cringNo else s1)
      | (.waits, s1) => s1
      | (.failed, s1) => s1.setLaunch { l with recordsLost := true, nodes := l.nodes.zipIdx.map fun (e : Node × Nat) =>
          if e.2 = i then { e.1 with record := none } else e.1 }

/-- The record of a node (R388, R399). -/
def State.nodeRecord (s : State) (l : Launch) (i : Nat) (n : Node) (v : Verdict) : List Byte :=
  let ran := n.phase == .ended
  leBytes 8 (l.id.toNat + i + 1) ++ leBytes 1 v.status.code ++ leBytes 1 v.fault ++ leBytes 1 v.reason ++
  leBytes 1 (2 * bit l.overlap + 4 * bit v.notRun) ++ leBytes 2 l.queue ++ leBytes 2 0 ++
  leBytes 8 (if ran then n.start else s.now) ++ leBytes 8 s.now ++ leBytes 8 (if ran then n.energyStart else s.power.energy) ++
  leBytes 8 s.power.energy ++ leBytes 2 l.ctx ++ leBytes 2 0 ++ leBytes 4 (match l.graph with | some g => g.2 | none => 0) ++ leBytes 8 0

/-! End actions (R181, R237). -/

/-- Every access of the cores has been performed, and the cores are idle. -/
def State.drained (s : State) (cores : List Nat) : Bool :=
  cores.all (fun c => (s.core c).wb.isEmpty && (s.core c).mode == .idle) &&
  !s.fab.reqs.any fun r => match r.agent.core with | some c => cores.contains c | none => false

/-- Flits that a router still holds. -/
def Router.residue (r : Router) : Nat :=
  let count := fun (m : SMap (List Flit)) => (m.map fun e => e.2.length).sum
  count r.sendQ + count r.recvQ + count r.crossQ + count r.crossB

/-- The end actions of a kernel on its cores. -/
def State.endActions (s : State) (l : Launch) (cores : List Nat) : State :=
  let flits := (cores.map fun c => if (s.core c).router.run then (s.core c).router.residue else 0).sum
  let s1 := s.dropResv fun c _ _ => cores.contains c
  let s2 := { s1 with cores := SMap.mapV {} s1.cores fun c k =>
    let k1 := if cores.contains c then { k with router := if k.router.run then k.router.halt else k.router, rinse := none } else k
    if k1.partition == l.part then { k1 with l1 := [] } else k1 }
  if flits = 0 then s2
  else s2.warn { code := 0x0223, severity := 1, partition := l.part, ctx := l.ctx, data := leBytes 8 l.id.toNat ++ leBytes 4 flits }

/-! Rise of power, for the pre-ramp of later starts (R456, R457). -/

def layerStart (ds : List (List Byte)) : Nat → Nat
  | 0 => 0
  | i + 1 => if nodeFlag (ds.getD i []) 0 then layerStart ds i else i + 1

/-- Keep the rise of a version's layer, or of the whole version. -/
def State.keepRise (s : State) (g : Nat × Nat) (f : GraphVersion → GraphVersion) : State :=
  match s.graph g.1 with
  | some x => s.setGraph g.1 (some { x with versions := x.versions.map fun v => if v.version = g.2 then f v else v })
  | none => s

def State.noteRise (s : State) (l : Launch) : State :=
  let rise := l.peak - l.work0
  match l.graph with
  | some g => s.keepRise g fun v => { v with rise := some (rise, l.cores.length) }
  | none => match s.descKernel l.desc with
    | some k => s.setKernel l.kernel (some { k with rise := some (rise, l.cores.length) })
    | none => s

/-! Commit (R390, R399). -/

def verdictOk : Verdict := { status := .ok, fault := 0, reason := 0, notRun := false }

/-- The first launch of its queue that has not committed. -/
def State.nextToCommit (s : State) (l : Launch) : Bool :=
  ((s.work.launches.find? fun x => x.queue == l.queue && x.verdict.isNone).map (·.id)) == some l.id

/-- The launch has come to its end. -/
def State.mayCommit (s : State) (l : Launch) : Bool :=
  l.verdict.isNone && s.nextToCommit l &&
  (match l.graph with
  | none => (l.stop.isSome && !l.running) || (l.phase == .ended && s.drained l.cores)
  | some _ =>
    if l.stop.isSome then !l.nodes.any fun n => n.phase == .running || n.phase == .ended
    else l.nodes.all fun n => n.phase == .committed)

/-- What it commits with. -/
def Launch.outcome (l : Launch) : Verdict :=
  let idle := l.nodes.all fun n => match n.verdict with | some v => v.notRun | none => n.phase == .waiting
  match l.stop, l.graph with
  | some v, none => { v with notRun := !l.running }
  | some v, some _ => { v with notRun := idle }
  | none, none => verdictOk
  | none, some _ => match l.firstFailed with
    | some e => { e.2 with notRun := idle }
    | none => verdictOk

/-- The signal of a committed launch. -/
def State.performSignal (s : State) (id : DWord) (r : ReadResult) : State :=
  match s.launch id with
  | none => s
  | some l =>
    if l.signalled || l.verdict.isNone then s
    else
      let x := s.doSignal l.ctx l.part l.desc (l.verdict == some verdictOk) r
      x.2.setLaunch { l with signalled := true, lost := x.1 }

/-- A halting queue whose launch has retired (R392). -/
def State.endHalting (s : State) (q : Nat) : State :=
  match s.queue q with
  | some x =>
    if x.state == .halting && !s.work.launches.any (fun l => l.queue == q && l.verdict.isNone && l.running) then
      (s.endHaltOp q).haltQueue q .halted 0
    else s
  | none => s

/-- What a commit lets happen: halts end, deferred P-steps come, launches become eligible and are admitted. -/
def State.afterCommit (s : State) (part q : Nat) : State := ((s.endHalting q).retargetAll.markEligible).admission part

/-- Commit a launch with its end actions. -/
def State.commitRun (s : State) (l : Launch) : State :=
  let s1 := if l.running then (s.endActions l (if l.graph.isSome then [] else l.cores)).noteRise l else s
  s1.commitLaunch l.id l.outcome

/-- How a node that may commit now commits. -/
def State.nodeOutcome (s : State) (l : Launch) (ds : List (List Byte)) (i : Nat) : Option Verdict :=
  match l.nodes[i]? with
  | none => none
  | some n =>
    if n.phase == .ended then (if s.drained n.held then some (l.stop.getD verdictOk) else none)
    else if n.phase == .waiting && l.stop.isNone && l.verdict.isNone && (l.phase == .running || s.eligible l) then
      (match n.verdict with
      | some v => some v
      | none =>
        if (preds (ds.getD i [])).any fun j => match l.nodes[j]? with
          | some m => m.phase == .committed && (match m.verdict with | some v => v.failed | none => false)
          | none => false
        then some (verdictSkipped 0x31) else none)
    else none

/-- Commit a node: end actions, signal, record. -/
def State.commitNode (s : State) (l : Launch) (i : Nat) (d : List Byte) (first : Nat) (v : Verdict) (sig r : ReadResult) : State :=
  match l.nodes[i]? with
  | none => s
  | some n =>
    let ran := n.phase == .ended
    let rise := n.peak - (match l.nodes[first]? with | some m => m.work0 | none => n.work0)
    let s1 := if ran then s.endActions l n.held else s
    let s2 := match l.graph with
      | some g => if ran then s1.keepRise g fun x => { x with layers := SMap.set 0 x.layers first (1 + Nat.max rise (if i = first then 0 else SMap.get 0 x.layers first - 1)) } else s1
      | none => s1
    let record := if nodeFlag d 1 then some (s2.nodeRecord l i n v) else none
    let s3 := s2.setNode l i fun n => { n with phase := .committed, verdict := some v, stamp := s2.work.stamps, held := [], record }
    let s4 := { s3 with work := { s3.work with stamps := s3.work.stamps + 1 } }
    let x := s4.doSignal l.ctx l.part d (v == verdictOk) sig
    match x.2.launch l.id with
    | none => x.2
    | some l1 =>
      let s5 := if x.1 then x.2.setNode l1 i fun n => { n with record := n.record.map fun b => orByte b 0x0B 8 } else x.2
      match s5.launch l.id with
      | some l2 => s5.deliverNode l2 i d r
      | none => s5

/-- LAUNCH_COMMIT of a launch, or of the node that the identifier names: `signal` is what the semaphore's read or write brings
back, `record` what the read of the ring's head word does, or how the record's write fares. A launch that committed with its
context, or at an ABORT, performs its signal and writes its record here. -/
def execLaunchCommit (launch : DWord) (signal record : ReadResult) (s : State) : Host.Outcome State Fault Refusal :=
  if !(signal.len 8 && record.len 8) then .fault (.malformed "LAUNCH_COMMIT")
  else .next (match s.launch (wholeOf launch) with
  | none => s
  | some l =>
    if nodeOf launch = 0 then
      (if l.verdict.isSome then
        (if l.signalled then s else ((s.performSignal l.id signal).deliver l.id record).afterCommit l.part l.queue)
      else if s.mayCommit l then (((s.commitRun l).performSignal l.id signal).deliver l.id record).afterCommit l.part l.queue
      else s)
    else
      let i := nodeOf launch - 1
      let ds := s.descsOf l
      match s.nodeOutcome l ds i with
      | some v => (s.commitNode l i (ds.getD i []) (layerStart ds i) v signal record).retargetAll
      | none => s)

/-- The record of a queue that waits for its ring, oldest commit first: launch, and node when it is one. -/
def State.firstWaiting (s : State) (q : Nat) : Option (DWord × Nat) :=
  let all := (s.work.launches.filter fun l => l.queue == q).flatMap fun l =>
    (if l.record.isSome && l.signalled then [(l.stamp, l.id, 0)] else []) ++
    l.nodes.zipIdx.filterMap fun (e : Node × Nat) => if e.1.record.isSome then some (e.1.stamp, l.id, e.2 + 1) else none
  (all.foldl (fun (b : Option (Nat × DWord × Nat)) e => match b with
    | some x => if e.1 < x.1 then some e else b
    | none => some e) none).map (·.2)

/-- COMPLETION_RING_RECHECK: Valac reads the head word again for a record that waits. -/
def execCompletionRingRecheck (q : QueueIdx) (headWord : ReadResult) (s : State) : Host.Outcome State Fault Refusal :=
  if !headWord.len 8 then .fault (.malformed "COMPLETION_RING_RECHECK")
  else .next (match s.firstWaiting q with
  | none => s
  | some (id, n) =>
    if n = 0 then (s.deliver id headWord).afterCommit (match s.queue q with | some x => x.part | none => 0) q
    else match s.launch id with
    | some l => s.deliverNode l (n - 1) ((s.descsOf l).getD (n - 1) []) headWord
    | none => s)

/-! Aborts and time limits (R393 to R395). -/

/-- What ABORT of an identifier does. -/
inductive AbortCase where
  | stop | later | complete | invalid
deriving DecidableEq, Repr

/-- The cases of R393; `id` has node and reserved bits 0. -/
def State.abortCase (s : State) (x : Queue) (id : DWord) : AbortCase :=
  let seq := bitsOf id.toNat 20 32
  match s.launch id with
  | some l => if l.verdict.isSome then .complete else .stop
  | none =>
    if 2 ^ 31 ≤ (seq + 2 ^ 32 - x.head.toNat) % 2 ^ 32 then .complete
    else if (seq + 2 ^ 32 - x.retired.toNat) % 2 ^ 32 < (x.tail.toNat + 2 ^ 32 - x.retired.toNat) % 2 ^ 32 then .later
    else .invalid

def State.abortLaunch (s : State) (id : DWord) : State := s.stopLaunch id (verdictAborted 0x21) (verdictAborted 0x21)

def verdictTimeout (reason : Nat) : Verdict := { status := .timeout, fault := fkWatchdog, reason, notRun := false }

/-- TIME_LIMIT_EXPIRY. -/
def execTimeLimitExpiry (launch : DWord) (s : State) : Host.Outcome State Fault Refusal :=
  .next (match s.launch launch with
  | none => s
  | some l =>
    if fieldAt l.desc 0x180 4 = 0 || l.verdict.isSome || l.stop.isSome || !s.atHead l then s
    else
      let reason := if l.running then 0x41 else 0x40
      (s.note { code := 0x020B, severity := 2, partition := l.part, fault := fkWatchdog, ctx := l.ctx, cause := reason,
                data := leBytes 8 launch.toNat }).stopLaunch launch (verdictTimeout 0x41) (verdictTimeout 0x40))

/-- ABORT_STOP_TIMEOUT: cores of a stopped launch have not reached IDLE within the target timeout. -/
def execAbortStopTimeout (launch : DWord) (s : State) : Host.Outcome State Fault Refusal :=
  .next (match s.launch launch with
  | none => s
  | some l => match l.stop with
    | none => s
    | some v =>
      if l.verdict.isSome || l.busy.isEmpty then s
      else (s.note { code := 0x0210, severity := 2, partition := l.part, fault := fkAborted, ctx := l.ctx, cause := v.reason,
                     data := leBytes 8 launch.toNat }).tearContext l.ctx { kind := fkAborted, code := v.reason })

end Sys2Proof.Machine
end

