-- ==== Sys2Proof/Machine/Control.lean ====
section
/-!
DEFINITION. Control instructions (R117, R118, R51 to R53) and the end of a group (R59).
-/
namespace Sys2Proof.Machine

/-- An offset in units of 8 B as a signed field. -/
def unitOffset (w v : Nat) : DWord := BitVec.ofInt 64 (8 * signedOf w v)

/-- Target of BRA and CALL; reconvergence address of BRA (R117). -/
def branchTarget (pc : DWord) (u : Fields) : DWord :=
  match u.ext with
  | some x => pc + unitOffset 32 x.toNat
  | none => pc + unitOffset 15 u.mod.toNat
def branchReconv (pc : DWord) (u : Fields) : DWord :=
  match u.ext with
  | some x => pc + unitOffset 32 (x.toNat / 2 ^ 32)
  | none => pc + unitOffset 24 (2 ^ 16 * u.a.toNat + 2 ^ 8 * u.b.toNat + u.c.toNat)

def braForm (u : Fields) : Form :=
  { slots := .zero u.d.toNat :: (if u.ext.isSome then [.zero u.a.toNat, .zero u.b.toNat, .zero u.c.toNat] else []),
    ok := u.ext.isNone || u.mod == 0, engine := .s }

/-- Predicate p0 without negation. -/
def always (u : Fields) : Bool := u.pred == 0 && !u.neg

/-- Push a stack entry: none at 32 entries (R52). -/
def State.pushEntry (s : State) (i : Inst) (e : StackEntry) : Option State :=
  let g := s.grp i
  if 32 ≤ g.stack.length then none
  else
    let s1 := s.setGrp i { g with stack := e :: g.stack }
    some (s1.updCore i.c fun k => { k with stackMax := Nat.max k.stackMax (g.stack.length + 1) })

/-- Set the group of an instruction, whose paths settle. -/
def State.goTo (s : State) (i : Inst) (g : Group) : State := s.setGrp i g.settle

def State.branch (s : State) (i : Inst) : Effect :=
  let g := s.grp i
  let taken := g.passing i.u
  let fall := g.active &&& ~~~taken
  let target := branchTarget g.pc i.u
  let reconv := branchReconv g.pc i.u
  if taken = 0 then .next s
  else if fall = 0 then .jump (s.goTo i { g with pc := target })
  else
    let s1 := s.updCore i.c fun k => k.count 0x118 1
    let exits := match g.top with
      | some e => target == reconv && reconv == e.addr
      | none => false
    if exits then .next (s1.setGrp i { g with active := fall })
    else match s1.pushEntry i { addr := reconv, mask := g.active, isCall := false } with
      | none => .fault s (s.instFault i fkIllegal 4 0 0)
      | some s2 =>
        let g2 := s2.grp i
        .next (s2.setGrp i { g2 with active := fall, paths := (target, taken) :: g2.paths })

/-- BRA. -/
def execBra (g : GroupRef) (u : Fields) (s : State) : Host.Outcome State Fault Refusal :=
  .next (s.issue (inst g u) (braForm u) fun s => s.branch (inst g u))

def briForm (u : Fields) : Form :=
  { slots := [.zero u.d.toNat, .uSrc u.a.toNat, .zero u.b.toNat, .zero u.c.toNat], ok := u.mod == 0 && u.ext.isNone && always u, engine := .s }

/-- BRI. -/
def execBri (g : GroupRef) (u : Fields) (s : State) : Host.Outcome State Fault Refusal :=
  .next (s.issue (inst g u) (briForm u) fun s =>
    let i := inst g u
    let t := s.uVal i u.a.toNat
    if t.toNat % 8 = 0 then .jump (s.goTo i { s.grp i with pc := t })
    else .fault s (s.instFault i fkMisaligned 0 0 t.toNat))

def callForm (u : Fields) : Form :=
  { slots := [.zero u.d.toNat, .zero u.a.toNat, .zero u.b.toNat, .zero u.c.toNat], ok := always u && (u.ext.isNone || u.mod == 0), engine := .s }

/-- CALL. -/
def execCall (g : GroupRef) (u : Fields) (s : State) : Host.Outcome State Fault Refusal :=
  .next (s.issue (inst g u) (callForm u) fun s =>
    let i := inst g u
    let x := s.grp i
    match s.pushEntry i { addr := x.pc + i.bytes, mask := x.active, isCall := true } with
    | none => .fault s (s.instFault i fkIllegal 4 0 0)
    | some s1 => .jump (s1.goTo i { s1.grp i with pc := branchTarget x.pc u }))

/-- The lanes leave the entries above the innermost CALL entry that holds one of them. -/
def returnFrom (m : Mask) : List StackEntry → List StackEntry
  | [] => []
  | e :: rest => if e.isCall && e.mask &&& m != 0 then e :: rest else { e with mask := e.mask &&& ~~~m } :: returnFrom m rest

/-- RET: the returning lanes wait at the innermost CALL entry (R118). -/
def execRet (g : GroupRef) (u : Fields) (s : State) : Host.Outcome State Fault Refusal :=
  .next (s.issue (inst g u) (noOperands u) fun s =>
    let i := inst g u
    let x := s.grp i
    let m := x.passing u
    if m = 0 then .next s
    else if !x.stack.any fun e => e.isCall && e.mask &&& m != 0 then .fault s (s.instFault i fkIllegal 5 0 0)
    else .next (s.setGrp i { x with active := x.active &&& ~~~m, stack := returnFrom m x.stack }))

/-- RECONV: the lanes wait at the reconvergence address of their top entry. -/
def execReconv (g : GroupRef) (u : Fields) (s : State) : Host.Outcome State Fault Refusal :=
  .next (s.issue (inst g u) (noOperands u) fun s =>
    let i := inst g u
    let x := s.grp i
    let m := x.passing u
    if m = 0 then .next s
    else if x.top.isNone then .fault s (s.instFault i fkIllegal 5 0 0)
    else .next (s.setGrp i { x with active := x.active &&& ~~~m }))

/-- EXIT: the lanes leave for good; a barrier may complete without them. -/
def execExit (g : GroupRef) (u : Fields) (s : State) : Host.Outcome State Fault Refusal :=
  .next (s.issue (inst g u) (noOperands u) fun s =>
    let i := inst g u
    let x := s.grp i
    .jump (((s.setGrp i (x.remove (x.passing u))).advance i).barriers i.c))

/-- NOP. -/
def execNop (g : GroupRef) (u : Fields) (s : State) : Host.Outcome State Fault Refusal :=
  .next (s.issue (inst g u) (noOperands u) .next)

/-- A unit of class 0xF, or one fetched outside the code section (R105, R107); with `unlisted`, a unit whose op the table of its class
does not list (R106). -/
def execReservedClassUnit (g : GroupRef) (u : Fields) (unlisted : Bool) (s : State) : Host.Outcome State Fault Refusal :=
  .next (if s.ready (inst g u) then (s.countIssue (inst g u)).takeFault (s.instFault (inst g u) fkIllegal (if unlisted then 2 else 1) 0 0)
  else s)

end Sys2Proof.Machine
end

