-- ==== Sys2Proof/Machine/VectorInt.lean ====
section
/-!
DEFINITION. Vector integer instructions (R123, R124, R127).
-/
namespace Sys2Proof.Machine

/-- A per-lane instruction that writes t[d] from a and b. -/
def State.vecOp (s : State) (i : Inst) (f : Word → Word → Word) : State :=
  s.issue i (vecForm i.u .any .any .unused (dstT i.u) (i.u.opmod == 0) false) fun s =>
    .next (s.putT i ((s.grp i).passing i.u) i.u.d.toNat fun l => f (s.srcA i l) (s.srcB i l))

/-- A per-lane instruction that writes t[d] from a. -/
def State.vecUnary (s : State) (i : Inst) (f : Word → Word) : State :=
  s.issue i (vecForm i.u .any .unused .unused (dstT i.u) (i.u.opmod == 0) false) fun s =>
    .next (s.putT i ((s.grp i).passing i.u) i.u.d.toNat fun l => f (s.srcA i l))

def execIadd (g : GroupRef) (u : Fields) (s : State) : Host.Outcome State Fault Refusal :=
  .next (s.vecOp (inst g u) fun a b => a + b)

def execIsub (g : GroupRef) (u : Fields) (s : State) : Host.Outcome State Fault Refusal :=
  .next (s.vecOp (inst g u) fun a b => a - b)

def execImul (g : GroupRef) (u : Fields) (s : State) : Host.Outcome State Fault Refusal :=
  .next (s.vecOp (inst g u) fun a b => a * b)

def execImulhiU (g : GroupRef) (u : Fields) (s : State) : Host.Outcome State Fault Refusal :=
  .next (s.vecOp (inst g u) fun a b => mulHiU a b)

def execImulhiS (g : GroupRef) (u : Fields) (s : State) : Host.Outcome State Fault Refusal :=
  .next (s.vecOp (inst g u) fun a b => mulHiS a b)

def execVAnd (g : GroupRef) (u : Fields) (s : State) : Host.Outcome State Fault Refusal :=
  .next (s.vecOp (inst g u) fun a b => a &&& b)

def execVOr (g : GroupRef) (u : Fields) (s : State) : Host.Outcome State Fault Refusal :=
  .next (s.vecOp (inst g u) fun a b => a ||| b)

def execVXor (g : GroupRef) (u : Fields) (s : State) : Host.Outcome State Fault Refusal :=
  .next (s.vecOp (inst g u) fun a b => a ^^^ b)

def execVShl (g : GroupRef) (u : Fields) (s : State) : Host.Outcome State Fault Refusal :=
  .next (s.vecOp (inst g u) fun a b => shiftLeft a b)

def execVShr (g : GroupRef) (u : Fields) (s : State) : Host.Outcome State Fault Refusal :=
  .next (s.vecOp (inst g u) fun a b => shiftRight a b)

def execVSar (g : GroupRef) (u : Fields) (s : State) : Host.Outcome State Fault Refusal :=
  .next (s.vecOp (inst g u) fun a b => shiftArith a b)

def execIminS (g : GroupRef) (u : Fields) (s : State) : Host.Outcome State Fault Refusal :=
  .next (s.vecOp (inst g u) fun a b => minS a b)

def execImaxS (g : GroupRef) (u : Fields) (s : State) : Host.Outcome State Fault Refusal :=
  .next (s.vecOp (inst g u) fun a b => maxS a b)

def execIminU (g : GroupRef) (u : Fields) (s : State) : Host.Outcome State Fault Refusal :=
  .next (s.vecOp (inst g u) fun a b => minU a b)

def execImaxU (g : GroupRef) (u : Fields) (s : State) : Host.Outcome State Fault Refusal :=
  .next (s.vecOp (inst g u) fun a b => maxU a b)

def execIaddP16 (g : GroupRef) (u : Fields) (s : State) : Host.Outcome State Fault Refusal :=
  .next (s.vecOp (inst g u) fun a b => halves16 (· + ·) a b)

def execIsubP16 (g : GroupRef) (u : Fields) (s : State) : Host.Outcome State Fault Refusal :=
  .next (s.vecOp (inst g u) fun a b => halves16 (· - ·) a b)

def execImula (g : GroupRef) (u : Fields) (s : State) : Host.Outcome State Fault Refusal :=
  .next (s.issue (inst g u) (vecForm u .any .any .any (dstT u) (u.opmod == 0) false) fun s =>
    let i := inst g u
    .next (s.putT i ((s.grp i).passing u) u.d.toNat fun l => s.srcA i l * s.srcB i l + s.srcC i l))

def execBitcnt (g : GroupRef) (u : Fields) (s : State) : Host.Outcome State Fault Refusal :=
  .next (s.vecUnary (inst g u) fun a => BitVec.ofNat 32 (popCount a))

def execClz (g : GroupRef) (u : Fields) (s : State) : Host.Outcome State Fault Refusal :=
  .next (s.vecUnary (inst g u) fun a => BitVec.ofNat 32 (leadZeros a))

def execVMov (g : GroupRef) (u : Fields) (s : State) : Host.Outcome State Fault Refusal :=
  .next (s.vecUnary (inst g u) fun a => a)

def execIcmp (g : GroupRef) (u : Fields) (s : State) : Host.Outcome State Fault Refusal :=
  .next (s.issue (inst g u) (vecForm u .any .any .unused (dstP u) (decide (u.opmod ≤ 9)) false) fun s =>
    let i := inst g u
    .next (s.putP i ((s.grp i).passing u) u.d.toNat fun l => compareCode u.opmod (s.srcA i l) (s.srcB i l)))

def execPick (g : GroupRef) (u : Fields) (s : State) : Host.Outcome State Fault Refusal :=
  .next (s.issue (inst g u) (vecForm u .any .any .pOnly (dstT u) (u.opmod == 0) false) fun s =>
    let i := inst g u
    let p := (s.grp i).getP u.c.toNat
    .next (s.putT i ((s.grp i).passing u) u.d.toNat fun l => if p.getLsbD l then s.srcA i l else s.srcB i l))

/-! Collectives (R54 to R56, R127). -/

/-- t[a] of a lane, zero outside the active mask (R56). -/
def State.contribution (s : State) (i : Inst) (m : Mask) (lane : Nat) : Word :=
  if m.getLsbD lane then (s.grp i).getT lane i.u.a.toNat else 0

def execXlane (g : GroupRef) (u : Fields) (s : State) : Host.Outcome State Fault Refusal :=
  .next (s.collective (inst g u) (vecForm u .tOnly .any .unused (dstT u) (u.opmod == 0) true) 3 (u.bit 11) fun s m =>
    let i := inst g u
    .next (s.putT i m u.d.toNat fun l => s.contribution i m ((s.srcB i l).toNat % (s.core i.c).W)))

def execBcast (g : GroupRef) (u : Fields) (s : State) : Host.Outcome State Fault Refusal :=
  .next (s.collective (inst g u) (vecForm u .tOnly .unused .unused (dstT u) (decide (u.opmod < (s.core g.core).W)) true) 3 (u.bit 11) fun s m =>
    let i := inst g u
    .next (s.putT i m u.d.toNat fun _ => s.contribution i m u.opmod))

/-- TALLY: ANY and ALL write p[d], LANEMASK a pair of t registers (R124, R127). -/
def execTally (g : GroupRef) (u : Fields) (s : State) : Host.Outcome State Fault Refusal :=
  .next (s.collective (inst g u)
    (vecForm u .pOnly .unused .unused (if u.opmod = 2 then .t u.d.toNat 2 else dstP u) (decide (u.opmod ≤ 2)) true) 3 (u.bit 11) fun s m =>
    let i := inst g u
    let v := (s.grp i).getP u.a.toNat &&& m
    if u.opmod = 2 then
      .next ((s.putT i m u.d.toNat fun _ => v.setWidth 32).putT i m (u.d.toNat + 1) fun _ => v.extractLsb' 32 32)
    else
      let r := if u.opmod = 0 then v != 0 else v == laneMask (s.core i.c).W
      .next (s.putP i m u.d.toNat fun _ => r))

/-- Operations of GRED. -/
def gredOp (op : Nat) (a b : Word) : Word :=
  match op with
  | 0 => a + b
  | 1 => maxS a b
  | 2 => minS a b
  | 3 => a &&& b
  | 4 => a ||| b
  | 5 => maxU a b
  | _ => minU a b

def execGred (g : GroupRef) (u : Fields) (s : State) : Host.Outcome State Fault Refusal :=
  .next (s.collective (inst g u) (vecForm u .tOnly .unused .unused (dstT u) (decide (u.opmod ≤ 6)) true) 3 (u.bit 11) fun s m =>
    let i := inst g u
    let r := ((List.range ((s.core i.c).W - 1)).map (· + 1)).foldl (fun v l => gredOp u.opmod v (s.contribution i m l)) (s.contribution i m 0)
    .next (s.putT i m u.d.toNat fun _ => r))

end Sys2Proof.Machine
end

