-- ==== Sys2Proof/Machine/Convert.lean ====
section
/-!
DEFINITION. Conversion and packing (R128, R129).
-/
namespace Sys2Proof.Machine

def cvtSat (u : Fields) : Bool := u.bit 10
def cvtPos (u : Fields) : Nat := u.bits 8 2
def cvtFrom (u : Fields) : Nat := u.bits 4 4
def cvtTo (u : Fields) : Nat := u.bits 0 4
def cvtTypes (u : Fields) : Bool := decide (cvtFrom u ≤ 9) && decide (cvtTo u ≤ 9)

/-- Convert a register value as the instruction's types say. -/
def cvtValue (u : Fields) (w : Word) : Nat := convertType (cvtSat u) (cvtFrom u) (cvtTo u) w.toNat

def execCvt (g : GroupRef) (u : Fields) (s : State) : Host.Outcome State Fault Refusal :=
  .next (s.issue (inst g u) (vecForm u .any .unused .unused (dstT u) (cvtTypes u && cvtPos u == 0) false) fun s =>
    let i := inst g u
    .next (s.putT i ((s.grp i).passing u) u.d.toNat fun l => BitVec.ofNat 32 (cvtValue u (s.srcA i l))))

def execCvtPk2 (g : GroupRef) (u : Fields) (s : State) : Host.Outcome State Fault Refusal :=
  .next (s.issue (inst g u)
    (vecForm u .any .any .unused (dstT u) (cvtTypes u && cvtPos u == 0 && typeBits (cvtTo u) == 16) false) fun s =>
    let i := inst g u
    .next (s.putT i ((s.grp i).passing u) u.d.toNat fun l =>
      BitVec.ofNat 32 (cvtValue u (s.srcA i l) + 2 ^ 16 * cvtValue u (s.srcB i l))))

def execCvtIns (g : GroupRef) (u : Fields) (s : State) : Host.Outcome State Fault Refusal :=
  .next (s.issue (inst g u) (vecForm u .any .unused .unused (dstT u) (cvtTypes u && typeBits (cvtTo u) == 8) false) fun s =>
    let i := inst g u
    .next (s.putT i ((s.grp i).passing u) u.d.toNat fun l =>
      let old := (s.grp i).getT l u.d.toNat
      let sh := 8 * cvtPos u
      (old &&& ~~~((0xFF : Word) <<< sh)) ||| BitVec.ofNat 32 (cvtValue u (s.srcA i l) * 2 ^ sh)))

def execUnpk (g : GroupRef) (u : Fields) (s : State) : Host.Outcome State Fault Refusal :=
  .next (s.issue (inst g u)
    (vecForm u .any .unused .unused (dstT u)
      (cvtTypes u && (typeBits (cvtFrom u) == 8 || (typeBits (cvtFrom u) == 16 && decide (cvtPos u ≤ 1)))) false) fun s =>
    let i := inst g u
    .next (s.putT i ((s.grp i).passing u) u.d.toNat fun l =>
      BitVec.ofNat 32 (cvtValue u (s.srcA i l >>> (typeBits (cvtFrom u) * cvtPos u)))))

end Sys2Proof.Machine
end

