-- ==== Sys2Proof/Machine/Keccak.lean ====
section
/-!
DEFINITION. SHAKE256 with a 512-bit output, the digest of kernel images (R144). The function itself is the published standard's, to
which the spec refers by name.
-/
namespace Sys2Proof.Machine

/-- Rotation offsets of lane x + 5·y. -/
def keccakOffsets : List Nat := [0, 1, 62, 28, 27, 36, 44, 6, 55, 20, 3, 10, 43, 25, 39, 41, 45, 15, 21, 8, 18, 2, 61, 56, 14]

/-- Round constants. -/
def keccakConstants : List DWord :=
  [0x0000000000000001, 0x0000000000008082, 0x800000000000808A, 0x8000000080008000, 0x000000000000808B, 0x0000000080000001,
   0x8000000080008081, 0x8000000000008009, 0x000000000000008A, 0x0000000000000088, 0x0000000080008009, 0x000000008000000A,
   0x000000008000808B, 0x800000000000008B, 0x8000000000008089, 0x8000000000008003, 0x8000000000008002, 0x8000000000000080,
   0x000000000000800A, 0x800000008000000A, 0x8000000080008081, 0x8000000000008080, 0x0000000080000001, 0x8000000080008008]

def lane (a : List DWord) (i : Nat) : DWord := a.getD i 0

/-- One round on 25 lanes. -/
def keccakRound (a : List DWord) (rc : DWord) : List DWord :=
  let c := (List.range 5).map fun x => lane a x ^^^ lane a (x + 5) ^^^ lane a (x + 10) ^^^ lane a (x + 15) ^^^ lane a (x + 20)
  let d := (List.range 5).map fun x => lane c ((x + 4) % 5) ^^^ (lane c ((x + 1) % 5)).rotateLeft 1
  let r := (List.range 25).map fun i => (lane a i ^^^ lane d (i % 5)).rotateLeft (keccakOffsets.getD i 0)
  -- Lane (x, y) of the permuted state comes from lane (x', y') with x = y' and y = 2x' + 3y'.
  let b := (List.range 25).map fun i => let x := i % 5; let y := i / 5; lane r ((x + 3 * y) % 5 + 5 * x)
  (List.range 25).map fun i =>
    let x := i % 5
    let y := i / 5
    let v := lane b i ^^^ (~~~lane b ((x + 1) % 5 + 5 * y) &&& lane b ((x + 2) % 5 + 5 * y))
    if i = 0 then v ^^^ rc else v

def keccakF (a : List DWord) : List DWord := keccakConstants.foldl keccakRound a

/-- Absorb one block of 136 bytes. -/
def absorb (a : List DWord) (block : List Byte) : List DWord :=
  keccakF (a.zipIdx.map fun (e : DWord × Nat) => if e.2 < 17 then e.1 ^^^ BitVec.ofNat 64 (fieldAt block (8 * e.2) 8) else e.1)

/-- Absorb `n` blocks. -/
def absorbAll (a : List DWord) (bytes : List Byte) : Nat → List DWord
  | 0 => a
  | n + 1 => absorbAll (absorb a (bytes.take 136)) (bytes.drop 136) n

/-- SHAKE256, 64 bytes of output. -/
def shake256 (bytes : List Byte) : List Byte :=
  let blocks := bytes.length / 136 + 1
  let fill := 136 * blocks - bytes.length
  let pad : List Byte := if fill = 1 then [0x9F] else [0x1F] ++ List.replicate (fill - 2) 0 ++ [0x80]
  ((absorbAll (List.replicate 25 0) (bytes ++ pad) blocks).take 8).flatMap fun w => leBytes 8 w.toNat

end Sys2Proof.Machine
end

