-- ==== Sys2Proof/Machine/Queues.lean ====
section
/-!
DEFINITION. Submission queues, completion rings, doorbells, event ring registers and ABORT (R356, R357, R369 to R375, R391 to R394,
R430).
-/
namespace Sys2Proof.Machine

/-! Doorbells (R375, R504). -/

/-- A write of QDB_TAIL. -/
def State.tailWrite (s : State) (q : Nat) (v : Word) : State :=
  match s.queue q with
  | none => s
  | some x =>
    if s.sys.state != 2 then s
    else if 2 ^ x.log2 < (v - x.head).toNat then (if x.state == .active then s.haltQueue q .haltedError 2 else s)
    else s.setQueue q (some { x with tail := v })

def execQdbTailWrite (q : QueueIdx) (v : Word) (s : State) : Host.Outcome State Fault Refusal := .next (s.tailWrite q v)

/-! Event ring registers (R369, R372). -/

/-- Write waiting events: a full backlog and its OVERFLOW. -/
def State.drainRing (s : State) (fn : Nat) : State := s.evrDrain fn 257

/-- EVR_CTRL. -/
def State.evrCtrlWrite (s : State) (fn : Nat) (v : Word) : State :=
  let r := s.ring fn
  let enable := v.getLsbD 31
  let r1 : EventRing := { r with enable, vector := bitsOf v.toNat 16 11, size := if r.enable then r.size else bitsOf v.toNat 0 5 }
  let r2 : EventRing := if r.enable && !enable then { r1 with head := 0, tail := 0, phase := true } else r1
  (s.setRing fn r2).drainRing fn

def execEvrCtrlWrite (fn : FnIdx) (v : Word) (s : State) : Host.Outcome State Fault Refusal := .next (s.evrCtrlWrite fn v)

/-- EVR_HEAD. -/
def State.evrHeadWrite (s : State) (fn : Nat) (v : Word) : State :=
  (s.setRing fn { s.ring fn with head := bitsOf v.toNat 0 16 }).drainRing fn

def execEvrHeadWrite (fn : FnIdx) (v : Word) (s : State) : Host.Outcome State Fault Refusal := .next (s.evrHeadWrite fn v)

/-! Mailbox commands. -/

/-- A command whose operation goes on at once, after its response. -/
def State.runThen (s : State) (opcode : Nat) (f : Cmd → Reply) (after : Cmd → State → State) : State :=
  match s.valac.cur with
  | none => s
  | some c =>
    if c.opcode ≠ opcode then s
    else match f c with
    | .err status detail => s.respond c status detail []
    | .ok payload s1 => after c (s1.respond c stSuccess 0 payload)

/-- Any other command that names a quiescing partition, or one that an operation locks, is BUSY (R343, R428). -/
def State.partBusy (s : State) (p : Nat) : Bool :=
  s.locked (.part p) || (match s.part p with | some x => x.state == .quiescing || x.state == .resetting | none => false)

/-- The partition does not exist for the sender. -/
def State.noPart (s : State) (c : Cmd) (p : Nat) : Bool := (s.part p).isNone || s.foreignTo c p
/-- The queue does not exist for the sender. -/
def State.noQueue (s : State) (c : Cmd) (q : Nat) : Bool :=
  match s.queue q with | some x => s.foreignTo c x.part | none => true
/-- The context does not exist for the sender. -/
def State.noCtx (s : State) (c : Cmd) (id : Nat) : Bool :=
  match s.ctxById id with | some x => s.foreignTo c x.partition | none => true

/-- Lowest number below `n` that `used` does not hold. -/
def lowestFree (n : Nat) (used : Nat → Bool) : Option Nat := (List.range n).find? fun i => !used i

/-- Lowest index that no queue of the partition holds (R374). -/
def State.freeIndex (s : State) (p : Nat) : Option Nat :=
  lowestFree 256 fun i => s.work.queues.any fun e => match e.2 with | some q => q.part == p && q.index == i | none => false

/-- QUEUE_CREATE. -/
def execQueueCreate (s : State) : Host.Outcome State Fault Refusal :=
  .next (s.run 0x0300 fun c =>
    let p := c.arg 0 1
    let be := c.arg 1 1 == 1
    let id := c.arg 4 2
    let wrongCtx := s.noCtx c id || (match s.ctxById id with | some x => x.partition != p | none => true)
    let q := lowestFree 4096 fun i => (s.queue i).isSome
    let index := s.freeIndex p
    let x : Queue := { part := p, be, log2 := c.arg 2 1, tier1 := c.arg 3 1 == 1, ctx := id, ring := BitVec.ofNat 64 (c.arg 8 8),
                       index := index.getD 0, tail := 0, head := 0, retired := 0, state := .active, reason := 0, lastLaunch := 0,
                       holdFrom := none, waitAlmanac := false, haltOp := none, abortSeqs := [] }
    let off := if c.role = 1 then index.getD 0 * 0x1000 else q.getD 0 * 0x1000
    c.check 16
      ([(s.noPart c p, 0), (decide (1 < c.arg 1 1), 1), (decide (c.arg 2 1 < 4 || 16 < c.arg 2 1), 2), (decide (1 < c.arg 3 1), 3),
        (wrongCtx, 4), (c.arg 8 8 % 4096 != 0, 8)] ++ c.reserved [(6, 2)])
      [(!be && (match s.part p with | some y => y.be | none => false), stNotPermitted), (s.partBusy p || s.locked (.ctx id), stBusy),
       (q.isNone || index.isNone, stNoResources)]
      (.ok (leBytes 2 (q.getD 0) ++ leBytes 2 0 ++ leBytes 4 off) (s.setQueue (q.getD 0) (some x))))

/-- QUEUE_DESTROY. -/
def execQueueDestroy (s : State) : Host.Outcome State Fault Refusal :=
  .next (s.run 0x0301 fun c =>
    let q := c.arg 0 2
    c.check 4 ([(s.noQueue c q, 0)] ++ c.reserved [(2, 2)]) [(s.locked (.queue q) || decide (0 < s.unretired q), stBusy)]
      (.ok [] (s.setQueue q none)))

/-- A launch of the queue runs. -/
def State.queueRuns (s : State) (q : Nat) : Bool := s.work.launches.any fun l => l.queue == q && l.verdict.isNone && l.running

/-- QUEUE_HALT. -/
def execQueueHalt (s : State) : Host.Outcome State Fault Refusal :=
  let op := s.valac.nextOp
  .next (s.runThen 0x0302 (fun c =>
    let q := c.arg 0 2
    c.check 4 ([(s.noQueue c q, 0)] ++ c.reserved [(2, 2)]) [(s.locked (.queue q), stBusy), (s.opsFull c, stNoResources)]
      (.ok [] (s.startOp c q)))
    fun c s1 =>
      let q := c.arg 0 2
      match s1.queue q with
      | none => s1
      | some x =>
        if x.state != .active then s1.opDone op stSuccess false []
        else if s1.queueRuns q then s1.setQueue q (some { x with state := .halting, haltOp := some op })
        else (s1.setQueue q (some { x with state := .halted, reason := 0 })).opDone op stSuccess false [])

/-- QUEUE_RESUME. -/
def execQueueResume (s : State) : Host.Outcome State Fault Refusal :=
  .next (s.run 0x0303 fun c =>
    let q := c.arg 0 2
    let state := match s.queue q with | some x => x.state | none => .active
    let waiting := match (s.queue q).bind fun x => s.part x.part with | some p => !p.undeliverable.isEmpty | none => false
    let go := match s.queue q with
      | some x => if x.state == .active then s else (s.setQueue q (some { x with state := .active, reason := 0 })).markEligible
      | none => s
    c.check 4 ([(s.noQueue c q, 0)] ++ c.reserved [(2, 2)])
      [(state == .haltedFault, stNotPermitted), (s.locked (.queue q) || (state == .haltedUndeliverable && (c.role == 1 || waiting)), stBusy)]
      (.ok [] go))

/-- UNDELIVERABLE_DRAIN. -/
def execUndeliverableDrain (s : State) : Host.Outcome State Fault Refusal :=
  .next (s.run 0x0304 fun c =>
    let p := c.arg 0 1
    let ring := match s.part p with | some x => x.undeliverable | none => []
    let n := Nat.min ring.length (c.arg 2 2)
    let rest := match s.part p with | some x => s.setPart p (some { x with undeliverable := ring.drop n }) | none => s
    c.check 4 ([(s.noPart c p, 0), (decide (c.arg 2 2 = 0 || 63 < c.arg 2 2), 2)] ++ c.reserved [(1, 1)]) [(s.partBusy p, stBusy)]
      (.ok (leBytes 2 n ++ leBytes 2 (ring.length - n) ++ List.replicate 28 0 ++ (ring.take n).flatten) rest))

/-- QUEUE_QUERY. -/
def execQueueQuery (s : State) : Host.Outcome State Fault Refusal :=
  .next (s.run 0x0305 fun c =>
    let q := c.arg 0 2
    let body := match s.queue q with
      | some x => leBytes 4 x.state.code ++ leBytes 4 x.head.toNat ++ leBytes 4 x.tail.toNat
      | none => []
    c.check 4 ([(s.noQueue c q, 0)] ++ c.reserved [(2, 2)]) [(s.locked (.queue q), stBusy)] (.ok body s))

/-- CRING_CREATE: the ring signals through the VF of a tenant's partition, or through the PF (R499). -/
def execCringCreate (s : State) : Host.Outcome State Fault Refusal :=
  .next (s.run 0x0306 fun c =>
    let p := c.arg 0 1
    let fn := if c.role = 1 then c.mbx - 1 else 0
    let n := lowestFree 4096 fun i => (s.cring i).isSome
    let x : CRing := { part := p, log2 := c.arg 2 1, tier1 := c.arg 3 1 == 1, fn, vector := c.arg 4 2, addr := BitVec.ofNat 64 (c.arg 8 8),
                       count := 0, seen := 0 }
    c.check 16
      ([(s.noPart c p, 0), (decide (c.arg 2 1 < 4 || 16 < c.arg 2 1), 2), (decide (1 < c.arg 3 1), 3), (decide (tableSize fn ≤ c.arg 4 2), 4),
        (c.arg 8 8 % 4096 != 0, 8)] ++ c.reserved [(1, 1), (6, 2)])
      [(s.partBusy p, stBusy), (n.isNone, stNoResources)]
      (.ok (leBytes 2 (n.getD 0) ++ leBytes 2 0) (s.setCring (n.getD 0) (some x))))

/-- ABORT. -/
def execAbort (s : State) : Host.Outcome State Fault Refusal :=
  .next (s.run 0x0420 fun c =>
    let id : DWord := BitVec.ofNat 64 (c.arg 0 8)
    let q := bitsOf (c.arg 0 8) 52 12
    match s.queue q with
    | none => c.check 8 [(true, 0)] [] (.ok [] s)
    | some x =>
      let case' := if bitsOf (c.arg 0 8) 0 20 ≠ 0 then .invalid else s.abortCase x id
      let go := if case' = .stop then (s.abortLaunch id).markEligible
        else s.setQueue q (some { x with abortSeqs := x.abortSeqs ++ [BitVec.ofNat 32 (bitsOf id.toNat 20 32)] })
      c.check 8 [(s.noQueue c q || case' == .invalid, 0)] [(case' == .complete, stComplete)] (.ok [] go))

end Sys2Proof.Machine
end

