-- ==== Sys2Proof/Machine/Kernels.lean ====
section
/-!
DEFINITION. Kernel images and stored graphs: registration, verification, storing, patching, release (R142 to R150, R228, R229, R357,
R397 to R400, R415).
-/
namespace Sys2Proof.Machine

/-! The image (R143 to R145, R147). -/

/-- A section lies within the image, after `from'` when it is not empty. -/
def sectionOk (off bytes from' size : Nat) : Bool := off % 256 == 0 && decide (off + bytes ≤ size) && (bytes == 0 || decide (from' ≤ off))

/-- Bytes of the image outside its header and sections are zero (R143). -/
def gapsZero (b : List Byte) (sections : List (Nat × Nat)) : Bool :=
  b.zipIdx.all fun (e : Byte × Nat) => e.1 == 0 || decide (e.2 < 256) || sections.any fun x => decide (x.1 ≤ e.2) && decide (e.2 < x.1 + x.2)

/-- The header and the layout follow R143 to R145. -/
def imageLaid (b : List Byte) (size : Nat) : Bool :=
  let f := fieldAt b
  let flags := f 6 2
  let regs := f 8 2
  let uni := f 0x0B 1
  let code := f 0x1C 4
  let poolOff := f 0x20 4
  let pool := f 0x24 4
  let meshOff := f 0x28 4
  let mesh := f 0x2C 4
  f 0 4 == 0x494B3841 && f 4 2 == 1 && decide (flags < 32) && decide (16 ≤ regs) && decide (regs ≤ 256) && regs % 8 == 0 && decide (f 0x0A 1 ≤ 2) &&
  decide (8 ≤ uni) && decide (uni ≤ 64) && uni % 8 == 0 && decide (f 0x0C 4 ≤ 2097152) && f 0x0C 4 % 4096 == 0 && decide (f 0x10 2 ≤ 1024) &&
  zeroAt b 0x12 2 && zeroAt b 0x34 4 && zeroAt b 0x50 48 && zeroAt b 0xC0 64 && f 0x14 4 % 8 == 0 && decide (f 0x14 4 < code) &&
  f 0x18 4 == 0x100 && code % 8 == 0 && decide (8 ≤ code) && decide (code ≤ 2 ^ 24) && pool % 8 == 0 && decide (pool ≤ 2 ^ 24) &&
  f 0x30 4 == size && decide (0x100 + code ≤ size) && sectionOk poolOff pool (0x100 + code) size &&
  sectionOk meshOff mesh (if pool = 0 then 0x100 + code else poolOff + pool) size &&
  gapsZero b [(0x100, code), (poolOff, pool), (meshOff, mesh)] && (flags.testBit 2 || zeroAt b 0x38 8) &&
  (if flags.testBit 1 then f 0x10 2 != 0 && mesh != 0 else f 0x10 2 == 0 && mesh == 0)

/-! Mesh tables (R150, R228, R229). -/

/-- A port, coded 1 N, 2 E, 3 S, 4 W, leads out of a rectangle of w × h cores at (rx, ry). -/
def leaves (rx ry w h code : Nat) : Bool :=
  (code == 4 && rx == 0) || (code == 2 && rx + 1 == w) || (code == 1 && ry == 0) || (code == 3 && ry + 1 == h)

/-- An output entry of output `out`, coded as its sources are (R229). -/
def entryOk (rx ry w h out v : Nat) : Bool :=
  let a := bitsOf v 0 3
  let b := bitsOf v 3 3
  let add := v.testBit 6
  decide (a < 6) && decide (b < 6) && (if add then a != 0 && b != 0 && a != b else b == 0) && a != out && b != out && !(v.testBit 7 && a == 0) &&
  (a == 0 || (!leaves rx ry w h out && !leaves rx ry w h a && !leaves rx ry w h b))

def slotWordOk (rx ry w h v : Nat) : Bool :=
  decide (v < 2 ^ 60) && (List.range 5).all fun p => entryOk rx ry w h (p + 1) (bitsOf v (12 * p) 12)

/-- The mesh section: header, and every slot word of every table. -/
def meshOk (b : List Byte) (slots : Nat) : Bool :=
  let w := fieldAt b 0 2
  let h := fieldAt b 2 2
  let stride := fieldAt b 8 4
  decide (1 ≤ w) && decide (w ≤ 40) && decide (1 ≤ h) && decide (h ≤ 16) && fieldAt b 4 2 == slots && zeroAt b 6 2 && stride % 64 == 0 &&
  decide (8 * slots ≤ stride) && zeroAt b 0x0C 52 && decide (64 + w * h * stride ≤ b.length) &&
  (List.range h).all fun ry => (List.range w).all fun rx =>
    let t := (b.drop (64 + (ry * w + rx) * stride)).take stride
    zeroAt t (8 * slots) (stride - 8 * slots) && (List.range slots).all fun j => slotWordOk rx ry w h (fieldAt t (8 * j) 8)

/-- The status of a verification (R147): its layout, its privilege, its digest. -/
def imageStatus (b : List Byte) (size : Nat) : Nat :=
  let flags := fieldAt b 6 2
  if !imageLaid b size || (flags.testBit 1 && !meshOk ((b.drop (fieldAt b 0x28 4)).take (fieldAt b 0x2C 4)) (fieldAt b 0x10 2)) then stInvalid
  else if flags.testBit 4 then stNotPermitted
  else if shake256 (b.drop 256) != (b.drop 0x80).take 64 then stVerify
  else stSuccess

/-- What Valac keeps of a verified image. -/
def kernelOf (b : List Byte) (part ctx addr : Nat) : Kernel :=
  let mesh := b.drop (fieldAt b 0x28 4)
  { part, ctx, addr, bytes := fieldAt b 0x30 4, flags := fieldAt b 6 2, regs := fieldAt b 8 2, width := fieldAt b 0x0A 1, uniforms := fieldAt b 0x0B 1,
    tileBytes := fieldAt b 0x0C 4, meshSlots := fieldAt b 0x10 2, entry := fieldAt b 0x14 4, codeBytes := fieldAt b 0x1C 4, poolOff := fieldAt b 0x20 4,
    poolBytes := fieldAt b 0x24 4, meshOff := fieldAt b 0x28 4, rectW := fieldAt mesh 0 2, rectH := fieldAt mesh 2 2, stride := fieldAt mesh 8 4,
    cycleBound := fieldAt b 0x38 8, verified := true, rise := none }

/-! Registration. -/

/-- KERNEL_REGISTER. -/
def execKernelRegister (s : State) : Host.Outcome State Fault Refusal :=
  .next (s.run 0x0400 fun c =>
    let id := c.arg 0 2
    c.check 24
      ([(s.noCtx c id, 0), (decide (1 < c.arg 2 1), 2), (c.arg 8 8 % 256 != 0, 8),
        (c.arg 0x10 4 % 256 != 0 || decide (c.arg 0x10 4 = 0) || decide (2 ^ 26 < c.arg 0x10 4), 0x10)] ++ c.reserved [(3, 5), (0x14, 4)])
      [(c.arg 2 1 == 0 && c.role == 1, stNotPermitted), (s.locked (.ctx id), stBusy), (s.opsFull c, stNoResources)]
      (.ok [] (s.startOp c 0)))

/-- The range of module memory that an image occupies, owned by the partition when a tenant or a context names it. -/
def State.imagePlace (s : State) (c : Cmd) (part : Nat) (p : ImagePlace) : ImagePlace :=
  let n := c.arg 0x10 4
  let inMemory := fun (a : Nat) => (addrClass a == .tier1 && addrClass (a + n - 1) == .tier1) || (addrClass a == .tier2 && addrClass (a + n - 1) == .tier2)
  let found : ImagePlace := if c.arg 2 1 = 0 then .range (c.arg 8 8)
    else match s.pinnedSpan (c.arg 0 2) (c.arg 8 8) n with
    | some e => if e.kind == .module then .range (e.addr (c.arg 8 8)) else .broken
    | none => p
  match found with
  | .range a => if a % 256 == 0 && inMemory a && (c.arg 2 1 == 0 || s.owns part a false false == .pass) then .range a else .broken
  | x => x

/-- KERNEL_REGISTER_COMPLETE: Valac has read and verified the image of the oldest registration under way; `p` is where its
virtual range lies. -/
def execKernelRegisterComplete (p : ImagePlace) (s : State) : Host.Outcome State Fault Refusal :=
  .next (match s.opOf 0x0400 with
  | none => s
  | some o =>
    let ctx := o.cmd.arg 0 2
    let part := match s.ctxById ctx with | some x => x.partition | none => 0
    match s.imagePlace o.cmd part p with
    | .noExecute => s.opDone o.id stNotPermitted false []
    | .broken => s.opDone o.id stInvalid false []
    | .range a =>
      let b := s.physBytes a (o.cmd.arg 0x10 4)
      let st := imageStatus b (o.cmd.arg 0x10 4)
      if st ≠ stSuccess then s.opDone o.id st false []
      else
        let h := s.work.nextHandle
        let s1 := s.setKernel h (some (kernelOf b part ctx a))
        ({ s1 with work := { s1.work with nextHandle := h + 1 } }).opDone o.id stSuccess false (leBytes 4 h))

/-- A launch that is pending or running names the kernel. -/
def State.kernelUsed (s : State) (h : Nat) : Bool :=
  s.work.launches.any fun l => l.verdict.isNone && (s.descsOf l).any fun d => fieldAt d 0 4 == h

/-- KERNEL_RELEASE. -/
def execKernelRelease (s : State) : Host.Outcome State Fault Refusal :=
  .next (s.run 0x0401 fun c =>
    let h := c.arg 0 4
    let none' := match s.kernel h with | some k => s.foreignTo c k.part | none => true
    c.check 4 [(none', 0)] [(s.kernelUsed h || s.locked (.kernel h), stBusy)] (.ok [] (s.setKernel h none)))

/-! Graphs. -/

/-- Graphs in the module, and stored nodes over all versions (R398). -/
def State.graphCount (s : State) : Nat := s.work.graphs.length
def State.nodeCount (s : State) : Nat :=
  (s.work.graphs.map fun e => match e.2 with | some g => (g.versions.map fun v => v.nodes.length).sum | none => 0).sum

/-- GRAPH_STORE. -/
def execGraphStore (s : State) : Host.Outcome State Fault Refusal :=
  .next (s.run 0x0410 fun c =>
    let id := c.arg 0 2
    c.check 24 ([(s.noCtx c id, 0), (decide (c.arg 0x10 4 < 64), 0x10)] ++ c.reserved [(2, 6), (0x14, 4)])
      [(s.locked (.ctx id), stBusy), (s.opsFull c || decide (1024 ≤ s.graphCount), stNoResources)] (.ok [] (s.startOp c 0)))

/-- The graph does not exist for the sender. -/
def State.noGraph (s : State) (c : Cmd) (g : Nat) : Bool :=
  match s.graph g with | some x => x.released || s.foreignTo c x.part | none => true

/-- Versions of a graph that stay live when a new one comes. -/
def Graph.kept (g : Graph) : List GraphVersion := g.versions.filter fun v => 0 < v.users

/-- GRAPH_PATCH. -/
def execGraphPatch (s : State) : Host.Outcome State Fault Refusal :=
  .next (s.run 0x0411 fun c =>
    let g := c.arg 0 4
    let full := match s.graph g with | some x => decide (8 ≤ x.kept.length) | none => false
    c.check 24 ([(s.noGraph c g, 0), (decide (c.arg 0x10 4 < 64), 0x10)] ++ c.reserved [(4, 4), (0x14, 4)])
      [(s.locked (.graph g), stBusy), (s.opsFull c || full, stNoResources)] (.ok [] (s.startOp c g)))

/-- The node list of a graph passes R398 and R415, and its transits fit the almanac. -/
def State.graphStatus (s : State) (p : Nat) (ds : List (List Byte)) (stored : Nat) : Nat :=
  let bad := ds.zipIdx.any fun (e : List Byte × Nat) =>
    let ps := preds e.1
    (s.refusal p e.1 true).isSome || ps.any (fun j => decide (e.2 ≤ j)) || ps.eraseDups.length != ps.length ||
    (nodeFlag e.1 0 && (match ds[e.2 + 1]? with | some d => preds d != [e.2] | none => true)) || (descFlag e.1 1 && midLayer ds e.2)
  if bad then stInvalid
  else if 256 < (ds.filter fun d => descFlag d 1).length || 262144 < stored + ds.length then stNoResources
  else stSuccess

/-- Nodes of a graph image; none when its header is wrong (R397). -/
def graphImage (b : List Byte) : Option (List (List Byte)) :=
  let n := fieldAt b 4 2
  if fieldAt b 0 4 = 0x47504841 && 1 ≤ n && n ≤ 4096 && zeroAt b 6 58 && b.length = 64 + 512 * n then
    some ((List.range n).map fun i => (b.drop (64 + 512 * i)).take 512)
  else none

/-- Entries of a patch image: node index and node; none when it is malformed. -/
def patchImage (b : List Byte) : Option (List (Nat × List Byte)) :=
  let n := fieldAt b 4 2
  if fieldAt b 0 4 = 0x47505441 && 1 ≤ n && n ≤ 4096 && zeroAt b 6 58 && b.length = 64 + 520 * n &&
      (List.range n).all fun i => zeroAt b (64 + 520 * i + 2) 6 then
    some ((List.range n).map fun i => (fieldAt b (64 + 520 * i) 2, (b.drop (64 + 520 * i + 8)).take 512))
  else none

def newVersion (version : Nat) (nodes : List (List Byte)) : GraphVersion := { version, nodes, users := 0, rise := none, layers := [] }

/-- End of a GRAPH_STORE with the image's bytes. -/
def State.storeGraph (s : State) (o : Op) (b : List Byte) : State :=
  let ctx := o.cmd.arg 0 2
  let part := match s.ctxById ctx with | some x => x.partition | none => 0
  match graphImage b with
  | none => s.opDone o.id stInvalid false []
  | some ds =>
    let st := s.graphStatus part ds s.nodeCount
    let st1 := if st = stSuccess && 1024 ≤ s.graphCount then stNoResources else st
    if st1 ≠ stSuccess then s.opDone o.id st1 false []
    else
      let g := s.work.nextGraph
      let s1 := s.setGraph g (some { part, ctx, newest := 1, versions := [newVersion 1 ds], released := false })
      ({ s1 with work := { s1.work with nextGraph := g + 1 } }).opDone o.id stSuccess false (leBytes 4 g ++ leBytes 4 1)

/-- End of a GRAPH_PATCH: a new version with whole nodes replaced. -/
def State.patchGraph (s : State) (o : Op) (b : List Byte) : State :=
  match s.graph o.arg, patchImage b with
  | some g, some es =>
    let old := match g.versions.find? fun v => v.version == g.newest with | some v => v.nodes | none => []
    let ds := old.zipIdx.map fun (e : List Byte × Nat) => match es.reverse.find? fun x => x.1 == e.2 with | some x => x.2 | none => e.1
    let out := es.any fun e => decide (old.length ≤ e.1)
    let freed := ((g.versions.filter fun v => v.users = 0).map fun v => v.nodes.length).sum
    let st := if out then stInvalid else s.graphStatus g.part ds (s.nodeCount - freed)
    let st1 := if st = stSuccess && 8 ≤ g.kept.length then stNoResources else st
    if st1 ≠ stSuccess then s.opDone o.id st1 false []
    else
      let n := g.newest + 1
      (s.setGraph o.arg (some { g with newest := n, versions := g.kept ++ [newVersion n ds] })).opDone o.id stSuccess false
        (leBytes 4 0 ++ leBytes 4 n)
  | _, _ => s.opDone o.id stInvalid false []

/-- GRAPH_CHECK_COMPLETE: Valac has read the image of the oldest GRAPH_STORE or GRAPH_PATCH under way. -/
def execGraphCheckComplete (image : ReadResult) (s : State) : Host.Outcome State Fault Refusal :=
  .next (match s.valac.ops.find? fun o => o.cmd.opcode == 0x0410 || o.cmd.opcode == 0x0411 with
  | none => s
  | some o =>
    let ctx := if o.cmd.opcode = 0x0410 then o.cmd.arg 0 2 else match s.graph o.arg with | some g => g.ctx | none => 0
    let part := match s.ctxById ctx with | some x => x.partition | none => 0
    match s.valacRead ctx part (o.cmd.arg 8 8) (o.cmd.arg 0x10 4) image with
    | .fail _ _ => s.opDone o.id stInvalid false []
    | .data b =>
      if b.length ≠ o.cmd.arg 0x10 4 then s.opDone o.id stInvalid false []
      else if o.cmd.opcode = 0x0410 then s.storeGraph o b else s.patchGraph o b)

/-- GRAPH_RELEASE: versions go as their last launches retire. -/
def execGraphRelease (s : State) : Host.Outcome State Fault Refusal :=
  .next (s.run 0x0412 fun c =>
    let g := c.arg 0 4
    let go := match s.graph g with
      | some x => s.setGraph g (if x.kept.isEmpty then none else some { x with released := true, versions := x.kept })
      | none => s
    c.check 4 [(s.noGraph c g, 0)] [(s.locked (.graph g), stBusy)] (.ok [] go))

end Sys2Proof.Machine
end

