-- ==== Sys2Proof/Machine/MemCmds.lean ====
section
/-!
DEFINITION. The commands for memory, ownership, pinning and reload sources (R260 to R263, R271, R277 to R283, R293, R294, R302 to
R307, R355).
-/
namespace Sys2Proof.Machine

/-! Regions (R260 to R263). -/

def bitList (n bits : Nat) : List Nat := (List.range n).filter fun i => bits.testBit i

/-- Rules 1 and 2 of R263: the two parts of a strand set differ by at most one. -/
def evenSpread (t2 : Bool) (l : List Nat) : Bool :=
  let a := (l.filter fun k => decide (k < if t2 then 12 else 48)).length
  let b := l.length - a
  decide (a ≤ b + 1) && decide (b ≤ a + 1)

def Region.top (x : Region) (t2 : Bool) : Nat := x.base + x.bytes t2
def Region.sharesStrand (x y : Region) : Bool := x.strands.any fun k => y.strands.contains k
def Region.baysMeet (x y : Region) : Bool := decide (x.firstBay < y.firstBay + y.bays) && decide (y.firstBay < x.firstBay + x.bays)

/-- Every other region of the tier satisfies `p`. -/
def State.otherRegions (s : State) (r : Nat) (p : Region → Bool) : Bool :=
  s.store.regions.all fun e => match e.2 with
    | some y => e.1 == r || regionTier2 e.1 != regionTier2 r || p y
    | none => true

/-- The rules of R263 that a new region breaks, with the payload offsets that they concern. -/
def State.badRegion (s : State) (r : Nat) (x : Region) : List (Bool × Nat) :=
  let t2 := regionTier2 r
  let base := if t2 then tier2Base else tier1Base
  let top := if t2 then tier2Top else tier1Top
  [(decide ((if t2 then 8192 else 576) < x.firstBay + x.bays) ||
      !s.otherRegions r fun y => !(x.sharesStrand y && x.baysMeet y), 4),
   (x.base % granuleBytes != 0 || decide (x.base < base) || decide (top < x.top t2) ||
      !s.otherRegions r fun y => decide (x.top t2 ≤ y.base) || decide (y.top t2 ≤ x.base), 0x10),
   (x.strands.isEmpty || !evenSpread t2 x.strands, 0x18)]

/-- A granule with an owner begins in [lo, hi). -/
def State.ownedIn (s : State) (lo hi : Nat) : Bool :=
  s.store.tags.any fun e => decide (lo ≤ e.1 * granuleBytes) && decide (e.1 * granuleBytes < hi) && tagKind e.2 != 0

/-- The region that a REGION_SET asks for. -/
def Cmd.region (c : Cmd) : Region :=
  { base := c.arg 0x10 8, strands := bitList 128 (c.arg 0x18 16), bays := c.arg 8 4, firstBay := c.arg 4 2 }
def Cmd.regionNo (c : Cmd) : Nat := regionIndex (c.arg 0 1) (c.arg 1 1) (c.arg 2 1)

/-- Arguments of a REGION_SET that fail. -/
def State.regionBad (s : State) (c : Cmd) : List (Bool × Nat) :=
  let kind := c.arg 0 1
  let tier := c.arg 2 1
  let x := c.region
  let noOwner := if kind = 1 then (s.part (c.arg 1 1)).isNone else decide (15 < c.arg 1 1)
  let gone := c.arg 8 4 = 0 && (SMap.get none s.store.regions c.regionNo).isNone
  let beyond := x.strands.any fun k => decide ((if tier = 2 then 24 else 96) ≤ k)
  [(kind != 1 && kind != 2, 0), (noOwner || gone, 1), (tier != 1 && tier != 2, 2)] ++ c.reserved [(3, 1), (6, 2)] ++
  (if c.arg 8 4 = 0 then [] else s.badRegion c.regionNo x ++ [(beyond, 0x18)])

/-- The rules on owned granules for a change of region `r` to `x` (`m` = 0: its deletion): the status that refuses it. -/
def State.regionRule (s : State) (r : Nat) (x : Region) : Nat :=
  let t2 := regionTier2 r
  match SMap.get none s.store.regions r with
  | none => stSuccess
  | some old =>
    if x.bays = 0 then (if s.ownedIn old.base (old.top t2) then stNotPermitted else stSuccess)
    else if old.strands == x.strands && old.base == x.base && old.firstBay == x.firstBay then
      (if x.bays < old.bays && s.ownedIn (x.top t2) (old.top t2) then stNotPermitted else stSuccess)
    else if s.ownedIn old.base (old.top t2) then stNotQuiesced
    else stSuccess

/-- REGION_SET. -/
def execRegionSet (s : State) : Host.Outcome State Fault Refusal :=
  .next (s.run 0x0200 fun c =>
    let rule := s.regionRule c.regionNo c.region
    c.check 40 (s.regionBad c)
      [(rule == stNotPermitted, stNotPermitted), (s.locked (.region c.regionNo) || (c.arg 0 1 == 1 && s.partBusy (c.arg 1 1)), stBusy),
       (rule == stNotQuiesced, stNotQuiesced), (s.opsFull c, stNoResources)]
      (.ok [] (s.startOp c 0)))

/-- REGION_SET_COMPLETE: the tables of R286 are updated, unless the rules no longer hold. -/
def execRegionSetComplete (s : State) : Host.Outcome State Fault Refusal :=
  .next (match s.opOf 0x0200 with
  | none => s
  | some o =>
    let c := o.cmd
    let rule := s.regionRule c.regionNo c.region
    if (firstBad (s.regionBad c)).isSome then s.opDone o.id stInvalid false []
    else if rule ≠ stSuccess then s.opDone o.id rule false []
    else
      let x := if c.arg 8 4 = 0 then none else some c.region
      ({ s with store := { s.store with regions := SMap.set none s.store.regions c.regionNo x } }).opDone o.id stSuccess false [])

/-! Ownership (R279 to R282). -/

/-- A partition is quiesced (R428); one that does not exist counts as quiesced. -/
def State.quiesced (s : State) (p : Nat) : Bool := match s.part p with | some x => x.state == .quiesced | none => true

/-- The owner that a tag names is quiesced (R282). -/
def State.ownerQuiesced (s : State) (t : Half16) : Bool :=
  if tagKind t = 1 then s.quiesced (tagId t)
  else if tagKind t = 2 then
    let g := s.share (tagId t)
    (match g.loader with | some p => s.quiesced p | none => true) && (List.range 64).all fun p => !g.members.getLsbD p || s.quiesced p
  else true

/-- The granules that a GRANULE_TAG names, by number. -/
def granulesFrom (a n : Nat) : List Nat := (List.range n).map fun i => a / granuleBytes + i

/-- A range lies within one tier. -/
def inOneTier (a n : Nat) : Bool :=
  let c := addrClass a
  (c == .tier1 || c == .tier2 || c == .tier3) && addrClass (a + n - 1) == c && decide (0 < n) &&
    decide (a + n ≤ if c == .tier1 then tier1Top else if c == .tier2 then tier2Top else tier3Top)

/-- Every granule of a range lies in a region, or in Tier 3. -/
def State.allMapped (s : State) (a n : Nat) : Bool :=
  addrClass a == .tier3 || (granulesFrom a (n / granuleBytes)).all fun g => (s.regionAt (g * granuleBytes)).isSome

/-- Arguments of a GRANULE_TAG that fail. -/
def State.tagBad (s : State) (c : Cmd) : List (Bool × Nat) :=
  let a := c.arg 0 8
  let n := c.arg 8 4
  let tag := BitVec.ofNat 16 (c.arg 12 2)
  let mapped := s.allMapped a (n * granuleBytes)
  let badTag := 2 < tagKind tag || bitsOf tag.toNat 8 6 ≠ 0 || (tagKind tag == 1 && (s.part (tagId tag)).isNone) ||
    (tagKind tag == 2 && decide (15 < tagId tag))
  [(a % granuleBytes != 0 || !inOneTier a granuleBytes || !s.allMapped a granuleBytes, 0),
   (decide (n = 0) || !inOneTier a (n * granuleBytes) || !mapped, 8), (decide badTag, 12)] ++ c.reserved [(14, 2)]

/-- The region that contains a granule may give it to the owner of a tag (R279). -/
def State.mayHold (s : State) (g : Nat) (t : Half16) : Bool :=
  if tagKind t = 0 || addrClass (g * granuleBytes) == .tier3 then true
  else match s.regionAt (g * granuleBytes) with
  | none => false
  | some (r, _) =>
    if r < 128 then tagKind t == 1 && tagId t == r % 64
    else
      let k := r % 16
      (tagKind t == 2 && tagId t == k) || (tagKind t == 1 && (s.share k).members.getLsbD (tagId t))

/-- The rules of a GRANULE_TAG: the status that refuses it. -/
def State.tagRule (s : State) (c : Cmd) : Nat :=
  let tag := BitVec.ofNat 16 (c.arg 12 2)
  let gs := granulesFrom (c.arg 0 8) (c.arg 8 4)
  if !gs.all fun g => s.mayHold g tag then stNotPermitted
  else if gs.any fun g => tagKind (SMap.get 0 s.store.tags g) != 0 && SMap.get 0 s.store.tags g != tag &&
      !s.ownerQuiesced (SMap.get 0 s.store.tags g) then stNotQuiesced
  else stSuccess

/-- GRANULE_TAG. -/
def execGranuleTag (s : State) : Host.Outcome State Fault Refusal :=
  .next (s.run 0x0201 fun c =>
    let rule := s.tagRule c
    c.check 16 (s.tagBad c)
      [(rule == stNotPermitted, stNotPermitted), (bitsOf (c.arg 12 2) 14 2 == 1 && s.partBusy (c.arg 12 1), stBusy),
       (rule == stNotQuiesced, stNotQuiesced), (s.opsFull c, stNoResources)]
      (.ok [] (s.startOp c 0)))

/-- The address whose byte a channel location holds (R261 read backwards); none for a location that no region maps. -/
def State.addrOfLoc (s : State) (l : Nat) : Option Nat :=
  let t2 := decide (2 ^ 44 ≤ l)
  let m := if t2 then l - 2 ^ 44 else l
  let unit := if t2 then 4096 else 2048
  let units := if t2 then 4 else 8
  let stripes := if t2 then 4194304 else 589824
  let byte := m % unit
  let stripe := m / unit % stripes
  let u := m / unit / stripes % units
  let strand := m / unit / stripes / units
  let per := if t2 then 512 else 1024
  if 2 ^ 46 ≤ l then none
  else s.store.regions.findSome? fun e => match e.2 with
    | none => none
    | some x =>
      let k := x.strands.idxOf strand
      if regionTier2 e.1 != t2 || x.strands.length ≤ k || stripe < per * x.firstBay || per * (x.firstBay + x.bays) ≤ stripe then none
      else some (x.base + (((stripe - per * x.firstBay) * x.strands.length + k) * units + u) * unit + byte)

/-- Steps 1 and 2 of R282 for a granule: no half holds a line of it, and it reads as zero. -/
def State.scrubGranule (s : State) (g : Nat) : State :=
  let hit := fun (a : Nat) => a / granuleBytes == g
  let halves := SMap.mapV {} s.fab.halves fun _ x => { x with lines := SMap.keep x.lines fun _ l => l.transient || !hit l.addr }
  let ctrls := SMap.mapV {} s.fab.ctrls fun _ x => { x with queue := x.queue.filter fun o => match o with
    | .write a _ _ | .mend a _ _ _ _ => !hit a
    | _ => true }
  let inside := fun (l : Nat) => match s.addrOfLoc l with | some a => hit a | none => false
  { s with fab := { s.fab with halves := halves, ctrls := ctrls }
           store := { s.store with mem := SMap.keep s.store.mem fun l _ => !inside l
                                   poison := s.store.poison.filter fun k => !inside (32 * k)
                                   flash := SMap.keep s.store.flash fun o _ => !hit (tier3Base + o) } }

/-- R282 for one granule: cleared for a different owner, then tagged. -/
def State.tagGranule (s : State) (t : Half16) (g : Nat) : State :=
  let old := SMap.get 0 s.store.tags g
  let s1 := if tagKind t = 0 || old = t then s else s.scrubGranule g
  { s1 with store := { s1.store with tags := SMap.set 0 s1.store.tags g (if tagKind t = 0 then 0 else t) } }

/-- GRANULE_TAG_COMPLETE. -/
def execGranuleTagComplete (s : State) : Host.Outcome State Fault Refusal :=
  .next (match s.opOf 0x0201 with
  | none => s
  | some o =>
    let c := o.cmd
    if (firstBad (s.tagBad c)).isSome then s.opDone o.id stInvalid false []
    else if s.tagRule c ≠ stSuccess then s.opDone o.id (s.tagRule c) false []
    else ((granulesFrom (c.arg 0 8) (c.arg 8 4)).foldl (fun s g => s.tagGranule (BitVec.ofNat 16 (c.arg 12 2)) g) s).opDone
      o.id stSuccess false [])

/-- A launch of the partition runs. -/
def State.partActive (s : State) (p : Nat) : Bool := s.work.launches.any fun l => l.part == p && l.running

/-- A share group with a new loader and mask; those that leave while their kernels run keep access until those end (R281). -/
def State.setShare (s : State) (g loader : Nat) (mask : BitVec 64) : State :=
  let x := s.share g
  let run : BitVec 64 := (List.range 64).foldl (fun (m : BitVec 64) p => if s.partActive p then m ||| BitVec.ofNat 64 (2 ^ p) else m) 0
  let gone := match x.loader with
    | some p => if p ≠ loader && s.partActive p then some p else none
    | none => none
  let y : ShareGroup := { members := mask, loader := some loader, leaving := (x.members ||| x.leaving) &&& ~~~mask &&& run, leavingLoader := gone }
  { s with store := { s.store with shares := SMap.set {} s.store.shares g y } }

/-- SHARE_GROUP_SET. -/
def execShareGroupSet (s : State) : Host.Outcome State Fault Refusal :=
  .next (s.run 0x0202 fun c =>
    let p := c.arg 1 1
    let mask : BitVec 64 := BitVec.ofNat 64 (c.arg 8 8)
    c.check 16 ([(decide (15 < c.arg 0 1), 0), ((s.part p).isNone, 1)] ++ c.reserved [(2, 6)])
      [(s.partBusy p || (bitList 64 mask.toNat).any fun q => s.partBusy q, stBusy)]
      (.ok [] (s.setShare (c.arg 0 1) p mask)))

/-! Format descriptors (R293, R294). -/

def positionsOf (b : List Byte) : List (Nat × Nat) :=
  [0x0E, 0x0F, 0x10, 0x11, 0x12, 0x13, 0x16, 0x17, 0x18, 0x19].map fun o => (o, fieldAt b o 1)

/-- A bit position is out of range, is shared, or lies within the address field. -/
def badPosition (b : List Byte) (e : Nat × Nat) : Bool :=
  (e.2 != 0xFF || e.1 == 0x0E) &&
    (decide (63 < e.2) || (decide (fieldAt b 0x14 1 ≤ e.2) && decide (e.2 ≤ fieldAt b 0x15 1)) ||
     (positionsOf b).any fun y => y.1 != e.1 && y.2 == e.2)

/-- R294, with the offset of each field in the descriptor. -/
def badFormat (b : List Byte) : List (Bool × Nat) :=
  let levels := fieldAt b 0 1
  let gran := fieldAt b 1 1
  let g := if gran = 0 then 12 else if gran = 1 then 14 else 16
  let lo := fun (l : Nat) => fieldAt b (4 + 2 * l) 1
  let n := fun (l : Nat) => fieldAt b (5 + 2 * l) 1
  let badLevel := fun (l : Nat) =>
    if levels ≤ l then lo l != 0 || n l != 0
    else (if l + 1 = levels then lo l != g else lo l != lo (l + 1) + n (l + 1)) ||
      (if l = 0 then decide (n l = 0 || g - 3 < n l || 57 < lo 0 + n 0) else n l != g - 3)
  let leaf := fieldAt b 3 1
  [(decide (levels < 3 || 5 < levels), 0), (decide (2 < gran), 1), (decide (32 ≤ fieldAt b 2 1), 2),
   (decide (2 ^ (levels - 1) ≤ leaf) || (fieldAt b 0x16 1 == 0xFF && leaf != 0), 3)] ++
  ((List.range 5).map fun l => (badLevel l, 4 + 2 * l)) ++
  [(decide (fieldAt b 0x14 1 < 12 || g < fieldAt b 0x14 1), 0x14), (decide (fieldAt b 0x15 1 < fieldAt b 0x14 1 || 56 < fieldAt b 0x15 1), 0x15)] ++
  ((positionsOf b).map fun e => (badPosition b e, e.1)) ++ ((List.range 38).map fun i => (fieldAt b (0x1A + i) 1 != 0, 0x1A + i))

/-- A descriptor as its bytes give it. -/
def formatOf (b : List Byte) : FormatDesc :=
  let f := fieldAt b
  { valid := true, levels := f 0 1, granule := f 1 1, flags := BitVec.ofNat 8 (f 2 1), leafLevels := BitVec.ofNat 8 (f 3 1),
    index := (List.range 5).map fun l => (f (4 + 2 * l) 1, f (5 + 2 * l) 1),
    present := f 0x0E 1, writable := f 0x0F 1, user := f 0x10 1, accessed := f 0x11 1, dirty := f 0x12 1, nx := f 0x13 1,
    paLow := f 0x14 1, paHigh := f 0x15 1, leafBit := f 0x16 1, attr := [f 0x17 1, f 0x18 1, f 0x19 1], raw := b }

def State.format (s : State) (n : Nat) : FormatDesc := SMap.get {} s.xlat.formats n

/-- FORMAT_SET. -/
def execFormatSet (s : State) : Host.Outcome State Fault Refusal :=
  .next (s.run 0x0210 fun c =>
    let n := c.arg 0 1
    let remove := c.arg 1 1 == 1
    let b := (c.payload.drop 8).take 64
    let named := s.xlat.ctxs.any fun e => e.2.state != 0 && !e.2.ats && e.2.fmt == n
    let f : FormatDesc := if remove then {} else formatOf b
    c.check 72
      ([(decide (7 < n) || (remove && !(s.format n).valid), 0), (decide (1 < c.arg 1 1), 1)] ++ c.reserved [(2, 6)] ++
        (if remove then [] else (badFormat b).map fun e => (e.1, e.2 + 8)))
      [(named, stBusy)]
      (.ok [] { s with xlat := { s.xlat with formats := SMap.set {} s.xlat.formats n f } }))

/-! Pinned windows (R302 to R305). -/

/-- Bytes of the context's translation granule. -/
def State.granuleOf (s : State) (x : Ctx) : Nat :=
  if x.ats then 4096 else match (s.format x.fmt).granule with
  | 0 => 4096
  | 1 => 16384
  | _ => 65536

def State.windowCount (s : State) : Nat := (s.xlat.ctxs.map fun e => e.2.windows.length).sum

/-- Counts that a further window would exceed. -/
def State.windowsFull (s : State) (id : Nat) : Bool :=
  decide (256 ≤ (s.ctx (ctxSlot id)).windows.length) || decide (4096 ≤ s.windowCount)

/-- PIN: its translation begins. -/
def execPin (s : State) : Host.Outcome State Fault Refusal :=
  let op := s.valac.nextOp
  let n := s.xlat.nextRow
  .next (s.runThen 0x0211 (fun c =>
    let id := c.arg 0 2
    let a := c.arg 8 8
    let len := c.arg 0x10 8
    let x := s.ctx (ctxSlot id)
    let g := s.granuleOf x
    let overlap := x.windows.any fun w => meets w.va w.len a len
    c.check 24
      ([(s.noCtx c id, 0), (decide (1 < c.arg 2 1), 2), (a % g != 0 || overlap, 8),
        (len % g != 0 || decide (len = 0) || decide (2 ^ 64 < a + len), 0x10)] ++ c.reserved [(3, 5)])
      [(s.locked (.ctx id), stBusy), (s.windowsFull id || s.opsFull c, stNoResources)]
      (.ok [] (s.startOp c n)))
    fun c s1 =>
      let r : XRow := { dma := none, pin := some { op, start := c.arg 8 8, last := c.arg 8 8 + c.arg 0x10 8, leaves := [], failed := none },
                        ctx := c.arg 0 2, va := c.arg 8 8, write := c.arg 2 1 == 1, state := .translate, asked := false, skip := 0 }
      (({ s1 with xlat := { s1.xlat with nextRow := n + 1 } }).setRow n (some r)).sendAts 0 r)

/-- The window of a finished PIN stands in the pin table of every die. -/
def State.endPin (s : State) (o : Op) (r : XRow) (w : PinWalk) : State :=
  let s1 := s.setRow o.arg none
  match w.failed with
  | some f => s1.opDone o.id f.1 false (leBytes 8 f.2)
  | none =>
    if s1.windowsFull r.ctx || 1048576 < s1.pinnedLeaves + w.leaves.length then s1.opDone o.id stNoResources false (leBytes 8 w.start)
    else
      let x := s1.ctx (ctxSlot r.ctx)
      let win : Window := { va := w.start, len := w.last - w.start, writable := r.write, stale := w.stale, leaves := w.leaves }
      let s2 := (s1.setCtx (ctxSlot r.ctx) { x with windows := x.windows ++ [win] }).opDone o.id stSuccess false []
      if w.stale then s2.postPart 0x13 x.partition (leBytes 2 r.ctx ++ List.replicate 6 0 ++ leBytes 8 w.start) else s2

/-- The oldest PIN whose translation has ended. -/
def State.pinEnded (s : State) : Option (Op × XRow × PinWalk) :=
  s.valac.ops.findSome? fun o =>
    if o.cmd.opcode ≠ 0x0211 then none
    else match s.row o.arg with
    | some r => match r.pin with
      | some w => if r.state == .done && w.op == o.id then some (o, r, w) else none
      | none => none
    | none => none

/-- PIN_COMPLETE. -/
def execPinComplete (s : State) : Host.Outcome State Fault Refusal :=
  .next (match s.pinEnded with
  | some (o, r, w) => s.endPin o r w
  | none => s)

/-- Remove a context's pinned leaves in [lo, lo + len) from every translation cache. -/
def State.dropPinned (s : State) (ctx lo len : Nat) : State :=
  let keep := fun (e : TlbEntry) => !(e.pinned && e.ctx == ctx && meets e.va e.size lo len)
  let cores := SMap.mapV {} s.cores fun _ k => { k with utlb := k.utlb.filter keep, dtlb := k.dtlb.filter keep }
  let l2 := SMap.mapV [] s.xlat.l2 fun _ l => l.filter keep
  { s with cores := cores, xlat := { s.xlat with l2 := l2 } }

/-- A launch of the context runs, or a core that runs it is not IDLE (R305). -/
def State.ctxRuns (s : State) (id : Nat) : Bool :=
  (s.work.launches.any fun l => l.ctx == id && l.running) || !(s.coresOf id).isEmpty

/-- UNPIN. -/
def execUnpin (s : State) : Host.Outcome State Fault Refusal :=
  .next (s.run 0x0212 fun c =>
    let id := c.arg 0 2
    let a := c.arg 8 8
    let x := s.ctx (ctxSlot id)
    let len := match x.windows.find? fun w => w.va == a with | some w => w.len | none => 0
    c.check 16 ([(s.noCtx c id, 0), (!x.windows.any fun w => w.va == a, 8)] ++ c.reserved [(2, 6)])
      [(s.locked (.ctx id) || s.ctxRuns id, stBusy)]
      (.ok [] ((s.setCtx (ctxSlot id) { x with windows := x.windows.filter fun w => w.va != a }).dropPinned id a len)))

/-- INVALIDATE: steps 1 and 2 of R307 when it is first offered, its response once step 3 is done. -/
def State.invalidateCmd (s : State) (c : Cmd) : State :=
  let id := c.arg 0 2
  match c.begun with
  | some upto => if s.invalDrained [id] upto then s.respond c stSuccess 0 [] else s
  | none =>
    match c.check 24 ([(s.noCtx c id, 0), (decide (2 ^ 64 < c.arg 8 8 + c.arg 0x10 8), 0x10)] ++ c.reserved [(2, 6)])
        [(s.locked (.ctx id), stBusy)] (.ok [] s) with
    | .err status detail => s.respond c status detail []
    | .ok _ _ =>
      let s1 := s.countInval.invalidateCtx id (c.arg 8 8) (c.arg 0x10 8)
      let c1 : Cmd := { c with begun := some s1.fab.nextReq }
      if s1.invalDrained [id] s1.fab.nextReq then s1.respond c stSuccess 0 []
      else { s1 with valac := { s1.valac with cur := some c1 } }
def execInvalidate (s : State) : Host.Outcome State Fault Refusal :=
  .next (match s.valac.cur with
  | some c => if c.opcode = 0x0213 then s.invalidateCmd c else s
  | none => s)

/-! Reload sources (R283). -/

/-- RELOAD_ADD. -/
def execReloadAdd (s : State) : Host.Outcome State Fault Refusal :=
  .next (s.run 0x0220 fun c =>
    let i := c.arg 0 1
    let a := c.arg 8 8
    let n := c.arg 0x10 8
    let badCopy := fun (kind addr : Nat) =>
      if kind = 1 then addr % 16384 != 0 || addrClass addr != .tier3 || !inOneTier addr n
      else if kind = 2 then addr % 32 != 0 || decide (2 ^ 48 < addr + n) else false
    let copies := (if c.arg 0x18 1 = 0 then [] else [(c.arg 0x18 1 == 2, c.arg 0x20 8)]) ++
      (if c.arg 0x19 1 = 0 then [] else [(c.arg 0x19 1 == 2, c.arg 0x28 8)])
    c.check 48
      ([(decide (63 < i), 0), (a % granuleBytes != 0 || addrClass a == .tier3 || !inOneTier a granuleBytes || !s.allMapped a granuleBytes, 8),
        (n % granuleBytes != 0 || !inOneTier a n || !s.allMapped a n, 0x10), (decide (2 < c.arg 0x18 1), 0x18), (decide (2 < c.arg 0x19 1), 0x19),
        (badCopy (c.arg 0x18 1) (c.arg 0x20 8), 0x20), (badCopy (c.arg 0x19 1) (c.arg 0x28 8), 0x28)] ++ c.reserved [(1, 7), (0x1A, 6)])
      [((SMap.get none s.store.reloads i).isSome, stNotPermitted)]
      (.ok [] { s with store := { s.store with reloads := SMap.set none s.store.reloads i (some { base := a, len := n, copies }) } }))

/-- RELOAD_REMOVE. -/
def execReloadRemove (s : State) : Host.Outcome State Fault Refusal :=
  .next (s.run 0x0221 fun c =>
    c.check 4 ([((SMap.get none s.store.reloads (c.arg 0 1)).isNone, 0)] ++ c.reserved [(1, 3)]) []
      (.ok [] { s with store := { s.store with reloads := SMap.set none s.store.reloads (c.arg 0 1) none } }))

/-! Tier 3, time limits, replica ways, the washer. -/

/-- The granules of [a, a + n) that a tenant does not own. -/
def State.trimForeign (s : State) (c : Cmd) (a n : Nat) : Bool :=
  c.role == 1 && (List.range ((a % granuleBytes + n + granuleBytes - 1) / granuleBytes)).any fun i =>
    match s.tenantPart c with
    | some p => SMap.get 0 s.store.tags (a / granuleBytes + i) != mkTag 1 p
    | none => true

/-- FLASH_TRIM. -/
def execFlashTrim (s : State) : Host.Outcome State Fault Refusal :=
  .next (s.run 0x0230 fun c =>
    let a := c.arg 0 8
    let n := c.arg 8 8
    let copied := s.store.reloads.any fun e => match e.2 with
      | some x => x.copies.any fun y => !y.1 && meets y.2 x.len a n
      | none => false
    c.check 16
      [(a % 16384 != 0 || addrClass a != .tier3 || s.trimForeign c a n, 0), (n % 16384 != 0 || decide (tier3Top < a + n), 8)]
      [(copied, stNotPermitted), (s.opsFull c, stNoResources)]
      (.ok [] (s.startOp c 0)))

/-- FLASH_TRIM_COMPLETE: the pages read as zero. -/
def execFlashTrimComplete (s : State) : Host.Outcome State Fault Refusal :=
  .next (match s.opOf 0x0230 with
  | none => s
  | some o =>
    let lo := o.cmd.arg 0 8 - tier3Base
    let hi := lo + o.cmd.arg 8 8
    ({ s with store := { s.store with flash := SMap.keep s.store.flash fun k _ => decide (k < lo) || decide (hi ≤ k) } }).opDone
      o.id stSuccess false [])

/-- SET_TIMEOUTS. -/
def execSetTimeouts (s : State) : Host.Outcome State Fault Refusal :=
  .next (s.run 0x0240 fun c =>
    let t := if c.arg 0 2 = 0 then s.xlat.targetTimeout else c.arg 0 2
    let p := if c.arg 4 4 = 0 then s.xlat.priTimeout else c.arg 4 4
    c.check 8 ([(decide (1000 < c.arg 0 2), 0), (decide (60000 < c.arg 4 4), 4)] ++ c.reserved [(2, 2)]) []
      (.ok (leBytes 2 t ++ leBytes 2 0 ++ leBytes 4 p) { s with xlat := { s.xlat with targetTimeout := t, priTimeout := p } }))

/-- CACHE_REPLICA_SET. -/
def execCacheReplicaSet (s : State) : Host.Outcome State Fault Refusal :=
  .next (s.runThen 0x0241 (fun c =>
    let n := c.arg 0 1
    let starved := s.work.parts.any fun e => match e.2 with
      | some x => x.mask.toNat % 2 ^ (16 - n) == 0
      | none => false
    c.check 4 ([(decide (8 < n), 0)] ++ c.reserved [(1, 3)])
      [(starved, stNotPermitted), ((s.opOf 0x0241).isSome, stBusy), (s.opsFull c, stNoResources)]
      (.ok [] (s.startOp c n)))
    fun c s1 => (List.range 16).foldl (fun s h => s.setReplicaWays h (c.arg 0 1)) s1)

/-- WASH_PERIOD_SET. -/
def execWashPeriodSet (s : State) : Host.Outcome State Fault Refusal :=
  .next (s.run 0x0242 fun c =>
    c.check 4 ([(decide (c.arg 0 1 < 2 || 168 < c.arg 0 1), 0)] ++ c.reserved [(1, 3)]) []
      (.ok (leBytes 4 (c.arg 0 1)) { s with store := { s.store with washHours := c.arg 0 1 } }))

/-! Contexts (R288 to R290). -/

/-- A slot may be given to a new context (R290). -/
def State.slotFree (s : State) (i : Nat) : Bool :=
  (s.ctx i).state == 0 && !(s.xlat.pri.any fun e => e.2.busy.any fun b => ctxSlot b.ctx == i) &&
    !(s.xlat.rows.any fun e => match e.2 with | some r => ctxSlot r.ctx == i | none => false)

/-- CTX_CREATE. -/
def execCtxCreate (s : State) : Host.Outcome State Fault Refusal :=
  .next (s.run 0x0110 fun c =>
    let p := c.arg 0 1
    let fn := c.arg 1 1
    let ats := c.arg 2 1 == 1
    let bound := match s.part p with | some x => x.fn | none => 0
    let badFn := (fn != 0 && (fn != bound)) || (c.role == 1 && fn != c.mbx - 1)
    let taken := s.xlat.ctxs.any fun e => e.2.state != 0 && e.2.fn == fn && e.2.pasid == c.arg 4 4
    let slot := lowestFree 1024 fun i => !s.slotFree i
    let i := slot.getD 0
    let gen := ((s.ctx i).gen + 1) % 64
    let x : Ctx := { gen, state := 1, partition := p, pasid := c.arg 4 4, fn, ats, fmt := if ats then 0 else c.arg 3 1,
                     root := if ats then 0 else c.arg 8 8, attrMap := BitVec.ofNat 64 (c.arg 0x10 8), granule := c.arg 0x18 1, windows := [],
                     watchdog := BitVec.ofNat 32 (c.arg 0x1C 4) }
    c.check 32
      ([(s.noPart c p, 0), (badFn, 1), (decide (1 < c.arg 2 1), 2), (!ats && (decide (7 < c.arg 3 1) || !(s.format (c.arg 3 1)).valid), 3),
        (decide (2 ^ 20 ≤ c.arg 4 4) || taken, 4), (decide (2 < c.arg 0x18 1), 0x18)] ++
        ((List.range 8).map fun k => (decide (2 < c.arg (0x10 + k) 1), 0x10)) ++ c.reserved [(0x19, 3)])
      [(!ats && c.role == 1, stNotPermitted), (s.partBusy p, stBusy), (slot.isNone, stNoResources)]
      (.ok (leBytes 2 (gen * 1024 + i) ++ leBytes 2 0) (s.setCtx i x)))

/-- Remove a context with its windows and translations; the slot keeps its generation. -/
def State.removeCtx (s : State) (id : Nat) : State :=
  let keep := fun (e : TlbEntry) => e.ctx != id
  let cores := SMap.mapV {} s.cores fun _ k => { k with utlb := k.utlb.filter keep, dtlb := k.dtlb.filter keep }
  let l2 := SMap.mapV [] s.xlat.l2 fun _ l => l.filter keep
  let wc := SMap.mapV [] s.xlat.walkCache fun _ l => l.filter fun e => e.1 != id
  let s1 := { s with cores := cores, xlat := { s.xlat with l2 := l2, walkCache := wc } }
  (s1.sweepCtxAll id).setCtx (ctxSlot id) { gen := (s.ctx (ctxSlot id)).gen }

/-- CTX_DESTROY. -/
def execCtxDestroy (s : State) : Host.Outcome State Fault Refusal :=
  .next (s.run 0x0111 fun c =>
    let id := c.arg 0 2
    let used := (s.work.launches.any fun l => l.ctx == id && l.pending) || !(s.queuesOf id).isEmpty || !(s.coresOf id).isEmpty
    c.check 4 ([(s.noCtx c id, 0)] ++ c.reserved [(2, 2)])
      [(s.locked (.ctx id), stBusy), (used, stNotQuiesced)]
      (.ok [] (s.removeCtx id)))

/-- CTX_SET_WATCHDOG. -/
def execCtxSetWatchdog (s : State) : Host.Outcome State Fault Refusal :=
  .next (s.run 0x0112 fun c =>
    let id := c.arg 0 2
    let x := s.ctx (ctxSlot id)
    c.check 8 ([(s.noCtx c id, 0)] ++ c.reserved [(2, 2)]) [(s.locked (.ctx id), stBusy)]
      (.ok [] (s.setCtx (ctxSlot id) { x with watchdog := BitVec.ofNat 32 (c.arg 4 4) })))

end Sys2Proof.Machine
end

