-- ==== Sys2Proof/Machine/Parts.lean ====
section
/-!
DEFINITION. Partitions: creation, resizing, quiesce, reset, removal, and the function level resets of the link (R345, R354, R418 to
R428, R491, R502).
-/
namespace Sys2Proof.Machine

/-! Rectangles and masks. -/

def Cmd.rect (c : Cmd) : Rect := { x0 := c.arg 2 1, y0 := c.arg 3 1, w := c.arg 4 1, h := c.arg 5 1 }

/-- Another partition holds, or a pending change of it claims, a core of the rectangle (R419, R421, R423). -/
def State.rectTaken (s : State) (p : Nat) (r : Rect) : Bool :=
  (s.rects.any fun e => e.1 != p && (match e.2 with | some x => x.overlaps r | none => false)) ||
  (s.work.parts.any fun e => e.1 != p && (match e.2.bind Part.resize with
    | some z => z.rect.overlaps r || r.cores.any fun c => z.removed.contains c
    | none => false))

/-- Home ways by R194, also those of a change of n in progress. -/
def State.homeWays (s : State) : Nat := 16 - Nat.max (s.half 0).nReplica (if (s.half 0).cfgBusy then (s.half 0).nNext else 0)

/-- Arguments that PART_CREATE and PART_RESIZE share. -/
def State.partBad (s : State) (c : Cmd) : List (Bool × Nat) :=
  let r := c.rect
  [(decide (40 < r.x0 + r.w), 2), (decide (16 < r.y0 + r.h), 3), (decide (r.w = 0), 4), (decide (r.h = 0), 5), (decide (1 < c.arg 6 1), 6),
   (c.arg 8 4 != 0 && (decide (c.arg 8 4 < 50) || decide (100000 < c.arg 8 4)), 8), (c.arg 12 2 % 2 ^ s.homeWays == 0, 12)] ++
  c.reserved [(7, 1), (14, 2)]

def Cmd.slice (c : Cmd) : Nat := if c.arg 8 4 = 0 then 2000 else c.arg 8 4
def Cmd.mask (c : Cmd) : Half16 := BitVec.ofNat 16 (c.arg 12 2)

/-- CACHE_WAYMASK[p] in every half. -/
def State.writeMask (s : State) (p : Nat) (m : Half16) : State :=
  (List.range 16).foldl (fun (s : State) h => s.setHalf h { s.half h with waymask := SMap.set 0 (s.half h).waymask p m }) s

def State.setRect (s : State) (p : Nat) (r : Option Rect) : State := { s with rects := SMap.set none s.rects p r }

/-- PARTITION_STATE. -/
def State.postState (s : State) (p code : Nat) : State := s.postPart 0x14 p (leBytes 1 code)

/-- Cores as R48 clears them, with their routers reset (R422, R426). -/
def State.clearCores (s : State) (cs : List Nat) : State :=
  cs.foldl (fun (s : State) c => s.updCore c fun k =>
    { k.cleared with lastCtx := none, router := { k.router.halt with run := false, edge := 0xF } }) s

/-- Write back and drop what a partition allocated in some ways, in every half (R196). -/
def State.sweepWaysAll (s : State) (p : Nat) (ways : Half16) : State := (List.range 16).foldl (fun (s : State) h => s.sweepPart h p ways) s
def State.waysSwept (s : State) (p : Nat) (ways : Half16) : Bool :=
  (List.range 16).all fun h => ((s.half h).keys (sweepTakes p ways)).isEmpty

/-- A kernel of the partition runs on some core. -/
def State.kernelRuns (s : State) (p : Nat) : Bool :=
  (s.cores.any fun e => e.2.mode != .idle && e.2.partition == p) ||
  s.work.launches.any fun l => l.part == p && (!l.busy.isEmpty || l.nodes.any fun n => !n.cores.isEmpty)

/-! Creation and query. -/

/-- PART_CREATE. -/
def execPartCreate (s : State) : Host.Outcome State Fault Refusal :=
  .next (s.run 0x0100 fun c =>
    let p := c.arg 0 1
    let fn := c.arg 1 1
    let bound := fn != 0 && s.work.parts.any fun e => match e.2 with | some x => x.fn == fn | none => false
    let x : Part := { state := .running, be := c.arg 6 1 == 1, fn, slice := c.slice, mask := c.mask, pstepMin := 15, resize := none, op := none,
                      destroying := false, refused := 0, overruns := 0, lastLc := 0, turn := none, turnFrom := none, undeliverable := [] }
    let made := ((((s.setPart p (some x)).setRect p (some c.rect)).writeMask p c.mask).retargetAll).postState p 0
    c.check 16 ([(decide (63 < p), 0), (decide (64 < fn), 1)] ++ s.partBad c)
      [((s.part p).isSome || s.rectTaken p c.rect || bound, stNotPermitted), (s.locked (.part p) || c.rect.cores.any s.underTest, stBusy)]
      (.ok [] made))

/-- PART_QUERY. -/
def execPartQuery (s : State) : Host.Outcome State Fault Refusal :=
  .next (s.run 0x0106 fun c =>
    let p := c.arg 0 1
    c.check 4 ([(s.noPart c p, 0)] ++ c.reserved [(1, 3)]) [(c.mbx != 1 && s.partBusy p, stBusy)]
      (match s.part p, s.rect p with
      | some x, some r => .ok (leBytes 1 x.state.code ++ leBytes 1 (bit x.be) ++ leBytes 1 r.x0 ++ leBytes 1 r.y0 ++ leBytes 1 r.w ++
          leBytes 1 r.h ++ leBytes 2 x.mask.toNat ++ leBytes 2 (s.arraysIn r) ++ leBytes 2 (s.partCtxs p).length ++
          leBytes 2 (s.partQueues p).length ++ leBytes 2 0) s
      | _, _ => .err stInvalid 0))

/-! Resizing (R421 to R423). -/

/-- The new rectangle, mask and slice come into force in one step. -/
def State.resizeForce (s : State) (p : Nat) (x : Part) (z : Resize) (old : Rect) : State :=
  let removed := old.cores.filter fun c => !z.rect.cores.contains c
  let z1 : Resize := { z with inForce := true, removed, ways := x.mask &&& ~~~z.mask }
  ((((s.setPart p (some { x with slice := z.slice, mask := z.mask, resize := some z1 })).setRect p (some z.rect)).writeMask p z.mask).clearCores
    removed).retargetAll.markEligible

/-- Removed ways are swept; OP_DONE follows when nothing is left of them. -/
def State.resizeSweep (s : State) (p : Nat) : State :=
  match s.part p with
  | none => s
  | some x =>
    match x.resize with
    | none => s
    | some z =>
      if !z.inForce then s
      else
        let s1 := s.sweepWaysAll p z.ways
        if !s1.waysSwept p z.ways then s1
        else (s1.setPart p (some { x with resize := none })).opDone z.op stSuccess false []

/-- A kernel boundary for a pending resize: it comes into force, and is cleared up. -/
def State.resizeStep (s : State) (p : Nat) : State :=
  match s.part p, s.rect p with
  | some x, some old =>
    match x.resize with
    | none => s
    | some z =>
      if z.inForce then s.resizeSweep p
      else
        let adds := old.cores.all fun c => z.rect.cores.contains c
        let taken := s.rects.any fun e => e.1 != p && (match e.2 with | some y => y.overlaps z.rect | none => false)
        if taken || (!adds && s.kernelRuns p) then s
        else (s.resizeForce p x z old).resizeSweep p
  | _, _ => s

/-- PART_RESIZE. -/
def execPartResize (s : State) : Host.Outcome State Fault Refusal :=
  let op := s.valac.nextOp
  .next (s.runThen 0x0101 (fun c =>
    let p := c.arg 0 1
    let x := s.part p
    let fn := match x with | some y => y.fn | none => 0
    let be := match x with | some y => y.be | none => false
    let z : Resize := { rect := c.rect, slice := c.slice, mask := c.mask, op, inForce := false, removed := [], ways := 0 }
    c.check 16 ([(x.isNone, 0), (c.arg 1 1 != fn, 1), (c.arg 6 1 != bit be, 6)] ++ s.partBad c)
      [(s.rectTaken p c.rect, stNotPermitted), (s.partBusy p || c.rect.cores.any s.underTest, stBusy), (s.opsFull c, stNoResources)]
      (.ok [] ((s.startOp c p).setPart p (x.map fun y => { y with resize := some z }))))
    fun c s1 => s1.resizeStep (c.arg 0 1))

/-- PART_RESIZE_TAKES_EFFECT. -/
def execPartResizeTakesEffect (p : PartIdx) (s : State) : Host.Outcome State Fault Refusal := .next (s.resizeStep p)

/-! Quiesce and resume (R424, R428). -/

/-- Cores of a partition: those of its rectangle, and others that still run a kernel of it. -/
def State.coresOfPart (s : State) (p : Nat) : List Nat :=
  let rect := match s.rect p with | some r => r.cores | none => []
  rect ++ (s.cores.filter fun e => e.2.partition == p && e.2.mode != .idle && !rect.contains e.1).map (·.1)

/-- R184 holds for a core: buffers are empty, and nothing that its engines sent is under way. -/
def State.coreQuiet (s : State) (c : Nat) : Bool :=
  let k := s.core c
  k.mode == .idle && k.wb.isEmpty && k.dmaQ.isEmpty && !(s.fab.reqs.any fun r => r.agent.core == some c) &&
    !s.xlat.rows.any fun e => match e.2.bind XRow.dma with | some d => d.1 == c | none => false

/-- No kernel of the partition runs, and R184 holds. -/
def State.partQuiet (s : State) (p : Nat) : Bool :=
  !s.kernelRuns p && (s.coresOfPart p).all s.coreQuiet &&
    !s.work.launches.any fun l => l.part == p && (if l.graph.isSome then l.nodes.any fun n => n.phase == .running || n.phase == .ended else l.running)

/-- PART_QUIESCE. -/
def execPartQuiesce (s : State) : Host.Outcome State Fault Refusal :=
  let op := s.valac.nextOp
  .next (s.runThen 0x0102 (fun c =>
    let p := c.arg 0 1
    c.check 4 ([((s.part p).isNone, 0)] ++ c.reserved [(1, 3)]) [(s.partBusy p, stBusy), (s.opsFull c, stNoResources)] (.ok [] (s.startOp c p)))
    fun c s1 =>
      let p := c.arg 0 1
      match s1.part p with
      | none => s1
      | some x =>
        if x.state = .quiesced then s1.opDone op stSuccess false []
        else s1.setPart p (some { x with state := .quiescing, op := some op }))

/-- End the operation that a partition has open. -/
def State.endPartOp (s : State) (p : Nat) : State :=
  match s.part p with
  | some x => match x.op with
    | some o => (s.setPart p (some { x with op := none })).opDone o stSuccess false []
    | none => s
  | none => s

/-- PART_QUIESCE_COMPLETE. -/
def execPartQuiesceComplete (p : PartIdx) (s : State) : Host.Outcome State Fault Refusal :=
  .next (match s.part p with
  | none => s
  | some x =>
    if x.state == .quiescing && s.partQuiet p then
      ((s.setPart p (some { x with state := .quiesced })).endPartOp p).postState p 2
    else s)

/-- PART_RESUME. -/
def execPartResume (s : State) : Host.Outcome State Fault Refusal :=
  .next (s.run 0x0103 fun c =>
    let p := c.arg 0 1
    let go := match s.part p with
      | some x => if x.state = .quiesced then ((s.setPart p (some { x with state := .running })).retargetAll.markEligible).admission p else s
      | none => s
    c.check 4 ([((s.part p).isNone, 0)] ++ c.reserved [(1, 3)]) [(s.partBusy p || s.committing, stBusy)] (.ok [] go))

/-! Reset and removal (R345, R425 to R427). -/

def tornByReset : Cause := { kind := fkAborted, code := 0x23, others := 0x23, keepWrites := false }

/-- The partition that an operation's objects belong to. -/
def State.opPart (s : State) (o : Op) : Option Nat :=
  o.cmd.names.findSome? fun x => match x with
    | .part p => some p
    | .ctx c => (s.ctxById c).map Ctx.partition
    | .queue q => (s.queue q).map Queue.part
    | .graph g => (s.graph g).map Graph.part
    | _ => none

/-- Cancel an operation: it has changed nothing (R344). That of a tenant is reported to the manager alone (R345). -/
def State.cancelOp (s : State) (o : Op) : State :=
  let s1 := if o.cmd.opcode = 0x0211 then s.setRow o.arg none else s
  if o.cmd.role ≠ 1 then s1.opDone o.id stNotReady true []
  else
    let s2 := { s1 with valac := { s1.valac with ops := s1.valac.ops.filter fun x => x.id != o.id } }
    s2.evrPut 0 { type := 2, partition := (s.opPart o).getD 0xFF, copy := true, time := BitVec.ofNat 64 s.now,
                  payload := leBytes 1 o.cmd.mbx ++ leBytes 1 1 ++ leBytes 2 o.cmd.opcode ++ leBytes 2 o.cmd.seq.toNat ++
                    leBytes 2 stNotReady ++ leBytes 8 o.cmd.token.toNat }

/-- Operations of a partition that its reset cancels: those of its tenant, and others that name its objects; not the reset or removal
itself, and not a resize in force. -/
def State.cancelPartOps (s : State) (p : Nat) (keep : Option Nat) : State :=
  let fn := match s.part p with | some x => x.fn | none => 0
  let forced := match (s.part p).bind Part.resize with | some z => if z.inForce then some z.op else none | none => none
  (s.valac.ops.filter fun o => some o.id != keep && some o.id != forced &&
    ((fn != 0 && o.cmd.mbx == fn + 1) || (s.opPart o == some p && o.cmd.opcode != 0x0200 && o.cmd.opcode != 0x0201))).foldl
    (fun s o => s.cancelOp o) s

/-- A mailbox returns to IDLE; the response of a command in progress is discarded (R345). -/
def State.idleMbx (s : State) (m : Nat) : State :=
  let s1 := s.setMbx m { s.mbx m with state := 0, overrun := false }
  { s1 with valac := { s1.valac with cur := s1.valac.cur.map fun c => if c.mbx = m then { c with discard := true } else c } }

/-- A partition's launches commit ABORTED and its contexts are torn down (R425 steps 1 and 2, R427). -/
def State.beginReset (s : State) (p : Nat) (keep : Option Nat) : State :=
  let s1 := s.cancelPartOps p keep
  let s2 := match s1.part p with
    | some x =>
      let resize := match x.resize with | some z => if z.inForce then some z else none | none => none
      let s3 := s1.setPart p (some { x with state := .resetting, resize, op := keep })
      if x.fn = 0 then s3 else s3.idleMbx (x.fn + 1)
    | none => s1
  (s2.partCtxs p).foldl (fun s i => s.tearContext ((s.ctx i).gen * 1024 + i) tornByReset) s2

/-- Step 3 of R425: the partition is empty. -/
def State.emptyPart (s : State) (p : Nat) : State :=
  let w := s.work
  let mine := fun (q : Option Queue) => match q with | some x => x.part == p | none => false
  let w1 := { w with
    launches := w.launches.filter fun l => l.part != p
    queues := SMap.keep w.queues fun _ q => !mine q
    crings := SMap.keep w.crings fun _ x => match x with | some y => y.part != p | none => true
    kernels := SMap.keep w.kernels fun _ x => match x with | some y => y.part != p | none => true
    graphs := SMap.keep w.graphs fun _ x => match x with | some y => y.part != p | none => true }
  let s1 := { s with work := w1 }
  let s2 := (s1.partCtxs p).foldl (fun s i => s.removeCtx ((s.ctx i).gen * 1024 + i)) s1
  match s2.part p with
  | some x => s2.setPart p (some { x with undeliverable := [], lastLc := 0, turn := none, turnFrom := none })
  | none => s2

/-- Every launch of the partition has committed and done its signal, and no core runs it. -/
def State.resetReady (s : State) (p : Nat) : Bool :=
  !s.kernelRuns p && s.work.launches.all fun l => l.part != p || (l.verdict.isSome && l.signalled)

/-- The RESET entry of a level of R534, once Valac runs (R542); `role` is the requesting role, 0xFF for none. -/
def State.noteReset (s : State) (level part role : Nat) : State :=
  if s.sys.valacUp then s.note { code := 0x0190, severity := 0, cause := level, partition := part, data := leBytes 1 role } else s

/-- PART_RESET. -/
def execPartReset (s : State) : Host.Outcome State Fault Refusal :=
  let op := s.valac.nextOp
  .next (s.runThen 0x0104 (fun c =>
    let p := c.arg 0 1
    c.check 4 ([((s.part p).isNone, 0)] ++ c.reserved [(1, 3)])
      [(s.partBusy p, stBusy), (!s.quiesced p, stNotQuiesced), (s.opsFull c, stNoResources)] (.ok [] (s.startOp c p)))
    fun c s1 => (s1.noteReset 1 (c.arg 0 1) c.role).beginReset (c.arg 0 1) (some op))

/-- PART_DESTROY. -/
def execPartDestroy (s : State) : Host.Outcome State Fault Refusal :=
  let op := s.valac.nextOp
  .next (s.runThen 0x0105 (fun c =>
    let p := c.arg 0 1
    c.check 4 ([((s.part p).isNone, 0)] ++ c.reserved [(1, 3)])
      [(s.partBusy p, stBusy), (!s.quiesced p, stNotQuiesced), (s.opsFull c, stNoResources)]
      (.ok [] ((s.startOp c p).setPart p ((s.part p).map fun x => { x with destroying := true }))))
    fun c s1 => s1.beginReset (c.arg 0 1) (some op))

/-- The partition is empty and RUNNING again. -/
def State.finishReset (s : State) (p : Nat) : State :=
  let s1 := s.emptyPart p
  match s1.part p with
  | some x => (((s1.setPart p (some { x with state := .running })).endPartOp p).postState p 0).retargetAll
  | none => s1

/-- PART_RESET_COMPLETE. -/
def execPartResetComplete (p : PartIdx) (s : State) : Host.Outcome State Fault Refusal :=
  .next (match s.part p with
  | some x => if x.state == .resetting && !x.destroying && s.resetReady p then s.finishReset p else s
  | none => s)

/-- What R426 releases. -/
def State.releasePart (s : State) (p : Nat) (cores : List Nat) : State :=
  let st := s.store
  let regions := SMap.set none (SMap.set none st.regions p none) (64 + p) none
  let tags := SMap.keep st.tags fun _ t => !(tagKind t == 1 && tagId t == p)
  let shares := SMap.mapV {} st.shares fun _ g =>
    { g with members := g.members &&& ~~~BitVec.ofNat 64 (2 ^ p), leaving := g.leaving &&& ~~~BitVec.ofNat 64 (2 ^ p)
             loader := if g.loader = some p then none else g.loader
             leavingLoader := if g.leavingLoader = some p then none else g.leavingLoader }
  ((({ s with store := { st with regions := regions, tags := tags, shares := shares } }).clearCores cores).writeMask p 0)

/-- PART_DESTROY_COMPLETE: the binding is released before PARTITION_STATE is posted, so that the event goes to the PF ring alone
(R371, R426; assumption 60). -/
def execPartDestroyComplete (p : PartIdx) (s : State) : Host.Outcome State Fault Refusal :=
  .next (match s.part p with
  | none => s
  | some x =>
    if x.state != .resetting || !x.destroying || !s.resetReady p || x.resize.isSome then s
    else
      let s1 := s.emptyPart p
      let s2 := s1.sweepWaysAll p 0xFFFF
      if !s2.waysSwept p 0xFFFF then s2
      else
        let cores := match s2.rect p with | some r => r.cores | none => []
        let s3 := (s2.releasePart p cores).endPartOp p
        ((((s3.setPart p none).setRect p none)).postState p 4).retargetAll)

/-! Resets of functions (R345, R369, R427, R491, R502). -/

/-- The function's own registers and configuration state; `ring` is what its event ring becomes. -/
def State.resetFn (s : State) (fn : Nat) (ring : EventRing) : State :=
  let s1 := (s.setRing fn ring).setPri fn {}
  s1.updHost fun h => { h with vectors := SMap.keep h.vectors (fun k _ => k / 2048 != fn), fnMask := SMap.set false h.fnMask fn false,
                               stu := SMap.set 0 h.stu fn 0 }

/-- The mailbox of a function that has been reset. -/
def State.resetMbx (s : State) (m : Nat) : State := (s.idleMbx m).setMbx m {}

/-- A VF FLR (R427). -/
def State.vfFlr (s : State) (v : Nat) : State :=
  let s1 := match s.partOfFn v with
    | some p => match s.part p with
      | some x => if x.state = PartState.resetting then s else s.beginReset p none
      | none => s
    | none => s
  let ops := s1.valac.ops.filter fun o => o.cmd.mbx == v + 1
  ((ops.foldl (fun s o => s.cancelOp o) s1).resetMbx (v + 1)).resetFn v {}

/-- VF_FLR of VF `v` + 1. -/
def execVfFlr (v : Fin 64) (s : State) : Host.Outcome State Fault Refusal :=
  .next ((s.noteReset 2 ((s.partOfFn (v.val + 1)).getD 0xFF) 0xFF).vfFlr (v.val + 1))

/-- Every enabled VF takes a VF FLR (R491). -/
def State.flrVfs (s : State) : State :=
  if !s.host.vfEnable then s
  else
    let s1 := (List.range s.host.numVfs).foldl (fun (s : State) i => s.vfFlr (i + 1)) s
    s1.updHost fun h => { h with vfEnable := false }

/-- VF_ENABLE_CLEAR. -/
def execVfEnableClear (s : State) : Host.Outcome State Fault Refusal :=
  .next (if s.host.vfEnable then
    ((List.range s.host.numVfs).foldl (fun (s : State) i => s.noteReset 2 ((s.partOfFn (i + 1)).getD 0xFF) 0xFF) s).flrVfs
  else s)

/-- A PF FLR: every partition is reset, and the PF's blocks of BAR0 but for what its event ring holds back (R345). -/
def State.pfFlr (s : State) : State :=
  let s1 := (s.noteReset 3 0xFF 0xFF).flrVfs
  let ps := (s1.work.parts.filter fun e => match e.2 with | some x => x.state != .resetting | none => false).map (·.1)
  let s2 := ps.foldl (fun (s : State) p => s.beginReset p none) s1
  let r := s2.ring 0
  let s3 := ((s2.resetMbx 0).resetMbx 1).resetFn 0 { ({} : EventRing) with backlog := r.backlog, lost := r.lost }
  s3.updHost fun h => { h with aperture := 0, refused := false, refusedFn := 0, refusedCause := 0, refusedAddr := 0, cntRefused := 0 }

/-- PF_FLR. -/
def execPfFlr (s : State) : Host.Outcome State Fault Refusal := .next s.pfFlr

/-- HOT_RESET: Hot Reset, Link Disable or DL_Down. -/
def execHotReset (s : State) : Host.Outcome State Fault Refusal :=
  .next ((s.pfFlr.updHost fun h => { h with bar4Base := [], pfSize := 43, vfSize := 40, numVfs := 0 }))

end Sys2Proof.Machine
end

