-- ==== Sys2Proof/Machine/Settings.lean ====
section
/-!
DEFINITION. Rinse, and the commands of identity, meridian, power and speculum (R353, R358 to R360, R403, R406, R414, R448, R452 to
R459, R472 to R481).
-/
namespace Sys2Proof.Machine

/-! Rinse (R452 to R459). All powers in 0.1 W. -/

/-- A pre-ramp for a rise that must end at time `t` is under way (R456). -/
def State.rampDue (s : State) (rise t : Nat) : Bool :=
  s.timeValid && decide (s.now < t) && decide (t ≤ s.now + 1000 * ceilDiv rise (Nat.max 1 s.power.ramp))

/-- Rises that the envelope must be raised for: of pending transits that come near, and of launches that wait for pre-ramp. -/
def State.risesDue (s : State) (l : Launch) : List Nat :=
  if l.verdict.isSome || l.stop.isSome then []
  else
    let ds := s.descsOf l
    let nodes := match l.graph with
      | some _ => (ds.zip l.nodes).zipIdx.filterMap fun (e : (List Byte × Node) × Nat) =>
          if descFlag e.1.1 1 && e.1.2.phase == .waiting && e.1.2.verdict.isNone && s.rampDue (s.layerRise l e.2) (transitOf e.1.1) then
            some (s.layerRise l e.2) else none
      | none => []
    let own := if l.flag 1 && (l.phase == .waiting || l.phase == .admitted) && s.rampDue (s.startRise l) (transitOf l.desc) then
      [s.startRise l] else []
    let waiting := if l.preramp.isNone then []
      else if l.running then (match s.firstReady l with | some i => [s.layerRise l i] | none => [])
      else [s.startRise l]
    own ++ nodes ++ waiting

/-- The envelope of R454 before the capacity of R458 is applied. -/
def Power.nextF (p : Power) (work pre : Nat) : Nat := Nat.min (10 * p.limit) (Nat.max work (Nat.max (p.envelope - p.ramp) pre))

/-- How far apart two values lie. -/
def apart (a b : Nat) : Nat := (a - b) + (b - a)

/-- A launch or a node that runs keeps the highest work power (R456, R457). -/
def Launch.peaks (l : Launch) (work : Nat) : Launch :=
  if l.running then
    { l with peak := Nat.max l.peak work, nodes := l.nodes.map fun n => if n.phase == .running then { n with peak := Nat.max n.peak work } else n }
  else l

/-- The stewards' estimates and rinse rates; the rates are not stated (assumption 3), and stand while a half stretches (R455). -/
def State.stewardBeat (s : State) (rinse : Bool) (h : Nat) : State :=
  let x := s.steward h
  let e := Config.estimate h s.time.beats % 2 ^ 16
  if x.droop then s.setSteward h { x with estimate := e }
  else if !rinse then s.setSteward h { x with estimate := e, rinse := 0 }
  else
    let f := s.draw 7
    f.2.setSteward h { x with estimate := e, rinse := Nat.min 64 f.1.toNat }

/-- Cycles of this beat in which rinse vectors were broadcast on the enabled arrays of a half: free values (R99, R141, R464). -/
def State.countRinse (s : State) (h : Nat) : State :=
  (List.range 40).foldl (fun (s : State) i =>
    let c := 40 * h + i
    let k := s.core c
    let rate := match k.rinse with | some n => n | none => (s.steward h).rinse
    if k.arrayOff || rate == 0 then s
    else
      let f := s.draw 11
      let s1 := f.2.setCore c { k with counters := bump k.counters 0x340 f.1.toNat }
      s1.setSteward h { s1.steward h with counters := bump (s1.steward h).counters 0x128 f.1.toNat }) s

/-- RINSE_ENVELOPE: 1 µs of the power estimate, `work`, and of rinse, whose capacity is given, both in 0.1 W. -/
def State.rinseBeat (s : State) (work capacity : Nat) : State :=
  let p := s.power
  let rises := s.work.launches.flatMap s.risesDue
  let target := work + rises.foldl Nat.max 0
  let pre := if rises.isEmpty then 0 else Nat.min target (Nat.max p.preramp work + p.ramp)
  let f0 := p.nextF work pre
  let unramped := decide (p.ramp + 400 < apart f0 p.envelope)
  let short := f0 - work - capacity
  let f := f0 - short
  let p1 : Power := { p with
    envelope := f, work, preramp := pre, rinseEnergy := p.rinseEnergy + (f - work), energy := if p.ahead then p.energy else p.energy + f / 10,
    cntUnramped := p.cntUnramped + bit unramped, cntRampShort := p.cntRampShort + bit (decide (0 < short)) }
  let s1 := { s with power := p1, work := { s.work with launches := s.work.launches.map fun l => l.peaks work } }
  let s2 := if short = 0 then s1 else s1.warn { code := 0x0603, severity := 1, data := leBytes 4 (short / 10) }
  (List.range 16).foldl (fun (s : State) h => (s.stewardBeat (decide (work < f)) h).countRinse h) s2

def execRinseEnvelope (work capacity : Nat) (s : State) : Host.Outcome State Fault Refusal :=
  .next (if s.sys.mainOn then s.rinseBeat work capacity else s)

/-! Identity and status (R353). -/

/-- Disabled arrays by number (R4). -/
def State.disabledArrays (s : State) : List Nat := (List.range 640).filter fun c => (s.core c).arrayOff
/-- Firmware version: 0 for the recovery loader (R516). -/
def State.versionNow (s : State) : Nat := if s.fw.recovery then 0 else s.fw.running.version

/-- IDENTIFY. -/
def execIdentify (s : State) : Host.Outcome State Fault Refusal :=
  .next (s.run 0x0000 fun c =>
    let off := s.disabledArrays
    c.check 0 [] []
      (.ok (padTo 16 s.fw.partNumber ++ padTo 16 s.fw.serial ++ leBytes 2 s.fw.grade ++ leBytes 2 s.enabledArrays ++
        leBytes 4 (bit s.fw.belowGrade) ++ leBytes 4 s.versionNow ++ leBytes 1 s.fw.floor ++ leBytes 1 0 ++ leBytes 2 off.length ++
        off.flatMap fun a => leBytes 1 (coreX a) ++ leBytes 1 (coreY a)) s))

/-- Hottest junction, in whole °C rounded down. -/
def State.hottestC (s : State) : Int :=
  (hottest ((List.range 16).flatMap s.halfTemps ++ (List.range 4).flatMap s.hubTemps)).toInt / 8

/-- Partitions that exist; a tenant sees its own alone. -/
def State.partsSeen (s : State) (c : Cmd) : Nat :=
  (List.range 64).foldl (fun n p => if (s.part p).isSome && !s.foreignTo c p then n + 2 ^ p else n) 0

/-- GET_STATUS. -/
def execGetStatus (s : State) : Host.Outcome State Fault Refusal :=
  .next (s.run 0x0001 fun c =>
    c.check 0 [] []
      (.ok (leBytes 1 s.sys.state ++ leBytes 1 s.sys.step ++ leBytes 1 s.twin.code ++ List.replicate 5 0 ++ leBytes 8 (s.partsSeen c) ++
        leBytes 4 s.power.mean ++ leBytes 2 (wrapNat 16 s.hottestC) ++ leBytes 2 0 ++ leBytes 8 s.now) s))

/-- ECHO. -/
def execEcho (s : State) : Host.Outcome State Fault Refusal := .next (s.run 0x0002 fun c => .ok c.payload s)

/-! Meridian (R358, R403, R406). -/

/-- A new source (R406). -/
def State.setSource (s : State) (src domain : Nat) : State :=
  let m : Meridian := { s.time with source := src, domain }
  { s with time :=
    if src = s.time.source then m
    else
      let m1 : Meridian := { m with good := 0 }
      match m.state with
      | .unset => { m1 with stepped := false, state := if src = 2 then .free else .unset }
      | .locked => { m1 with state := if src = 2 then .free else .locked }
      | .holdover => { m1 with state := if src = 2 then .free else .holdover }
      | .free => { m1 with state := .holdover, quiet := 0 } }

/-- MERIDIAN_SOURCE. -/
def execMeridianSource (s : State) : Host.Outcome State Fault Refusal :=
  .next (s.run 0x0500 fun c =>
    let looped := c.arg 0 1 == 1 && s.twin.state == .paired && s.twin.peerSource == 1
    c.check 4 ([(decide (2 < c.arg 0 1), 0), (decide (127 < c.arg 1 1), 1)] ++ c.reserved [(2, 2)])
      [(looped, stNotPermitted), (s.committing, stBusy)] (.ok [] (s.setSource (c.arg 0 1) (c.arg 1 1))))

/-- MERIDIAN_READ. -/
def execMeridianRead (s : State) : Host.Outcome State Fault Refusal :=
  .next (s.run 0x0501 fun c =>
    let offset := if s.time.state = .free then 0 else wrapNat 32 s.time.offset
    c.check 0 [] []
      (.ok (leBytes 8 s.now ++ leBytes 1 s.time.source ++ leBytes 1 (bit (s.time.state == .locked)) ++ leBytes 2 0 ++ leBytes 4 offset) s))

/-- ALMANAC_QUERY; the earliest time of no transit is not stated (assumption 3). -/
def execAlmanacQuery (s : State) : Host.Outcome State Fault Refusal :=
  .next (s.run 0x0502 fun c =>
    let ts := (s.work.launches.filter fun l => !s.foreignTo c l.part).flatMap fun l => (s.pendingTransits l).map (·.1)
    c.check 0 [] []
      (match ts with
      | [] =>
        let f := s.draw 64
        .ok (leBytes 8 0 ++ leBytes 8 f.1.toNat) f.2
      | t :: r => .ok (leBytes 2 ts.length ++ leBytes 6 0 ++ leBytes 8 (r.foldl Nat.min t)) s))

/-! Power (R359, R448). -/

/-- POWER_LIMIT. -/
def execPowerLimit (s : State) : Host.Outcome State Fault Refusal :=
  .next (s.run 0x0600 fun c =>
    let w := c.arg 0 4
    let p : Power := if c.role = 2 then { s.power with limitC := w } else { s.power with limitM := w }
    c.check 4 [(decide (w < 1500 || 6800 < w), 0)] [(s.committing, stBusy)] (.ok (leBytes 4 p.limit) (s.withLimits p)))

/-- RINSE_RAMP. -/
def execRinseRamp (s : State) : Host.Outcome State Fault Refusal :=
  .next (s.run 0x0601 fun c =>
    let r := c.arg 0 2
    let p : Power := if c.role = 2 then { s.power with rampC := r } else { s.power with rampM := r }
    c.check 4 ([(decide (r < 5 || 200 < r), 0)] ++ c.reserved [(2, 2)]) [(s.committing, stBusy)]
      (.ok (leBytes 2 p.ramp ++ leBytes 2 0) { s with power := p }))

/-- PSTEP_RANGE. -/
def execPstepRange (s : State) : Host.Outcome State Fault Refusal :=
  .next (s.run 0x0602 fun c =>
    let p := c.arg 0 1
    c.check 4 ([((s.part p).isNone, 0), (decide (15 < c.arg 1 1), 1)] ++ c.reserved [(2, 2)]) [(s.partBusy p, stBusy)]
      (.ok [] (s.setPart p ((s.part p).map fun x => { x with pstepMin := c.arg 1 1 }))))

/-- POWER_QUERY. -/
def execPowerQuery (s : State) : Host.Outcome State Fault Refusal :=
  .next (s.run 0x0603 fun c =>
    let p := s.power
    c.check 0 [] []
      (.ok (leBytes 8 p.energy ++ leBytes 8 (p.rinseEnergy / 10) ++ leBytes 4 p.mean ++ leBytes 4 p.limit ++ leBytes 2 p.ramp ++
        List.replicate 6 0) s))

/-! Speculum (R360, R472, R473, R475 to R477, R481). -/

/-- PAIR. -/
def execPair (s : State) : Host.Outcome State Fault Refusal :=
  let op := s.valac.nextOp
  .next (s.runThen 0x0700 (fun c =>
    c.check 0 [] [(s.twin.state == .unpaired && s.fw.pairId.isNone, stNotPermitted), (s.committing, stBusy), (s.opsFull c, stNoResources)]
      (.ok [] (s.startOp c 0)))
    fun _ s1 =>
      match s1.twin.state with
      | .unpaired => { s1 with twin := { s1.twin with hold := false, state := .training } }
      | .paired => s1.opDone op stSuccess false []
      | _ => s1)

/-- Windows of a pairing that ends by this module's own doing (assumption 43). -/
def State.breakWindows (s : State) : State :=
  let windows := SMap.mapV ({} : MirWin) s.twin.windows fun _ x =>
    if x.state = .active then { x with state := .broken, staged := [], stagedBytes := 0, closed := none, fill := 0, peer := none }
    else { x with peer := none }
  let syncs := s.twin.syncs.map fun o => { o with dead := true }
  ({ s with twin := { s.twin with windows := windows, syncs := syncs } }).failTwinRepairs

/-- UNPAIR. -/
def execUnpair (s : State) : Host.Outcome State Fault Refusal :=
  .next (s.run 0x0701 fun c =>
    c.check 0 [] [(s.committing, stBusy)]
      (.ok [] (if s.twin.state = .paired then
        let s1 := (s.sendRecord 9 0 1 []).breakWindows
        { s1 with twin := { s1.twin with state := .unpaired, hold := true } }
      else s)))

/-- Writes of a broken window that wait for an acknowledgement complete as performed here alone (R476). -/
def State.releaseSyncs (s : State) (w : Nat) : State :=
  let mine := s.twin.syncs.filter fun o => o.window == w
  let s1 := { s with twin := { s.twin with syncs := s.twin.syncs.filter fun o => o.window != w } }
  mine.foldl (fun (s : State) o => match o.rid with
    | some r => (s.dropReq r).specCount 0x220 1
    | none => s) s1

/-- MIRROR_SET on a window (R475). -/
def State.mirrorSet (s : State) (w mode lag start len : Nat) : State :=
  if mode = 0 then
    let peer := (s.win w).peer
    let s1 := (s.releaseSyncs w).setWin w { ({} : MirWin) with peer }
    if s1.twin.state = .paired then s1.offerWindow w else s1
  else
    let x := s.win w
    let s1 := s.setWin w { ({} : MirWin) with state := .waiting, mode, lag, start, len, peer := x.peer }
    if s1.twin.state = .paired then (s1.offerWindow w).windowTry w else s1

/-- Another window overlaps the range. -/
def State.windowMeets (s : State) (w start len : Nat) : Bool :=
  s.twin.windows.any fun e => e.1 != w && e.2.state != .off && meets e.2.start e.2.len start len

/-- MIRROR_SET. -/
def execMirrorSet (s : State) : Host.Outcome State Fault Refusal :=
  .next (s.run 0x0702 fun c =>
    let w := c.arg 0 1
    let mode := c.arg 1 1
    let lag := c.arg 4 4
    let a := c.arg 8 8
    let n := c.arg 0x10 8
    let x := s.win w
    let whole := inOneTier a n && addrClass a != .tier3
    let busy := (x.state == .waiting || x.state == .active) && (x.closed.isSome || s.twin.syncs.any fun o => o.window == w && !o.dead)
    c.check 24
      ([(decide (63 < w), 0), (decide (2 < mode), 1), (if mode = 2 then decide (lag < 50 || 10000000 < lag) else lag != 0, 4),
        (a % granuleBytes != 0 || (mode != 0 && s.windowMeets w a n), 8), (n % granuleBytes != 0 || !(whole || (mode == 0 && n == 0)), 0x10)] ++
        c.reserved [(2, 2)])
      [(busy, stBusy)] (.ok [] (s.mirrorSet w mode lag a n)))

/-- The window lies in the regions of a partition. -/
def State.windowOwned (s : State) (p w : Nat) : Bool :=
  let x := s.win w
  [(p, false), (64 + p, true)].any fun e => match SMap.get none s.store.regions e.1 with
    | some r => decide (0 < x.len) && decide (r.base ≤ x.start) && decide (x.start + x.len ≤ r.top e.2)
    | none => false

/-- EPOCH_CLOSE. -/
def execEpochClose (s : State) : Host.Outcome State Fault Refusal :=
  .next (s.run 0x0703 fun c =>
    let w := c.arg 0 1
    let x := s.win w
    let foreign := match s.tenantPart c with | some p => !s.windowOwned p w | none => false
    let closed := (s.setWin w { x with closed := some (x.epoch, s.now), epoch := x.epoch + 1, fill := 0 }).sendRecord 3 w x.epoch []
    c.check 4 ([(decide (63 < w) || foreign || x.mode == 1, 0)] ++ c.reserved [(1, 3)])
      [(x.closed.isSome, stBusy), (x.state != .active, stNotReady)] (.ok (leBytes 8 x.epoch) closed))

/-- TAKEOVER_STATUS. -/
def execTakeoverStatus (s : State) : Host.Outcome State Fault Refusal :=
  .next (s.run 0x0704 fun c =>
    let entry := fun (w : Nat) =>
      let x := s.win w
      x.state.code * 2 ^ 60 + (if x.mode = 2 then x.applied % 2 ^ 48 else 0)
    c.check 0 [] []
      (.ok (leBytes 8 (bit s.twin.ready) ++ (List.range 64).flatMap fun w => leBytes 8 (entry w)) s))

end Sys2Proof.Machine
end

