-- ==== Sys2Proof/Machine/Firmware.lean ====
section
/-!
DEFINITION. Firmware staging, bounded settings, the audit log and the logbook's commands (R361, R362, R508 to R516, R526 to R530,
R540).
-/
namespace Sys2Proof.Machine

/-! The audit log (R529). -/

/-- An entry of the ring; when it is full the oldest entry that records no bounded change goes. -/
def State.audit (s : State) (opcode role setting status used version : Nat) (value : List Byte) : State :=
  let e : AuditEntry := { index := s.fw.nextAudit, time := BitVec.ofNat 64 s.now, opcode, role, setting,
                          flags := bit s.timeValid + 2 * bit s.fw.recovery, status, used, version, value }
  let old := if s.fw.audit.length < 65536 then s.fw.audit
    else match s.fw.audit.find? fun x => x.setting == 0xFF with
      | some x => s.fw.audit.erase x
      | none => s.fw.audit
  { s with fw := { s.fw with audit := old ++ [e], nextAudit := s.fw.nextAudit + 1 } }

def AuditEntry.bytes (e : AuditEntry) : List Byte :=
  leBytes 8 e.index ++ leBytes 8 e.time.toNat ++ leBytes 2 e.opcode ++ leBytes 1 e.role ++ leBytes 1 e.setting ++ leBytes 1 e.flags ++
  leBytes 1 e.status ++ leBytes 2 e.used ++ leBytes 4 e.version ++ leBytes 4 0 ++ padTo 32 e.value

/-- AUDIT_READ. -/
def execAuditRead (s : State) : Host.Outcome State Fault Refusal :=
  .next (s.run 0x0808 fun c =>
    c.check 8 [] [] (.ok (((s.fw.audit.filter fun e => decide (c.arg 0 8 ≤ e.index)).take 63).flatMap AuditEntry.bytes) s))

/-! Images (R511, R512). -/

/-- A byte of the staged image. -/
def stagedAt (m : SMap Byte) (off n : Nat) : Nat := leNat (SMap.getBytes m off n)
/-- Reserved ranges of the header. -/
def imageReserved : List (Nat × Nat) := [(7, 1), (0x12, 14), (0x60, 32), (0x781, 127), (0xF02, 126), (0x1980, 9856)]
def sizeOk (n : Nat) : Bool := n % 4096 == 0 && decide (0x8000 ≤ n) && decide (n ≤ 0x4000000)

/-- The first check of R512 that fails, 0 for none. -/
def imageCheck (m : SMap Byte) (floor : Nat) : Nat :=
  let g := SMap.getBytes m
  if stagedAt m 0 4 ≠ 0x46573841 || stagedAt m 4 2 ≠ 1 || stagedAt m 0x10 2 ≠ 0xA8C0 || !sizeOk (stagedAt m 0xC 4) ||
      imageReserved.any fun r => stagedAt m r.1 r.2 != 0 then 1
  else if shake256 (g 0x80 1793) ≠ Config.rootDigest then 2
  else if !Config.falconVerify (g 0x80 1793) (shake256 (g 0x800 1920)) (g 0xF80 1280) then 3
  else if !Config.falconVerify (g 0x800 1793) (shake256 (g 0 0x1480)) (g 0x1480 1280) then 4
  else if shake256 (g 0x4000 (stagedAt m 0xC 4 - 0x4000)) ≠ g 0x20 64 then 5
  else if stagedAt m 6 1 < stagedAt m 0xF01 1 then 6
  else if stagedAt m 6 1 < floor then 7
  else 0

/-- What the image area holds once the staged image is programmed. -/
def imageOf (m : SMap Byte) (failing : Nat) : Image :=
  { failing, version := stagedAt m 8 4, secver := stagedAt m 6 1, digest := SMap.getBytes m 0x20 64 }

/-! Staging (R513, R516). -/

/-- FW_STAGE. -/
def execFwStage (s : State) : Host.Outcome State Fault Refusal :=
  .next (s.run 0x0800 fun c =>
    let off := c.arg 0 4
    let n := c.arg 4 4
    let other := match s.fw.claim with | some m => m != c.mbx | none => false
    let base := if off = 0 then [] else s.fw.staged
    let fw : Firmware := { s.fw with claim := some c.mbx, staged := SMap.putBytes base off ((c.payload.drop 8).take n), claimIdle := s.time.beats }
    c.check (8 + n) [(decide (0x4000000 < off + n), 0), (decide (n = 0 || 4056 < n), 4)]
      [(s.fw.claim.isNone && off != 0, stNotPermitted), (other || s.committing, stBusy)] (.ok [] { s with fw := fw }))

/-- The image area, into which the recovery loader stages directly (R516). -/
def Firmware.area (f : Firmware) : Image := if f.recovery && f.claim.isSome then imageOf f.staged (imageCheck f.staged 0) else f.flash

/-- The claim ends and the staged bytes are discarded; those of the recovery loader stand in the image area. -/
def State.endClaim (s : State) : State := { s with fw := { s.fw with claim := none, staged := [], flash := s.fw.area } }

/-- FW_STAGE_CLAIM_TIMEOUT: 60 s without an FW_STAGE. -/
def execFwStageClaimTimeout (s : State) : Host.Outcome State Fault Refusal :=
  .next (if s.fw.claim.isSome && !s.committing && decide (s.fw.claimIdle + 60000000 ≤ s.time.beats) then s.endClaim else s)

/-- FW_COMMIT. -/
def execFwCommit (s : State) : Host.Outcome State Fault Refusal :=
  .next (s.run 0x0801 fun c =>
    let other := match s.fw.claim with | some m => m != c.mbx | none => false
    let moving := s.work.parts.any fun e => match e.2 with | some x => x.state != .quiesced | none => false
    c.check 4 [(c.arg 0 4 != stagedAt s.fw.staged 0xC 4, 0)]
      [(s.fw.claim.isNone, stNotPermitted), (other || s.committing, stBusy), (!s.fw.recovery && moving, stNotQuiesced), (s.opsFull c, stNoResources)]
      (.ok [] (s.startOp c 0)))

/-! Bounded settings (R527 to R529). -/

def State.usedOf (s : State) (i : Nat) : Nat := SMap.get 0 s.fw.used i
def State.exhausted (s : State) (i : Nat) : Bool := decide (boundLimit i ≤ s.usedOf i)

/-- A counted change of setting `i` to `value` (R528): the count, the record `fw`, the audit entry. -/
def State.counted (s : State) (c : Cmd) (i : Nat) (value : List Byte) (fw : Firmware) : State :=
  let n := s.usedOf i + 1
  let s1 := { s with fw := { fw with used := SMap.set 0 fw.used i n } }
  s1.audit c.opcode c.role i stSuccess n s.fw.running.version ((shake256 value).take 32)

/-- A command of a bounded setting: one that requests no change counts nothing. -/
def State.boundCmd (s : State) (c : Cmd) (i : Nat) (same : Bool) (value : List Byte) (fw : Firmware) (after : State → State) : Reply :=
  .ok [] (if same then s else after (s.counted c i value fw))

/-- SEC_FLOOR_RAISE. -/
def execSecFloorRaise (s : State) : Host.Outcome State Fault Refusal :=
  .next (s.run 0x0802 fun c =>
    let f := c.arg 0 1
    let same := f == s.fw.floor
    let peer := s.twin.state == .paired && (match s.twin.peerSecver with | some v => decide (v < f) | none => false)
    c.check 4 ([(decide (f < s.fw.floor), 0)] ++ c.reserved [(1, 3)])
      [(!same && (decide (s.fw.running.secver < f) || peer), stNotPermitted), (s.committing, stBusy), (!same && s.exhausted 0, stExhausted)]
      (s.boundCmd c 0 same (leBytes 1 f) { s.fw with floor := f } id))

/-- PAIR_ID_SET: a pairing ends without the hold (R472). -/
def execPairIdSet (s : State) : Host.Outcome State Fault Refusal :=
  .next (s.run 0x0803 fun c =>
    let same := s.fw.pairId == some c.payload
    c.check 64 [] [(s.committing, stBusy), (!same && s.exhausted 1, stExhausted)]
      (s.boundCmd c 1 same c.payload { s.fw with pairId := some c.payload } fun s1 =>
        if s1.twin.state = .paired then
          let s2 := s1.breakWindows
          { s2 with twin := { s2.twin with state := .training } }
        else s1))

/-- DARN_AMEND. -/
def execDarnAmend (s : State) : Host.Outcome State Fault Refusal :=
  .next (s.run 0x0804 fun c =>
    let n := c.arg 0 2
    let ws : List Word := (List.range n).map fun i => BitVec.ofNat 32 (c.arg (4 + 4 * i) 4)
    let badWire := fun (w : Word) => decide (20 < bitsOf w.toNat 27 5 || 191 < bitsOf w.toNat 18 8 || 16 < bitsOf w.toNat 13 5) ||
      !w.getLsbD 12 || bitsOf w.toNat 0 12 != 0
    let new := (ws.filter fun w => !(s.fw.darn.map darnWire).contains (darnWire w)).eraseDups
    c.check (4 + 4 * n) ([(decide (n = 0 || 64 < n), 0)] ++ c.reserved [(2, 2)] ++ ws.zipIdx.map fun e => (badWire e.1, 4 + 4 * e.2))
      [(s.committing, stBusy), (decide (4096 < s.fw.darn.length + new.length), stNoResources), (!new.isEmpty && s.exhausted 2, stExhausted)]
      (s.boundCmd c 2 new.isEmpty (c.payload.drop 4) { s.fw with darn := s.fw.darn ++ new } id))

/-- PATCH_AMEND. -/
def execPatchAmend (s : State) : Host.Outcome State Fault Refusal :=
  .next (s.run 0x0805 fun c =>
    let n := c.arg 0 2
    let as := (List.range n).map fun i => c.arg (2 + 2 * i) 2
    let coreOf := fun (v : Nat) => (coreAt (bitsOf v 0 6) (bitsOf v 8 4)).map fun k => k.val
    let badArray := fun (v : Nat) => bitsOf v 6 2 != 0 || bitsOf v 12 4 != 0 || decide (39 < bitsOf v 0 6)
    let new := ((as.filterMap coreOf).filter fun k => !s.fw.patch.contains k).eraseDups
    c.check (2 + 2 * n) ([(decide (n = 0 || 64 < n), 0)] ++ as.zipIdx.map fun e => (badArray e.1, 2 + 2 * e.2))
      [(s.committing, stBusy), (!new.isEmpty && s.exhausted 3, stExhausted)]
      (s.boundCmd c 3 new.isEmpty (c.payload.drop 2) { s.fw with patch := s.fw.patch ++ new } id))

/-- The open session closes. -/
def State.closeSession (s : State) : State := { s with fw := { s.fw with session := none, events := [] } }

/-- MGMT_ID_LOCK: the record takes effect once its response has been sent (R526). -/
def execMgmtIdLock (s : State) : Host.Outcome State Fault Refusal :=
  .next (s.runThen 0x0806 (fun c =>
    let r := c.payload
    let same := decide (0 < s.usedOf 4) && s.fw.mgmtId == r
    c.check 64 ([(decide (128 < c.arg 0x10 1) || (zeroAt r 0 16 && c.arg 0x10 1 != 0), 0x10)] ++ c.reserved [(0x11, 15)])
      [(s.committing, stBusy), (!same && s.exhausted 4, stExhausted)]
      (s.boundCmd c 4 same r { s.fw with mgmtId := r } id))
    fun _ s1 => match s1.fw.session with
      | some x => if x.keyDigest = s1.fw.mgmtId.drop 32 || s1.usedOf 4 = 0 then s1 else s1.closeSession
      | none => s1)

/-- The used counts and limits, as BOUND_QUERY gives them. -/
def State.boundBytes (s : State) : List Byte := (List.range 5).flatMap fun i => leBytes 2 (s.usedOf i) ++ leBytes 2 (boundLimit i)

/-- BOUND_QUERY. -/
def execBoundQuery (s : State) : Host.Outcome State Fault Refusal :=
  .next (s.run 0x0807 fun c => c.check 0 [] [] (.ok s.boundBytes s))

/-! The logbook and telemetry (R362, R507, R540). -/

def LogEntry.bytes (e : LogEntry) : List Byte :=
  leBytes 8 e.index ++ leBytes 8 e.time.toNat ++ leBytes 2 e.code ++ leBytes 1 e.severity ++ leBytes 1 e.flags ++ leBytes 1 e.source ++
  leBytes 1 e.unit ++ leBytes 1 e.partition ++ leBytes 1 e.fault ++ leBytes 2 e.ctx ++ leBytes 1 e.cause ++ leBytes 1 e.step ++
  leBytes 4 e.count ++ padTo 32 e.data

/-- LOG_READ. -/
def execLogRead (s : State) : Host.Outcome State Fault Refusal :=
  .next (s.run 0x0902 fun c =>
    let es := (s.log.flash ++ s.log.held).filter fun e => decide (c.arg 0 8 ≤ e.index)
    c.check 16 (c.reserved [(10, 6)]) [] (.ok ((es.take (Nat.min 63 (c.arg 8 2))).flatMap LogEntry.bytes) s))

/-- TELEMETRY_READ. -/
def execTelemetryRead (s : State) : Host.Outcome State Fault Refusal :=
  .next (s.run 0x0903 fun c => c.check 0 [] [] (.ok (padTo 4064 s.power.telemetry) s))

/-- Entries that the flash ring keeps (R540). -/
def logRing (l : List LogEntry) : List LogEntry := l.drop (l.length - 262144)

/-- LOG_FLUSH: held entries go to the flash, unless an FW_COMMIT is writing it; a count of dropped entries follows. -/
def execLogFlush (s : State) : Host.Outcome State Fault Refusal :=
  .next (if s.committing || !s.sys.standby then s
  else
    let s1 := { s with log := { s.log with flash := logRing (s.log.flash ++ s.log.held), held := [], dropped := 0 } }
    if s.log.dropped = 0 then s1 else s1.warn { code := 0x0806, severity := 1, data := leBytes 4 s.log.dropped })

/-! ARRAY_TEST (R363). -/

/-- ARRAY_TEST. -/
def execArrayTest (s : State) : Host.Outcome State Fault Refusal :=
  .next (s.run 0x0A00 fun c =>
    let r : Rect := { x0 := c.arg 0 1, y0 := c.arg 1 1, w := c.arg 2 1, h := c.arg 3 1 }
    let held := s.rects.any fun e => (match e.2 with | some x => x.overlaps r | none => false) && !s.quiesced e.1
    c.check 4 [(decide (40 < r.x0 + r.w), 0), (decide (16 < r.y0 + r.h), 1), (decide (r.w = 0), 2), (decide (r.h = 0), 3)]
      [(held, stNotQuiesced), (s.opsFull c, stNoResources)] (.ok [] (s.startOp c 0)))

/-- ARRAY_TEST_COMPLETE: the arrays that fail, by their coordinates. -/
def execArrayTestComplete (failing : List (Nat × Nat)) (s : State) : Host.Outcome State Fault Refusal :=
  .next (match s.opOf 0x0A00 with
  | none => s
  | some o =>
    let inside := (failing.filter fun a => decide (o.cmd.arg 0 1 ≤ a.1) && decide (a.1 < o.cmd.arg 0 1 + o.cmd.arg 2 1) &&
      decide (o.cmd.arg 1 1 ≤ a.2) && decide (a.2 < o.cmd.arg 1 1 + o.cmd.arg 3 1)).eraseDups
    s.opDone o.id stSuccess false (leBytes 2 inside.length ++ (inside.take 15).flatMap fun a => leBytes 1 a.1 ++ leBytes 1 a.2))

end Sys2Proof.Machine
end

