-- ==== Sys2Proof/Machine/Mgmt.lean ====
section
/-!
DEFINITION. The management port: its link, sessions and frames, and SPDM (R346, R520 to R526).
-/
namespace Sys2Proof.Machine

/-! The link (R522). -/

/-- The link comes up, goes down, or the 2 s trial of one rate ends without it: 0 is 10GBASE-SR, 1 is 1000BASE-SX. -/
def State.portLink (s : State) (up : Bool) : State :=
  if !s.sys.standby then s
  else if up then { s with fw := { s.fw with mgmtUp := true } }
  else if s.fw.mgmtUp then { s with fw := { s.fw with mgmtUp := false } }
  else { s with fw := { s.fw with mgmtRate := 1 - s.fw.mgmtRate } }

/-- MANAGEMENT_PORT_LINK. -/
def execManagementPortLink (up : Bool) (s : State) : Host.Outcome State Fault Refusal := .next (s.portLink up)

/-- Management frames are answered: Valac or the recovery loader runs, and the link is up. -/
def State.portServes (s : State) : Bool := s.sys.valacUp && s.fw.mgmtUp

/-! Opening a session (R523, R525). The nonce and the seed of the encapsulation are free values (assumption 3). -/

/-- HELLO: 1,568 B of encapsulation key and 32 B of nonce. -/
def State.hello (s : State) (body : List Byte) : State :=
  let seed := s.draw 256
  let nonce := seed.2.draw 256
  let id := s.fw.nextSession
  let reply := leBytes 8 id ++ Config.mlkemCipher (body.take 1568) seed.1.toNat ++ leBytes 32 nonce.1.toNat
  let transcript := shake256 (body ++ reply)
  let s1 := { nonce.2 with fw := { nonce.2.fw with hello := some (BitVec.ofNat 64 id, transcript), nextSession := id + 1 } }
  s1.emit (.frame 2 (BitVec.ofNat 64 id) 0 (reply ++ Config.falconSign transcript))

def execHello (body : List Byte) (s : State) : Host.Outcome State Fault Refusal :=
  .next (if s.portServes && body.length == 1600 then s.hello body else s)

/-- First 32 bytes of the digest of a console key. -/
def keyDigest (key : List Byte) : List Byte := (shake256 key).take 32

/-- The module accepts this console key: any before the first lock. -/
def State.keyAccepted (s : State) (key : List Byte) : Bool := s.usedOf 4 == 0 || keyDigest key == s.fw.mgmtId.drop 32

/-- PROVE opens the session that the last HELLO_REPLY offered, in place of any open one. -/
def execProve (f : MgmtFrame) (s : State) : Host.Outcome State Fault Refusal :=
  .next (match s.fw.hello with
  | none => s
  | some (id, transcript) =>
    let key := f.body.take 1793
    if s.portServes && f.session == id && f.tagOk && decide (0 < f.counter.toNat) && f.body.length == 3073 &&
        Config.falconVerify key transcript (f.body.drop 1793) && s.keyAccepted key then
      { s with fw := { s.fw with
          session := some { id, proved := true, rxCount := f.counter.toNat, txCount := 0, keyDigest := keyDigest key, idle := s.time.beats }
          hello := none, events := [] } }
    else s)

/-! Frames of the open session (R524). -/

/-- The frame is of the open session, new and whole. -/
def Session.takes (x : Session) (f : MgmtFrame) : Bool := x.proved && f.session == x.id && f.tagOk && decide (x.rxCount < f.counter.toNat)

/-- A frame is accepted, and then acts; any other is discarded. -/
def State.onFrame (s : State) (f : MgmtFrame) (act : State → State) : State :=
  match s.fw.session with
  | some x =>
    if s.portServes && x.takes f then
      act { s with fw := { s.fw with session := some { x with rxCount := f.counter.toNat, idle := s.time.beats } } }
    else s
  | none => s

/-- A console command: BUSY while one is in progress, otherwise in the console's mailbox (R346). -/
def State.consoleCommand (s : State) (body : List Byte) : State :=
  let b := s.mbx 66
  if b.state = 1 then
    let c : Cmd := { mbx := 66, opcode := fieldAt body 0 2, seq := BitVec.ofNat 16 (fieldAt body 2 2), notify := false,
                     token := BitVec.ofNat 64 (fieldAt body 16 8), role := 2, payload := [] }
    s.responseFrame (s.responseBytes c stBusy 0 [])
  else s.setMbx 66 { b with buffer := SMap.putBytes [] 0 (body.take 4096), state := 1, doorbell := BitVec.ofNat 16 (fieldAt body 2 2) }

/-- COMMAND. -/
def execCommand (f : MgmtFrame) (s : State) : Host.Outcome State Fault Refusal := .next (s.onFrame f fun s1 => s1.consoleCommand f.body)

/-- EVENT_ACK: the event is not sent again. -/
def execEventAck (f : MgmtFrame) (s : State) : Host.Outcome State Fault Refusal :=
  .next (s.onFrame f fun s1 => { s1 with fw := { s1.fw with events := s1.fw.events.filter fun e => e.1 != fieldAt f.body 0 4 } })

/-- CLOSE. -/
def execClose (f : MgmtFrame) (s : State) : Host.Outcome State Fault Refusal := .next (s.onFrame f State.closeSession)

/-- An event is sent again, at most 60 times. -/
def State.resendEvent (s : State) (number : Nat) : State :=
  match s.fw.session, s.fw.events.find? fun e => e.1 == number with
  | some x, some (n, body, sent) =>
    if 60 < sent then s
    else
      let events := s.fw.events.map fun e => if e.1 = n then (n, body, sent + 1) else e
      ({ s with fw := { s.fw with session := some { x with txCount := x.txCount + 1 }, events := events } }).emit
        (.frame 6 x.id (BitVec.ofNat 64 (x.txCount + 1)) body)
  | _, _ => s

/-- EVENT_RESEND: 1 s has passed without an EVENT_ACK. -/
def execEventResend (number : Nat) (s : State) : Host.Outcome State Fault Refusal := .next (if s.portServes then s.resendEvent number else s)

/-- MGMT_SESSION_IDLE: 300 s without an accepted frame. -/
def execMgmtSessionIdle (s : State) : Host.Outcome State Fault Refusal :=
  .next (match s.fw.session with
  | some x => if x.idle + 300000000 ≤ s.time.beats then s.closeSession else s
  | none => s)

/-! SPDM (R520, R521). Message codes are those of DSP0274 (assumption 14). -/

/-- A measurement; the digests of records whose bytes the spec does not lay out are free values (assumption 3). -/
def State.measurement (s : State) (i : Nat) : List Byte × State :=
  match i with
  | 1 => (Config.romDigest, s)
  | 2 => (s.fw.running.digest, s)
  | 3 => (leBytes 1 s.fw.running.secver ++ leBytes 1 s.fw.floor, s)
  | 7 => (s.boundBytes, s)
  | _ =>
    let f := s.draw 512
    (leBytes 64 f.1.toNat, f.2)

/-- One measurement, or all of them for operation 0xFF; operation 0 asks for their number. -/
def State.measurements (s : State) (op : Nat) : List Byte × State :=
  if op = 0 then ([7], s)
  else if op = 0xFF then
    [1, 2, 3, 4, 5, 6, 7].foldl (fun (r : List Byte × State) i =>
      let m := r.2.measurement i
      (r.1 ++ m.1, m.2)) ([], s)
  else if op ≤ 7 then s.measurement op
  else ([], s)

/-- The stage of a connection that a request needs, and the stage it leads to. -/
def spdmStage (code : Nat) : Option (Nat × Nat) :=
  match code with
  | 0x84 => some (0, 1)
  | 0xE1 => some (1, 2)
  | 0xE3 => some (2, 3)
  | 0x81 | 0x82 | 0x83 | 0xE0 | 0xFF => some (3, 3)
  | _ => none

/-- What the answer to a request carries. -/
def State.spdmBody (s : State) (code : Nat) (body : List Byte) : List Byte × State :=
  match code with
  | 0x84 => ([0x12, 0x13], s)
  | 0x81 => (shake256 Config.certChain, s)
  | 0x82 => (Config.certChain, s)
  | 0x83 => (Config.falconSign (shake256 body), s)
  | 0xE0 =>
    let m := s.measurements (fieldAt body 1 1)
    if bitsOf (fieldAt body 0 1) 0 1 = 1 then (m.1 ++ Config.falconSign (shake256 (body ++ m.1)), m.2) else m
  | _ => ([], s)

/-- SPDM_REQUEST: answered at once; what R520 does not list, or what comes before its stage, is answered with an error. -/
def State.spdm (s : State) (t : SpdmPort) (code : Byte) (body : List Byte) : State :=
  let k := match t with | .doe => 0 | .mgmt => 1
  match spdmStage code.toNat with
  | none => s.emit (.spdm t 0x7F [7])
  | some (need, next) =>
    if SMap.get 0 s.fw.spdm k < need then s.emit (.spdm t 0x7F [4])
    else
      let r := s.spdmBody code.toNat body
      let stage := if need = 3 then SMap.get 0 s.fw.spdm k else next
      ({ r.2 with fw := { r.2.fw with spdm := SMap.set 0 r.2.fw.spdm k stage } }).emit (.spdm t (code &&& 0x7F) r.1)

def execSpdmRequest (t : SpdmPort) (code : Byte) (body : List Byte) (s : State) : Host.Outcome State Fault Refusal :=
  let serves := match t with | .doe => s.sys.valacUp && decide (0 < s.host.width) | .mgmt => s.portServes
  .next (if serves then s.spdm t code body else s)

end Sys2Proof.Machine
end

