-- ==== Sys2Proof/Machine/Startup.lean ====
section
/-!
DEFINITION. Power input, the straps, the cold start, warm reset and power cycles, firmware commits (R5, R27, R271, R272, R326 to R329,
R363, R406, R462, R509 to R518, R531 to R539, R545 to R551).
-/
namespace Sys2Proof

/-- The place of a sensor, as the logbook names it: source and unit. -/
def SensorLoc.unit : SensorLoc → Nat × Nat
  | .half h => (1, h.val / 2)
  | .hub k => (2, k.val)

end Sys2Proof

namespace Sys2Proof.Machine

/-! What a reset leaves (R534, R535). -/

/-- Cores, caches, controllers, translation, links and stewards at their Reset columns (R10); the wear of the flash, the readings of the
sensors, the PCIe configuration and the arrays that are disabled stand. -/
def State.resetBlocks (s : State) : State :=
  let cores := SMap.mapV ({} : Core) s.cores fun _ k => { ({} : Core) with arrayOff := k.arrayOff }
  let stewards := SMap.mapV ({} : Steward) s.power.stewards fun _ x => { ({} : Steward) with temps := x.temps }
  let cancel := fun (b : PageReq) => { b with cancelled := true }
  let pri := SMap.mapV ({} : PriState) s.xlat.pri fun _ p => { p with busy := p.busy.map cancel }
  let p := s.power
  let power : Power := { p with stewards := stewards, samples := [], latest := [], envelope := 0, work := 0, preramp := 0, capping := false,
                                capQueue := [], hubThrottle := [], ahead := false }
  { s with cores := cores, fab := { flash := s.fab.flash, nextReq := s.fab.nextReq }, xlat := { pri := pri, nextRow := s.xlat.nextRow },
           links := { darnMap := s.links.darnMap }, power := power, twin := { hold := s.twin.hold } }

/-- Partitions not QUIESCED. -/
def State.unquiesced (s : State) : Nat :=
  (s.work.parts.filter fun e => match e.2 with | some x => x.state != .quiesced | none => false).length

/-- A synchronous command in progress that needs more than the standby island returns NOT_READY; operations are cancelled but for an
FW_COMMIT, which runs on standby power (R515, R535). -/
def State.cancelOffMain (s : State) : State :=
  let s1 := match s.valac.cur with
    | some c => (match cmdInfo c.opcode with
      | some i => if i.standby then s else s.respond c stNotReady 0 []
      | none => s)
    | none => s
  (s1.valac.ops.filter fun o => o.cmd.opcode != 0x0801).foldl (fun (s : State) o => s.opDone o.id stNotReady true []) s1

/-- Main power goes: what R535 keeps stands, and the module is at the end of step 2. -/
def State.dropMain (s : State) : State :=
  let s1 := s.cancelOffMain.resetBlocks
  let s2 := if s1.time.source = 1 && s1.time.state = .locked then s1.merMove .holdover 1 else s1
  let s3 := if s2.committing then s2 else s2.endClaim
  let halted := s3.sys.state == 3
  { s3 with
    rects := [], store := { flash := s3.store.flash }
    work := { nextHandle := s3.work.nextHandle, nextGraph := s3.work.nextGraph }
    time := { s3.time with dies := [] }
    sys := { s3.sys with state := if halted then 3 else 0, step := if halted then s3.sys.step else 2, mainOn := false, pwrGood := false,
                         quiescing := false, powerLost := true, lcDegraded := false } }

/-- Main power goes while partitions hold work: the entry of R538 first. -/
def State.mainPowerOff (s : State) : State :=
  (s.note { code := 0x0192, severity := 0, data := leBytes 2 s.unquiesced }).dropMain

/-- A power cycle: what the configuration flash, the log's flash and Tier 3 hold stands (R508, R534). An FW_COMMIT that was running leaves
the image area invalid (R515); which check fails is not stated (assumption 3). -/
def State.unpowered (s : State) : State :=
  let f := s.draw 3
  let s1 := if s.committing then f.2 else s
  let area : Image := if s.committing then { failing := 1 + f.1.toNat % 6 } else s.fw.area
  let w := s.fw
  { pending := s.pending, free := s1.free, rd := s.rd, out := s.out
    fab := { flash := s.fab.flash }, store := { flash := s.store.flash }
    log := { flash := s.log.flash, next := s.log.next }
    time := { source := s.time.source, domain := s.time.domain }
    power := { limitM := s.power.limitM, limitC := s.power.limitC, rampM := s.power.rampM, rampC := s.power.rampC }
    twin := { hold := s.twin.hold }
    fw := { flash := area, floor := w.floor, used := w.used, pairId := w.pairId, mgmtId := w.mgmtId, darn := w.darn, patch := w.patch,
            audit := w.audit, nextAudit := w.nextAudit, partNumber := w.partNumber, serial := w.serial, grade := w.grade,
            nextSession := w.nextSession }
    sys := { pwrEn := s.sys.pwrEn } }

/-! Steps of a start (R531, R532). Durations are free values (assumption 3). -/

def State.stepDone (s : State) (n : Nat) : State :=
  let f := s.draw 64
  f.2.note { code := 0x0100 + n, severity := 0, data := leBytes 8 f.1.toNat }

/-- The start halts in state 3 at step `n`. -/
def State.stepFail (s : State) (n cause unit : Nat) : State :=
  ({ s with sys := { s.sys with step := n } }).haltOn { code := 0x0180 + n, severity := 3, cause, data := leBytes 8 unit }

/-- One of the steps 3 to 10, unless the start has halted: it fails as `fail` says, or acts and completes. -/
def State.startStep (s : State) (fail : Option (Nat × Nat × Nat)) (n : Nat) (act : State → State) : State :=
  if s.sys.state ≠ 1 then s
  else
    let s1 := { s with sys := { s.sys with step := n } }
    match fail.filter fun f => f.1 == n with
    | some f => s1.stepFail n f.2.1 f.2.2
    | none =>
      let s2 := act s1
      if s2.sys.state ≠ 1 then s2 else s2.stepDone n

/-- Arrays on the patch list start disabled (R5, R100, R101). -/
def State.applyPatch (s : State) : State := s.fw.patch.foldl (fun (s : State) c => s.updCore c fun k => { k with arrayOff := true }) s

/-- Step 4 on one bundle: the lane test of both directions, and what a loss means at a start (R326 to R329). -/
def State.testBundle (s : State) (found : List (Nat × Bool × Nat × Nat)) (b : Nat) : State :=
  if s.sys.state ≠ 1 then s
  else
    let s1 := s.setBundle b { ({} : Bundle) with trained := true }
    let s2 := (s1.laneTest b false found).laneTest b true found
    if s2.lostBy s1 b then s2.loseBundle b else s2

def State.testLanes (s : State) (bad : List BadWire) : State :=
  (List.range 21).foldl (fun (s : State) b => s.testBundle (bad.map BadWire.key) b) s

/-- Step 5 of a warm reset: a tier whose channel is retrained only by writing it is seeded, and reads zero (R537). -/
def State.seedTier (s : State) (tier : Nat) : State :=
  let of := fun (loc : Nat) => decide (2 ^ 44 ≤ loc) == (tier == 2)
  let st := { s.store with mem := s.store.mem.filter fun e => !of e.1, poison := s.store.poison.filter fun k => !of (32 * k) }
  ({ s with store := st }).warn { code := 0x0191, severity := 1, cause := tier }

/-- Step 6 (R5). -/
def State.stepPatch (s : State) : State :=
  let s1 := s.applyPatch
  { s1 with fw := { s1.fw with belowGrade := decide (s1.enabledArrays < s1.fw.grade) } }

/-- Step 7: every sector of Tier 1 and Tier 2 is zero (R278). -/
def State.stepSeed (s : State) : State := { s with store := { s.store with mem := [], poison := [] } }

/-- Step 8: die counters start from the master; beats start (R408, R535). -/
def State.stepBeats (s : State) : State :=
  { s with time := { s.time with dies := (List.range 8).foldl (fun (d : SMap Nat) i => SMap.set 0 d i s.time.master) [] } }

/-- Step 10: READY. Half-width and lost bundles are reported (R435). -/
def State.becomeReady (s : State) : State :=
  let s1 := { s with sys := { s.sys with state := 2 } }
  match (List.range 21).find? fun b => (s1.bundle b).d0.width != 0 || (s1.bundle b).d1.width != 0 with
  | some b => s1.lcCheck b
  | none => s1

/-- Steps 3 to 10. Step 7 is skipped in a warm reset. A failure of step 5 with cause 0 names a tier that R537 seeds. -/
def State.startSteps (s : State) (warm : Bool) (fail : Option (Nat × Nat × Nat)) (bad : List BadWire) : State :=
  let tier := match fail with | some (5, 0, t) => if warm && (t == 1 || t == 2) then some t else none | _ => none
  let fail1 := if tier.isSome then none else fail
  let s0 := { s with sys := { s.sys with state := 1, step := 3, mainOn := true, pwrGood := true, powerLost := false } }
  let s4 := (s0.startStep fail1 3 id).startStep fail1 4 fun s => s.testLanes bad
  let s6 := (s4.startStep fail1 5 fun s => match tier with | some t => s.seedTier t | none => s).startStep fail1 6 State.stepPatch
  let s7 := if warm then s6 else s6.startStep fail1 7 State.stepSeed
  let s10 := ((s7.startStep fail1 8 State.stepBeats).startStep fail1 9 State.startTraining).startStep fail1 10 id
  if s10.sys.state ≠ 1 then s10 else s10.becomeReady.retargetAll

/-- Main power may be enabled: PWR_EN is asserted and acted on, step 2 is complete, and nothing holds the regulators off (R531, R547,
R551). -/
def State.mayPower (s : State) : Bool :=
  s.sys.pwrEn && s.sys.valacUp && !s.fw.recovery && s.sys.state == 0 && !s.sys.tripped && !s.sys.ignored && !s.sys.cutOff

/-- Main power is enabled and steps 3 to 10 run; RESET with cause 6 when main power returns (R535). -/
def State.powerUp (s : State) (fail : Option (Nat × Nat × Nat)) (bad : List BadWire) : State :=
  if !s.mayPower then s
  else
    let s1 := if s.sys.powerLost then s.note { code := 0x0190, severity := 0, cause := 6, data := [0xFF] } else s
    s1.startSteps false fail bad

/-! A start whose tests are not given with the command: what they find is free (assumption 3). -/

/-- A free wire of a bundle. -/
def State.freeWire (s : State) : BadWire × State :=
  let b := s.draw 5
  let d := b.2.draw 1
  let g := d.2.draw 8
  let p := g.2.draw 5
  ({ bundle := ⟨b.1.toNat % 21, Nat.mod_lt _ (by decide)⟩, direction := d.1 == 1, group := ⟨g.1.toNat % 192, Nat.mod_lt _ (by decide)⟩,
     position := ⟨p.1.toNat % 17, Nat.mod_lt _ (by decide)⟩ }, p.2)

def State.freeWires (s : State) : Nat → List BadWire × State
  | 0 => ([], s)
  | n + 1 =>
    let w := s.freeWire
    let r := w.2.freeWires n
    (w.1 :: r.1, r.2)

/-- Main power is enabled, with the failing step, its cause and its unit, and the bad wires, free. -/
def State.powerUpFree (s : State) : State :=
  if !s.mayPower then s
  else
    let k := s.draw 4
    let c := k.2.draw 3
    let u := c.2.draw 64
    let n := u.2.draw 16
    let ws := n.2.freeWires n.1.toNat
    ws.2.powerUp (some (k.1.toNat, c.1.toNat, u.1.toNat)) ws.1

/-! Step 2 (R509, R510, R512, R517, R518). -/

/-- The first check of R512 that the image in flash fails. -/
def Firmware.flashFails (f : Firmware) : Nat := if f.flash.failing ≠ 0 then f.flash.failing else if f.flash.secver < f.floor then 7 else 0

/-- The recovery loader runs (R516). -/
def State.loader (s : State) (failing : Nat) : State :=
  let img := s.fw.flash
  let s1 := s.note (if failing = 1 || failing = 7 then { code := 0x0801, severity := 1, data := leBytes 4 img.version ++ leBytes 1 img.secver }
    else { code := 0x0802, severity := 1, data := leBytes 1 failing })
  { s1 with fw := { s1.fw with recovery := true }, sys := { s1.sys with state := 0, step := 2, valacUp := true } }

/-- Step 2: the image, then the PUF response, then the records, of which `record` names the one that fails. Of a failure without a cause in
R542 the cause of STEP_FAIL is free (assumption 3). -/
def State.stepTwo (s : State) (cold pufOk : Bool) (record : Option Nat) : State :=
  let s0 := { s with sys := { s.sys with state := 0, step := 2, valacUp := false } }
  let failing := s0.fw.flashFails
  if failing ≠ 0 then s0.loader failing
  else
    let s1 := { s0 with fw := { s0.fw with running := s0.fw.flash, recovery := false } }
    let s2 := if cold then s1.note { code := 0x0190, severity := 0, cause := 5, data := [0xFF] } else s1
    let f := s2.draw 3
    if !pufOk then (f.2.note { code := 0x0804, severity := 3 }).stepFail 2 (1 + f.1.toNat % 5) 0
    else match record with
    | some c =>
      let s3 := (f.2.note { code := 0x0805, severity := 3, cause := c }).stepFail 2 (1 + f.1.toNat % 5) 0
      { s3 with sys := { s3.sys with valacUp := true } }
    | none =>
      let s3 := s2.applyPatch.stepDone 2
      { s3 with links := { s3.links with darnMap := s3.fw.darn }, sys := { s3.sys with valacUp := true } }

/-- Standby power becomes good: steps 1 and 2 (R406, R531). -/
def State.coldStart (s : State) (pufOk : Bool) (record : Option Nat) : State :=
  let last := match s.log.flash.getLast? with | some e => e.time.toNat | none => 0
  let time : Meridian := { source := s.time.source, domain := s.time.domain, master := last, state := if s.time.source = 2 then .free else .unset }
  let s1 := { s with time := time, sys := { s.sys with standby := true, state := 0, step := 1 } }
  ((s1.stepDone 1).stepTwo true pufOk record).powerUpFree

/-- STANDBY_POWER_GOOD. Which record fails is not given: a free value (assumption 3). -/
def execStandbyPowerGood (pufOk recordsOk : Bool) (s : State) : Host.Outcome State Fault Refusal :=
  .next (if s.sys.standby then s
  else if recordsOk then s.coldStart pufOk none
  else
    let f := s.draw 3
    f.2.coldStart pufOk (some (1 + f.1.toNat % 5)))

/-- STANDBY_POWER_LOST. -/
def execStandbyPowerLost (s : State) : Host.Outcome State Fault Refusal := .next (if s.sys.standby then s.unpowered else s)

/-! PWR_EN (R533, R538, R550, R551). -/

/-- Every sensor reads below 90 °C. -/
def State.allCool (s : State) : Bool :=
  ((List.range 16).flatMap s.halfTemps ++ (List.range 4).flatMap s.hubTemps).all fun t => !hotAt 90 t

/-- PWR_EN_ASSERT: the steps 3 to 10 with the failing step (step, cause, unit) and the bad wires that the lane test finds. During a
quiesce that PWR_EN began, the assertion takes effect once that has ended. -/
def execPwrEnAssert (failStep : Option (Nat × Nat × Nat)) (bad : List BadWire) (s : State) : Host.Outcome State Fault Refusal :=
  .next (if s.sys.pwrEn then s
  else
    let s1 := { s with sys := { s.sys with pwrEn := true, ignored := s.sys.tripped || !s.allCool } }
    if s1.sys.quiescing then s1 else s1.powerUp failStep bad)

/-- PWR_EN_DEASSERT: with main power on, the partitions quiesce; MAIN_POWER_OFF ends it. -/
def execPwrEnDeassert (s : State) : Host.Outcome State Fault Refusal :=
  let s1 := { s with sys := { s.sys with pwrEn := false, ignored := false } }
  .next (if !s.sys.pwrEn then s
  else if !s.sys.mainOn then s1
  else ({ s1 with sys := { s1.sys with quiescing := true } }).quiesceAll)

/-- MAIN_POWER_OFF: the earlier of quiesce and 50 ms. -/
def execMainPowerOff (s : State) : Host.Outcome State Fault Refusal :=
  .next (if s.sys.quiescing then s.mainPowerOff.powerUpFree else s)

/-! The input, regulators, trips (R462, R535, R547, R551). -/

/-- The main regulators go off on the input's voltage. -/
def State.cutOff (s : State) : State :=
  let s1 := { s with sys := { s.sys with cutOff := true } }
  if !s.sys.mainOn then s1 else if s.sys.state = 2 then s1.mainPowerOff else s1.dropMain

/-- INPUT_UNDERVOLTAGE: the voltage that has stood for its time. -/
def execInputUndervoltage (mv : Nat) (s : State) : Host.Outcome State Fault Refusal :=
  let s1 := { s with sys := { s.sys with inputMv := mv } }
  .next (if !s.sys.standby || 48000 ≤ mv then s
  else if mv < 44000 then s1.cutOff
  else
    let s2 := s1.withLimits { s1.power with inputCap := some (142 * mv / 1000) }
    s2.postBoth 0x22 (leBytes 4 s2.power.limit ++ leBytes 1 0))

/-- INPUT_OVERVOLTAGE: above 62 V for more than 1 ms. -/
def execInputOvervoltage (s : State) : Host.Outcome State Fault Refusal := .next (if s.sys.standby then s.cutOff else s)

/-- INPUT_WITHIN_RANGE: 48 to 60 V for 100 ms. -/
def execInputWithinRange (s : State) : Host.Outcome State Fault Refusal :=
  let s1 := s.withLimits { s.power with inputCap := none }
  .next (if s.sys.standby then ({ s1 with sys := { s1.sys with cutOff := false, inputMv := 54000 } }).powerUpFree else s)

/-- MAIN_REGULATOR_FAULT: the regulators stay off until PWR_EN is asserted again. -/
def execMainRegulatorFault (s : State) : Host.Outcome State Fault Refusal :=
  let s1 := s.dropMain
  .next (if s.sys.mainOn then { s1 with sys := { s1.sys with ignored := s.sys.pwrEn } } else s)

/-- A sensor reaches 110 °C. -/
def State.trip (s : State) (l : SensorLoc) (sensor : Nat) (reading : Half16) : State :=
  let s1 := s.note { code := 0x0605, severity := 3, source := l.unit.1, unit := l.unit.2,
                     data := leBytes 1 sensor ++ leBytes 1 0 ++ leBytes 2 reading.toNat }
  let s2 := match l with
    | .half h => s1.setSteward h { s1.steward h with temps := SMap.set 0 (s1.steward h).temps sensor reading }
    | .hub k => { s1 with power := { s1.power with hubTemps := SMap.set 0 s1.power.hubTemps (4 * k.val + sensor % 4) reading } }
  let s3 := if s2.sys.mainOn then s2.dropMain else s2
  { s3 with sys := { s3.sys with tripped := true, ignored := s3.sys.pwrEn } }

/-- THERMAL_TRIP. -/
def execThermalTrip (l : SensorLoc) (sensor : Fin 8) (reading : BitVec 16) (s : State) : Host.Outcome State Fault Refusal :=
  .next (if s.sys.standby && hotAt 110 reading then s.trip l sensor.val reading else s)

/-- THERM_TRIP_REARM: PWR_EN deasserted for 100 ms while every sensor reads below 90 °C. -/
def execThermTripRearm (s : State) : Host.Outcome State Fault Refusal :=
  .next (if s.sys.tripped && !s.sys.pwrEn && s.allCool then { s with sys := { s.sys with tripped := false } } else s)

/-! Warm reset (R536 to R538). -/

/-- Dirty sectors and accumulators of a way go to its controller. -/
def State.drainWay (s : State) (h key : Nat) : State :=
  let l := (s.half h).line key
  let s1 := if l.dirty = 0 then s else s.writeDirty h key
  if l.accs.isEmpty then s1 else s1.reduceWriteback h key

/-- A controller serves its whole queue in order. -/
def State.drainCtrl (s : State) (m : Nat) : State :=
  let q := (s.ctrl m).queue
  q.foldl (fun (s : State) op => if op.isMend then s.mend m op else State.settle (s.serveMem m op .good))
    (s.setCtrl m { s.ctrl m with queue := [] })

/-- Memory holds every store and contribution that had reached the cache (R536 step 3). -/
def State.drainCaches (s : State) : State :=
  let s1 := (List.range 16).foldl (fun (s : State) h => ((s.half h).lines.map (·.1)).foldl (fun (s : State) k => s.drainWay h k) s) s
  (s1.fab.ctrls.map (·.1)).foldl State.drainCtrl s1

/-- A partition that a warm reset leaves: RUNNING and empty (R425, R534). -/
def Part.restarted (x : Part) : Part :=
  { x with state := .running, resize := none, op := none, destroying := false, refused := 0, overruns := 0, lastLc := 0, turn := none,
           turnFrom := none, undeliverable := [] }

/-- What a warm reset resets (R345, R513, R534). -/
def State.warmDrop (s : State) : State :=
  let s1 := s.drainCaches.resetBlocks.endClaim
  let parts := SMap.mapV (none : Option Part) s1.work.parts fun _ x => x.map Part.restarted
  let boxes := SMap.mapV ({} : Mailbox) s1.valac.mailboxes fun _ b => { ({} : Mailbox) with buffer := b.buffer }
  let p := s1.power
  let power : Power := { limitM := p.limitM, limitC := p.limitC, rampM := p.rampM, rampC := p.rampC, inputCap := p.inputCap, stewards := p.stewards,
                         hubTemps := p.hubTemps }
  let s2 := { s1 with
    rd := 0, store := { s1.store with washHours := 24 }, power := power
    work := { parts := parts, nextHandle := s1.work.nextHandle, nextGraph := s1.work.nextGraph }
    valac := { mailboxes := boxes, nextOp := s1.valac.nextOp }
    fw := { s1.fw with spdm := [], session := none, hello := none, events := [] }
    sys := { s1.sys with quiescing := false, lcDegraded := false } }
  let s3 := s2.updHost fun h => { h with vectors := [], aperture := 0, refused := false, refusedFn := 0, refusedCause := 0, refusedAddr := 0,
                                         cntRefused := 0 }
  parts.foldl (fun (s : State) e => match e.2 with | some x => s.writeMask e.1 x.mask | none => s) s3

/-- A failure of step 2 as (step, cause, unit) gives it: the PUF response for cause 0, otherwise a record. -/
def stepTwoFails (fail : Option (Nat × Nat × Nat)) : Bool × Option Nat :=
  match fail with
  | some (2, c, _) => if c = 0 then (false, none) else (true, some (1 + (c - 1) % 5))
  | _ => (true, none)

/-- The reset that follows the response of WARM_RESET. -/
def State.warmReset (s : State) (role : Nat) (fail : Option (Nat × Nat × Nat)) (bad : List BadWire) : State :=
  let r := stepTwoFails fail
  let s1 := ((s.note { code := 0x0190, severity := 0, cause := 4, data := leBytes 1 role }).warmDrop).stepTwo false r.1 r.2
  if s1.sys.state ≠ 0 || s1.fw.recovery then s1
  else if s1.sys.mainOn then s1.startSteps true fail bad
  else s1.powerUpFree

/-- WARM_RESET. -/
def execWarmReset (failStep : Option (Nat × Nat × Nat)) (bad : List BadWire) (s : State) : Host.Outcome State Fault Refusal :=
  .next (s.runThen 0x0A01 (fun c =>
    c.check 4 ([(decide (1 < c.arg 0 1), 0)] ++ c.reserved [(1, 3)])
      [(s.committing, stBusy), (c.arg 0 1 == 0 && s.unquiesced != 0, stNotQuiesced)] (.ok [] s))
    fun c s1 => s1.warmReset c.role failStep bad)

/-! FW_COMMIT (R514 to R516, R529) and flash wear (R271, R272). -/

/-- Bytes of the staged image. -/
def Firmware.stagedBytes (f : Firmware) : List Byte := SMap.getBytes f.staged 0 (stagedAt f.staged 0xC 4)

/-- The operation's end: its audit entry, OP_DONE, the end of the claim. -/
def State.endCommit (s : State) (o : Op) (status : Nat) (value : List Byte) : State :=
  ((s.audit 0x0801 o.cmd.role 0xFF status 0 (imageOf s.fw.staged 0).version value).opDone o.id status false []).endClaim

/-- The staged image is verified and programmed; `programmed` is false when the program error persisted. Status and flash offset of a program
error are not stated (assumption 3). -/
def State.commitDone (s : State) (o : Op) (programmed : Bool) : State :=
  let failing := imageCheck s.fw.staged s.fw.floor
  if failing ≠ 0 then
    s.endCommit o (if failing = 1 then stInvalid else if failing ≤ 6 then stVerify else stNotPermitted) []
  else if programmed then
    let s1 := s.endCommit o stSuccess ((shake256 s.fw.stagedBytes).take 32)
    let s2 := { s1 with fw := { s1.fw with flash := imageOf s.fw.staged 0 } }
    if s.fw.recovery then
      let p := s2.draw 1
      let r := p.2.draw 3
      (r.2.stepTwo true (p.1 == 0) (if r.1.toNat < 5 then some (1 + r.1.toNat) else none)).powerUpFree
    else s2
  else
    let st := s.draw 4
    let off := st.2.draw 32
    let c := off.2.draw 3
    let s1 := c.2.endCommit o (1 + st.1.toNat % 10) []
    ({ s1 with fw := { s1.fw with flash := { failing := 1 + c.1.toNat % 6 } } }).deviceError
      { code := 0x0803, severity := 3, data := leBytes 4 off.1.toNat }

/-- FW_COMMIT_COMPLETE. -/
def execFwCommitComplete (programmed : Bool) (s : State) : Host.Outcome State Fault Refusal :=
  .next (match s.opOf 0x0801 with
  | some o => s.commitDone o programmed
  | none => s)

/-- BAD_BLOCK_RETIRED: the flash controller's new health, `exhausted` when the channel has no spare block left. -/
def execBadBlockRetired (k : HubIdx) (channel : Fin 16) (sparePct wearPct : Byte) (exhausted : Bool) (s : State) :
    Host.Outcome State Fault Refusal :=
  let x := s.flashCtrl k
  let s1 := s.setFlashCtrl k { sparePct := sparePct.toNat, wearPct := wearPct.toNat, readOnly := x.readOnly || exhausted }
  let s2 := if x.wearPct < 90 && 90 ≤ wearPct.toNat then s1.warn { code := 0x0307, severity := 1, source := 2, unit := k.val, data := leBytes 1 k.val }
    else s1
  .next (if exhausted && !x.readOnly then
    s2.warn { code := 0x0308, severity := 1, source := 2, unit := k.val, data := leBytes 1 k.val ++ leBytes 1 channel.val }
  else s2)

end Sys2Proof.Machine
end

