-- ==== Sys2Proof/Machine/Regs.lean ====
section
/-!
DEFINITION. Register writes: REG_READ and REG_WRITE, writes of the wardens, and writes of the host to BAR0 and BAR2 (R7 to R9, R22, R65,
R66, R252, R335, R365 to R368, R369, R374, R493 to R495, R499, R563).
-/
namespace Sys2Proof.Machine

/-! Internal control space (R22, R366). -/

/-- A register of 8 B with its low or high word replaced. -/
def mergeWord (old : Nat) (high : Bool) (v : Word) : Nat :=
  if high then v.toNat * 2 ^ 32 + old % 2 ^ 32 else old / 2 ^ 32 % 2 ^ 32 * 2 ^ 32 + v.toNat

/-- CORE_CTRL: the event of highest precedence (R66). -/
def State.coreCtrlWrite (s : State) (c : Nat) (v : Word) : State :=
  if v.getLsbD 2 then s.teardownCore c true else if v.getLsbD 1 then s.updCore c Core.stop else if v.getLsbD 0 then s.startCore c else s

/-- The registers that a warden writes only in IDLE (R65). -/
def Core.configure (k : Core) (w : Nat) (v : Word) : Core :=
  if w = 0x10 then { k with partition := bitsOf v.toNat 16 8, context := bitsOf v.toNat 0 16 }
  else if w = 0x18 || w = 0x1C then { k with kernelBase := mergeWord k.kernelBase (w == 0x1C) v % 2 ^ 48 / 256 * 256 }
  else if w = 0x20 then
    { k with tilePages := bitsOf v.toNat 16 10, uniforms := bitsOf v.toNat 8 7, width := bitsOf v.toNat 6 2, regsDiv8 := bitsOf v.toNat 0 6 }
  else if w = 0x24 then { k with watchdog := v }
  else if w = 0x28 || w = 0x2C then { k with schedBase := mergeWord k.schedBase (w == 0x2C) v % 2 ^ 48 / 64 * 64 }
  else k
def idleOnly (w : Nat) : Bool := w == 0x10 || w == 0x18 || w == 0x1C || w == 0x20 || w == 0x24 || w == 0x28 || w == 0x2C

/-- MESH_SLOTS and MESH_START, which change only while run is 0 (R252). -/
def Router.configure (r : Router) (w : Nat) (v : Word) : Router :=
  if r.run then r
  else if w = 0x40C then { r with meshSlots := bitsOf v.toNat 0 11 }
  else { r with start := BitVec.ofNat 64 (mergeWord r.start.toNat (w == 0x414) v) }

/-- A word of a core control block. -/
def State.coreRegWrite (s : State) (c : CoreIdx) (w : Nat) (v : Word) : State :=
  if w = 0x08 then s.coreCtrlWrite c v
  else if idleOnly w then s.updCore c fun k => if k.mode = .idle then k.configure w v else k
  else if w = 0xF8 then s.coreCntClear c v
  else if w = 0x2F8 then s.mtxCntClear c v
  else if w = 0x4F8 then s.meshCntClear c v
  else if w = 0x6F8 then s.xlatCoreCntClear c v
  else if w = 0x400 then s.meshCtrlWrite c v
  else if w = 0x408 then s.meshFaultClear c v
  else if w = 0x40C || w = 0x410 || w = 0x414 then s.updCore c fun k => { k with router := k.router.configure w v }
  else s

/-- A word of a cache half. -/
def State.halfRegWrite (s : State) (h : HalfIdx) (w : Nat) (v : Word) : State :=
  let x := s.half h
  if w = 0x04 then s.cacheCfgWrite h v
  else if w = 0x10 then s.cacheSweepStart h (BitVec.ofNat 64 (x.sweepCtx % 2 ^ 16 * 2 ^ 32 + v.toNat))
  else if w = 0x14 then (if x.sweepBusy then s else s.setHalf h { x with sweepCtx := bitsOf v.toNat 0 16 })
  else if w = 0x20 then s.cacheErrStatusClear h v
  else if w = 0xF0 then s.setHalf h { x with filterOn := v.getLsbD 8, filterPart := bitsOf v.toNat 0 6 }
  else if w = 0xF8 then s.cacheCntClear h v
  else if hp : 0x1000 ≤ w ∧ (w - 0x1000) / 4 < 64 then s.cacheWaymaskWrite h ⟨(w - 0x1000) / 4, hp.2⟩ v
  else s

/-- A word of a memory controller. -/
def State.memcRegWrite (s : State) (m : CtrlIdx) (w : Nat) (v : Word) : State :=
  if w = 0x00 then s.setCtrl m { s.ctrl m with needleWait := bitsOf v.toNat 0 12 }
  else if w = 0x20 then s.memcErrStatusClear m v
  else if w = 0xF8 then s.memcCntClear m v
  else s

/-- A word of an ARB block. -/
def State.arbRegWrite (s : State) (p : ArbId) (w : Nat) (v : Word) : State :=
  if w = 0x004 then s.arbWaitLimitWrite p v else if w = 0x008 then s.arbHoldLimitWrite p v else if w = 0x00C then s.arbCtrlClear p v else s

/-- A word written by its warden; fields that ignore writes, and reserved offsets, are left unchanged. -/
def State.icsWordWrite (s : State) (off : Nat) (v : Word) : State :=
  match icsBlock off with
  | (.core c, w) => s.coreRegWrite c w v
  | (.half h, w) => s.halfRegWrite h w v
  | (.memc m, w) => s.memcRegWrite m w v
  | (.arb p, w) => s.arbRegWrite p w v
  | (.xlat d, w) => if w = 0xF8 then s.xlatCntClear d v else s
  | (.bnd p, w) => if w = 0xF8 then s.bndCntClear p v else s
  | (.steward h, w) => if w = 0xF8 then s.stewCntClear h v else s
  | (.spec, w) => if w = 0x1F8 then s.specCntClear v else s
  | _ => s

/-- A register of 4 B, or of 8 B with its high word first. -/
def State.icsWrite (s : State) (off size value : Nat) : State :=
  if size = 8 then (s.icsWordWrite (off + 4) (BitVec.ofNat 32 (value / 2 ^ 32))).icsWordWrite off (BitVec.ofNat 32 value)
  else s.icsWordWrite off (BitVec.ofNat 32 value)

/-! What a role reaches (R367). -/

/-- The core belongs to the rectangle of a partition, or of the one given. -/
def State.coreHeld (s : State) (c : CoreIdx) : Bool :=
  s.rects.any fun e => match e.2 with | some r => r.cores.contains c.val | none => false
def State.coreIn (s : State) (p : Option Nat) (c : CoreIdx) : Bool :=
  match p.bind s.rect with | some r => r.cores.contains c.val | none => false

/-- A sender may read the word. -/
def State.mayRead (s : State) (c : Cmd) (off : Nat) : Bool :=
  c.role != 1 || (match icsBlock off with
    | (.core k, _) => s.coreIn (s.tenantPart c) k
    | (.arb _, w) => w == 0 || w == 4 || w == 8
    | _ => false)

/-- Counter clear registers of a core control block. -/
def coreClear (w : Nat) : Bool := w == 0xF8 || w == 0x2F8 || w == 0x4F8 || w == 0x6F8

/-- A sender may write the word. -/
def State.mayWrite (s : State) (c : Cmd) (off : Nat) : Bool :=
  if c.role = 1 then (match icsBlock off with
    | (.core k, w) => coreClear w && s.coreIn (s.tenantPart c) k
    | _ => false)
  else
    let manager := c.role == 0
    match icsBlock off with
    | (.core k, w) => coreClear w || (manager && (w == 0x408 || !s.coreHeld k))
    | (.half _, w) => w == 0xF8 || (manager && (w == 0xF0 || w == 0x20))
    | (.memc _, w) => w == 0xF8 || (manager && (w == 0x00 || w == 0x20))
    | (.arb _, w) => w == 0x004 || w == 0x008 || w == 0x00C
    | (.xlat _, w) => w == 0xF8
    | (.bnd _, w) => w == 0xF8
    | (.steward _, w) => w == 0xF8
    | (.spec, w) => w == 0x1F8
    | _ => false

/-- The state of the block forbids the write (R65, R252, R335). -/
def State.writeHeld (s : State) (off : Nat) (v : Word) : Bool :=
  match icsBlock off with
  | (.core c, w) =>
    let k := s.core c
    let r := k.router
    (idleOnly w && k.mode != .idle) ||
      (r.run && (w == 0x40C || w == 0x410 || w == 0x414 ||
        (w == 0x400 && (v.getLsbD 12 != r.lc || bitsOf v.toNat 4 4 != r.edge.toNat))))
  | (.arb _, w) => (w == 0x004 || w == 0x008) && s.lcBusy
  | _ => false

/-- Words of a register. -/
def wordsOf (off size : Nat) : List Nat := if size = 8 then [off, off + 4] else [off]

/-- Arguments that REG_READ and REG_WRITE share. -/
def regBad (c : Cmd) (most : Nat) : List (Bool × Nat) :=
  let off := c.arg 0 8
  let size := c.arg 8 1
  [(decide (2 ^ 40 ≤ off) || ((size == 4 || size == 8) && off % size != 0), 0), (size != 4 && size != 8, 8),
   (c.arg 10 2 == 0 || decide (most < c.arg 10 2), 10)] ++ c.reserved [(9, 1), (12, 4)]

/-- Read `n` registers, with their side effects. -/
def State.readMany (s : State) (off size : Nat) : Nat → List Byte × State
  | 0 => ([], s)
  | n + 1 =>
    let b := leBytes size (s.icsRead off size)
    let s1 := (wordsOf off size).foldl State.readEffect s
    let r := s1.readMany (off + size) size n
    (b ++ r.1, r.2)

/-- REG_READ. -/
def execRegRead (s : State) : Host.Outcome State Fault Refusal :=
  .next (s.run 0x0900 fun c =>
    let off := c.arg 0 8
    let size := c.arg 8 1
    let n := c.arg 10 2
    let denied := (List.range n).any fun i => !(wordsOf (off + i * size) size).all (s.mayRead c)
    let r := s.readMany off size n
    c.check 16 (regBad c (if size = 8 then 508 else 1016)) [(denied, stNotPermitted)] (.ok r.1 r.2))

/-- REG_WRITE. -/
def execRegWrite (s : State) : Host.Outcome State Fault Refusal :=
  .next (s.run 0x0901 fun c =>
    let off := c.arg 0 8
    let size := c.arg 8 1
    let v := c.arg 16 8
    let word := fun (o : Nat) => BitVec.ofNat 32 (if o = off then v else v / 2 ^ 32)
    let denied := (wordsOf off size).any fun o => !s.mayWrite c o || s.writeHeld o (word o)
    c.check 24 (regBad c 1) [(denied, stNotPermitted)] (.ok [] (s.icsWrite off size v)))

/-! BAR0 and BAR2 (R493, R494, R563). -/

/-- A byte of a mailbox buffer: discarded while the state is BUSY (R341). -/
def State.bufferByte (s : State) (m off : Nat) (b : Byte) : State :=
  let x := s.mbx m
  if x.state = 1 then s else s.setMbx m { x with buffer := SMap.set 0 x.buffer off b }

/-- The mailbox whose buffer holds an offset of BAR0. -/
def bufferAt (fn off : Nat) : Option Nat :=
  if off / 0x1000 = 1 then some (if fn = 0 then 0 else fn + 1) else if fn = 0 && off / 0x1000 == 2 then some 1 else none

/-- Where the event ring control block and the MSI-X table of a function lie. -/
def evrBase (fn : Nat) : Nat := if fn = 0 then 0x10000 else 0x3000
def msixBase (fn : Nat) : Nat := if fn = 0 then 0x80000 else 0x8000

/-- EVR_BASE, a half or the whole. -/
def State.evrBaseWrite (s : State) (fn : Nat) (v : Nat) : State :=
  let r := s.ring fn
  if r.enable then s else s.setRing fn { r with base := BitVec.ofNat 64 (v / 4096 * 4096) }

/-- A write of 1 to a vector's mask bit masks it; a write of 0 sends what is pending (R499). -/
def State.maskWrite (s : State) (fn v : Nat) (mask : Bool) : State :=
  let x := s.vector fn v
  if mask then s.setVector fn v { x with masked := true }
  else
    let s1 := s.setVector fn v { x with masked := false, pending := false }
    if x.pending then s1.signal fn v else s1

/-- A word of the MSI-X table (PCIe layout). -/
def State.msixWrite (s : State) (fn off : Nat) (v : Word) : State :=
  let x := s.vector fn (off / 16)
  let w := off % 16
  if w = 12 then s.maskWrite fn (off / 16) (v.getLsbD 0)
  else if w = 8 then s.setVector fn (off / 16) { x with data := v }
  else s.setVector fn (off / 16) { x with addr := BitVec.ofNat 64 (mergeWord x.addr.toNat (w == 4) v / 4 * 4) }

/-- A 4 B write to a register of BAR0, or to half of one of 8 B. -/
def State.bar0Word (s : State) (fn off : Nat) (v : Word) : State :=
  let e := evrBase fn
  let m := msixBase fn
  let own := if fn = 0 then 0 else fn + 1
  if off = 0x100 then s.doorbell own v
  else if h : off = 0x104 ∧ own < 67 then s.mbxOverrunClear ⟨own, h.2⟩ v
  else if fn = 0 && off == 0x108 then s.doorbell 1 v
  else if fn = 0 && off == 0x10C then s.mbxOverrunClear 1 v
  else if fn = 0 && (off == 0x18 || off == 0x1C) then s.setAperture (BitVec.ofNat 64 (mergeWord s.host.aperture.toNat (off == 0x1C) v))
  else if fn = 0 && off == 0x20 then s.hstRefusedClear v
  else if off = e || off = e + 4 then s.evrBaseWrite fn (mergeWord (s.ring fn).base.toNat (off == e + 4) v)
  else if off = e + 8 then s.evrCtrlWrite fn v
  else if off = e + 12 then s.evrHeadWrite fn v
  else if m ≤ off && off < m + 16 * tableSize fn then s.msixWrite fn (off - m) v
  else s

/-- An 8 B write to a register of 8 B. -/
def State.bar0Double (s : State) (fn off : Nat) (v : DWord) : State :=
  let m := msixBase fn
  if fn = 0 && off == 0x18 then s.setAperture v
  else if off = evrBase fn then s.evrBaseWrite fn v.toNat
  else if m ≤ off && off < m + 16 * tableSize fn && (off - m) % 16 == 0 then
    s.setVector fn ((off - m) / 16) { s.vector fn ((off - m) / 16) with addr := v &&& ~~~3 }
  else s

/-- A write to BAR0: bytes of the buffers, and one whole aligned register. -/
def State.bar0Write (s : State) (fn off : Nat) (data : List Byte) : State :=
  let s1 := data.zipIdx.foldl (fun (s : State) e => match bufferAt fn (off + e.2) with
    | some m => s.bufferByte m ((off + e.2) % 0x1000) e.1
    | none => s) s
  if (bufferAt fn off).isSome then s1
  else if data.length = 4 && off % 4 == 0 then s1.bar0Word fn off (BitVec.ofNat 32 (leNat data))
  else if data.length = 8 && off % 8 == 0 then s1.bar0Double fn off (BitVec.ofNat 64 (leNat data))
  else s1

/-- The queue of a doorbell page (R374). -/
def State.pageQueue (s : State) (fn page : Nat) : Option Nat :=
  if fn = 0 then some page
  else match s.partOfFn fn with
  | some p => (s.work.queues.find? fun e => match e.2 with | some q => q.part == p && q.index == page | none => false).map (·.1)
  | none => none

/-- A write to BAR2. -/
def State.bar2Write (s : State) (fn off : Nat) (data : List Byte) : State :=
  if data.length = 4 && off % 0x1000 == 0 then
    match s.pageQueue fn (off / 0x1000) with
    | some q => s.tailWrite q (BitVec.ofNat 32 (leNat data))
    | none => s
  else s

/-- REGISTER_WRITE: a write of the host to a BAR, or of a warden to internal control space. -/
def execRegisterWrite (sp : RegSpace) (off : Nat) (data : List Byte) (s : State) : Host.Outcome State Fault Refusal :=
  if !(wfPayload data && decide (off < 2 ^ 40)) then .fault (.malformed "REGISTER_WRITE")
  else .next (match sp with
  | .ics => if (data.length = 4 || data.length = 8) && off % data.length == 0 then s.icsWrite off data.length (leNat data) else s
  | .bar0 fn => if s.fnEnabled fn && 2 ≤ s.sys.step then s.bar0Write fn off data else s
  | .bar2 fn => if s.fnEnabled fn && 2 ≤ s.sys.step then s.bar2Write fn off data else s)

end Sys2Proof.Machine
end

