-- ==== Sys2Proof/Machine/Scalar.lean ====
section
/-!
DEFINITION. Scalar integer instructions and uniform moves (R119 to R122).
-/
namespace Sys2Proof.Machine

/-- A class 0x1 instruction that writes u[d]. -/
def State.scalarOp (s : State) (i : Inst) (f : DWord → DWord → DWord) : State :=
  s.onceIssue i (scalarForm i.u (.uDst i.u.d.toNat) (i.u.mod == 0)) fun s =>
    .next (s.putU i i.u.d.toNat (f (s.uVal i i.u.a.toNat) (s.scalarB i)))

def execAdd (g : GroupRef) (u : Fields) (s : State) : Host.Outcome State Fault Refusal :=
  .next (s.scalarOp (inst g u) fun a b => a + b)

def execSub (g : GroupRef) (u : Fields) (s : State) : Host.Outcome State Fault Refusal :=
  .next (s.scalarOp (inst g u) fun a b => a - b)

def execMul (g : GroupRef) (u : Fields) (s : State) : Host.Outcome State Fault Refusal :=
  .next (s.scalarOp (inst g u) fun a b => a * b)

def execMulhiU (g : GroupRef) (u : Fields) (s : State) : Host.Outcome State Fault Refusal :=
  .next (s.scalarOp (inst g u) fun a b => mulHiU a b)

def execMulhiS (g : GroupRef) (u : Fields) (s : State) : Host.Outcome State Fault Refusal :=
  .next (s.scalarOp (inst g u) fun a b => mulHiS a b)

def execAnd (g : GroupRef) (u : Fields) (s : State) : Host.Outcome State Fault Refusal :=
  .next (s.scalarOp (inst g u) fun a b => a &&& b)

def execOr (g : GroupRef) (u : Fields) (s : State) : Host.Outcome State Fault Refusal :=
  .next (s.scalarOp (inst g u) fun a b => a ||| b)

def execXor (g : GroupRef) (u : Fields) (s : State) : Host.Outcome State Fault Refusal :=
  .next (s.scalarOp (inst g u) fun a b => a ^^^ b)

def execShl (g : GroupRef) (u : Fields) (s : State) : Host.Outcome State Fault Refusal :=
  .next (s.scalarOp (inst g u) fun a b => shiftLeft a b)

def execShr (g : GroupRef) (u : Fields) (s : State) : Host.Outcome State Fault Refusal :=
  .next (s.scalarOp (inst g u) fun a b => shiftRight a b)

def execSar (g : GroupRef) (u : Fields) (s : State) : Host.Outcome State Fault Refusal :=
  .next (s.scalarOp (inst g u) fun a b => shiftArith a b)

def execMinS (g : GroupRef) (u : Fields) (s : State) : Host.Outcome State Fault Refusal :=
  .next (s.scalarOp (inst g u) fun a b => minS a b)

def execMaxS (g : GroupRef) (u : Fields) (s : State) : Host.Outcome State Fault Refusal :=
  .next (s.scalarOp (inst g u) fun a b => maxS a b)

def execMinU (g : GroupRef) (u : Fields) (s : State) : Host.Outcome State Fault Refusal :=
  .next (s.scalarOp (inst g u) fun a b => minU a b)

def execMaxU (g : GroupRef) (u : Fields) (s : State) : Host.Outcome State Fault Refusal :=
  .next (s.scalarOp (inst g u) fun a b => maxU a b)

/-- SCMP writes p[d] of every active lane (R119). -/
def execScmp (g : GroupRef) (u : Fields) (s : State) : Host.Outcome State Fault Refusal :=
  .next (s.onceIssue (inst g u) (scalarForm u (dstP u) (u.onlyBits 0xF && decide (u.bits 0 4 ≤ 9))) fun s =>
    let i := inst g u
    let r := compareCode (u.bits 0 4) (s.uVal i u.a.toNat) (s.scalarB i)
    .next (s.putP i (s.grp i).active u.d.toNat fun _ => r))

/-! Class 0x2 (R122). -/

def movForm (u : Fields) : Form :=
  { slots := [.uDst u.d.toNat, .uSrc u.a.toNat, .zero u.b.toNat, .zero u.c.toNat], ok := u.mod == 0 && u.ext.isNone, engine := .s }

def execMov (g : GroupRef) (u : Fields) (s : State) : Host.Outcome State Fault Refusal :=
  .next (s.onceIssue (inst g u) (movForm u) fun s => .next (s.putU (inst g u) u.d.toNat (s.uVal (inst g u) u.a.toNat)))

def moviForm (u : Fields) : Form :=
  { slots := [.uDst u.d.toNat, .zero u.a.toNat, .zero u.b.toNat, .zero u.c.toNat], ok := u.ext.isNone || u.mod == 0, engine := .s }

def execMovi (g : GroupRef) (u : Fields) (s : State) : Host.Outcome State Fault Refusal :=
  .next (s.onceIssue (inst g u) (moviForm u) fun s =>
    .next (s.putU (inst g u) u.d.toNat (match u.ext with | some x => x | none => u.mod.signExtend 64)))

def t2uForm (u : Fields) (w : Nat) : Form :=
  { slots := [.uDst u.d.toNat, .t u.a.toNat 1, .zero u.b.toNat], ok := u.mod == 0 && u.ext.isNone && decide (u.c.toNat < w), engine := .s }

def execT2u (g : GroupRef) (u : Fields) (s : State) : Host.Outcome State Fault Refusal :=
  .next (s.onceIssue (inst g u) (t2uForm u (s.core g.core).W) fun s =>
    .next (s.putU (inst g u) u.d.toNat (((s.grp (inst g u)).getT u.c.toNat u.a.toNat).setWidth 64)))

end Sys2Proof.Machine
end

