-- ==== Sys2Proof/Machine/VectorFloat.lean ====
section
/-!
DEFINITION. Vector floating-point instructions (R125, R126).
-/
namespace Sys2Proof.Machine

def State.ftz (s : State) (i : Inst) : Bool := (s.core i.c).kernel.ftz

/-- A per-lane instruction on exact FP32 values; `rounds` gives it the rounding field of R125. -/
def State.floatOp (s : State) (i : Inst) (kb kc : SrcKind) (rounds : Bool) (f : Bool → FVal → FVal → FVal → FVal) : State :=
  s.issue i (vecForm i.u .any kb kc (dstT i.u) (i.u.onlyBits (if rounds then 0x7830 else 0x7800)) false) fun s =>
    let z := s.ftz i
    let rm := i.u.bits 4 2
    .next (s.putT i ((s.grp i).passing i.u) i.u.d.toNat fun l =>
      f32 z rm (f (rm == 2) (ld32 z (s.srcA i l)) (ld32 z (s.srcB i l)) (ld32 z (s.srcC i l))))

def execFadd (g : GroupRef) (u : Fields) (s : State) : Host.Outcome State Fault Refusal :=
  .next (s.floatOp (inst g u) .any .unused true fun down a b _ => FVal.add down a b)

def execFsub (g : GroupRef) (u : Fields) (s : State) : Host.Outcome State Fault Refusal :=
  .next (s.floatOp (inst g u) .any .unused true fun down a b _ => FVal.add down a b.neg)

def execFmul (g : GroupRef) (u : Fields) (s : State) : Host.Outcome State Fault Refusal :=
  .next (s.floatOp (inst g u) .any .unused true fun _ a b _ => a.mul b)

def execFmula (g : GroupRef) (u : Fields) (s : State) : Host.Outcome State Fault Refusal :=
  .next (s.floatOp (inst g u) .any .any true fun down a b c => fmaVal down a b c)

def execFmin (g : GroupRef) (u : Fields) (s : State) : Host.Outcome State Fault Refusal :=
  .next (s.floatOp (inst g u) .any .unused false fun _ a b _ => FVal.pick false a b)

def execFmax (g : GroupRef) (u : Fields) (s : State) : Host.Outcome State Fault Refusal :=
  .next (s.floatOp (inst g u) .any .unused false fun _ a b _ => FVal.pick true a b)

def execFabs (g : GroupRef) (u : Fields) (s : State) : Host.Outcome State Fault Refusal :=
  .next (s.floatOp (inst g u) .unused .unused false fun _ a _ _ => a.abs)

def execFneg (g : GroupRef) (u : Fields) (s : State) : Host.Outcome State Fault Refusal :=
  .next (s.floatOp (inst g u) .unused .unused false fun _ a _ _ => a.neg)

def execFsqrt (g : GroupRef) (u : Fields) (s : State) : Host.Outcome State Fault Refusal :=
  .next (s.floatOp (inst g u) .unused .unused false fun _ a _ _ => a.sqrt)

def execFcmp (g : GroupRef) (u : Fields) (s : State) : Host.Outcome State Fault Refusal :=
  .next (s.issue (inst g u) (vecForm u .any .any .unused (dstP u) (decide (u.opmod ≤ 7)) false) fun s =>
    let i := inst g u
    let z := s.ftz i
    .next (s.putP i ((s.grp i).passing u) u.d.toNat fun l => compareFloat u.opmod (ld32 z (s.srcA i l)) (ld32 z (s.srcB i l))))

/-- A per-lane instruction whose result is fixed only within some units in the last place: each lane takes a free value
(R126, assumption 9). -/
def State.nearOp (s : State) (i : Inst) (f : Bool → Nat → Nat → Nat) : State :=
  s.issue i (vecForm i.u .any .unused .unused (dstT i.u) (i.u.opmod == 0) false) fun s =>
    let s1 := s.putT i ((s.grp i).passing i.u) i.u.d.toNat fun l =>
      BitVec.ofNat 32 (f (s.ftz i) (s.srcA i l).toNat (Config.freeNat (s.free + l)))
    .next { s1 with free := s1.free + 64 }

def execFrcp (g : GroupRef) (u : Fields) (s : State) : Host.Outcome State Fault Refusal :=
  .next (s.nearOp (inst g u) (frecip false))

def execFrsq (g : GroupRef) (u : Fields) (s : State) : Host.Outcome State Fault Refusal :=
  .next (s.nearOp (inst g u) (frecip true))

def execFexp2 (g : GroupRef) (u : Fields) (s : State) : Host.Outcome State Fault Refusal :=
  .next (s.nearOp (inst g u) fexp2)

def execFlog2 (g : GroupRef) (u : Fields) (s : State) : Host.Outcome State Fault Refusal :=
  .next (s.nearOp (inst g u) flog2)

/-- A packed instruction: two BF16 or FP16 values per register (R125). -/
def State.packedOp (s : State) (i : Inst) (kc : SrcKind) (f : (Nat → FVal) → FVal) : State :=
  s.issue i (vecForm i.u .any .any kc (dstT i.u) (i.u.onlyBits 0x7840) false) fun s =>
    let fmt := if i.u.bit 6 then FFmt.fp16 else FFmt.bf16
    .next (s.putT i ((s.grp i).passing i.u) i.u.d.toNat fun l => packed2 fmt (s.ftz i) f [s.srcA i l, s.srcB i l, s.srcC i l])

def execPmula2 (g : GroupRef) (u : Fields) (s : State) : Host.Outcome State Fault Refusal :=
  .next (s.packedOp (inst g u) .any fun x => fmaVal false (x 0) (x 1) (x 2))

def execPadd2 (g : GroupRef) (u : Fields) (s : State) : Host.Outcome State Fault Refusal :=
  .next (s.packedOp (inst g u) .unused fun x => FVal.add false (x 0) (x 1))

def execPmul2 (g : GroupRef) (u : Fields) (s : State) : Host.Outcome State Fault Refusal :=
  .next (s.packedOp (inst g u) .unused fun x => (x 0).mul (x 1))

/-- Sum of a list in an order that free values choose: two elements are replaced by their sum until one is left. -/
def sumAnyOrder (ftz : Bool) : Nat → Nat → List Word → Word
  | 0, _, xs => xs.headD 0
  | n + 1, fr, xs =>
    match xs with
    | [] => 0
    | [x] => x
    | xs =>
      let i := Config.freeNat fr % xs.length
      let ys := xs.eraseIdx i
      let j := Config.freeNat (fr + 1) % ys.length
      sumAnyOrder ftz n (fr + 2) (ys.eraseIdx j ++ [f32 ftz 0 (FVal.add false (ld32 ftz (xs.getD i 0)) (ld32 ftz (ys.getD j 0)))])

/-- GREDF: ADD in an order that the module does not specify (R126). -/
def execGredf (g : GroupRef) (u : Fields) (s : State) : Host.Outcome State Fault Refusal :=
  .next (s.collective (inst g u) (vecForm u .tOnly .unused .unused (dstT u) (decide (u.opmod ≤ 2)) true) 4 (u.bit 11) fun s m =>
    let i := inst g u
    let z := s.ftz i
    let xs := (List.range (s.core i.c).W).map (s.contribution i m)
    let r := match u.opmod with
      | 0 => sumAnyOrder z 64 s.free xs
      | o => (xs.drop 1).foldl (fun v x => f32 z 0 (FVal.pick (o == 1) (ld32 z v) (ld32 z x))) (xs.headD 0)
    let s1 := s.putT i m u.d.toNat fun _ => r
    .next { s1 with free := s1.free + 128 })

end Sys2Proof.Machine
end

