-- ==== Sys2Proof/Machine/Dispatch.lean ====
section
/-!
DEFINITION. One arm per command of the opcode table.
-/
namespace Sys2Proof.Machine

def exec (i : Instr) (s : State) : Host.Outcome State Fault Refusal :=
  match i with
  | .bra g u => Sys2Proof.Machine.execBra g u s
  | .bri g u => Sys2Proof.Machine.execBri g u s
  | .call g u => Sys2Proof.Machine.execCall g u s
  | .ret g u => Sys2Proof.Machine.execRet g u s
  | .reconv g u => Sys2Proof.Machine.execReconv g u s
  | .exit g u => Sys2Proof.Machine.execExit g u s
  | .nop g u => Sys2Proof.Machine.execNop g u s
  | .reservedClassUnit g u unlisted => Sys2Proof.Machine.execReservedClassUnit g u unlisted s
  | .add g u => Sys2Proof.Machine.execAdd g u s
  | .sub g u => Sys2Proof.Machine.execSub g u s
  | .mul g u => Sys2Proof.Machine.execMul g u s
  | .mulhiU g u => Sys2Proof.Machine.execMulhiU g u s
  | .mulhiS g u => Sys2Proof.Machine.execMulhiS g u s
  | .and g u => Sys2Proof.Machine.execAnd g u s
  | .or g u => Sys2Proof.Machine.execOr g u s
  | .xor g u => Sys2Proof.Machine.execXor g u s
  | .shl g u => Sys2Proof.Machine.execShl g u s
  | .shr g u => Sys2Proof.Machine.execShr g u s
  | .sar g u => Sys2Proof.Machine.execSar g u s
  | .minS g u => Sys2Proof.Machine.execMinS g u s
  | .maxS g u => Sys2Proof.Machine.execMaxS g u s
  | .minU g u => Sys2Proof.Machine.execMinU g u s
  | .maxU g u => Sys2Proof.Machine.execMaxU g u s
  | .scmp g u => Sys2Proof.Machine.execScmp g u s
  | .mov g u => Sys2Proof.Machine.execMov g u s
  | .movi g u => Sys2Proof.Machine.execMovi g u s
  | .ldk g u => Sys2Proof.Machine.execLdk g u s
  | .t2u g u => Sys2Proof.Machine.execT2u g u s
  | .iadd g u => Sys2Proof.Machine.execIadd g u s
  | .isub g u => Sys2Proof.Machine.execIsub g u s
  | .imul g u => Sys2Proof.Machine.execImul g u s
  | .imulhiU g u => Sys2Proof.Machine.execImulhiU g u s
  | .imulhiS g u => Sys2Proof.Machine.execImulhiS g u s
  | .imula g u => Sys2Proof.Machine.execImula g u s
  | .vAnd g u => Sys2Proof.Machine.execVAnd g u s
  | .vOr g u => Sys2Proof.Machine.execVOr g u s
  | .vXor g u => Sys2Proof.Machine.execVXor g u s
  | .vShl g u => Sys2Proof.Machine.execVShl g u s
  | .vShr g u => Sys2Proof.Machine.execVShr g u s
  | .vSar g u => Sys2Proof.Machine.execVSar g u s
  | .iminS g u => Sys2Proof.Machine.execIminS g u s
  | .imaxS g u => Sys2Proof.Machine.execImaxS g u s
  | .iminU g u => Sys2Proof.Machine.execIminU g u s
  | .imaxU g u => Sys2Proof.Machine.execImaxU g u s
  | .icmp g u => Sys2Proof.Machine.execIcmp g u s
  | .pick g u => Sys2Proof.Machine.execPick g u s
  | .iaddP16 g u => Sys2Proof.Machine.execIaddP16 g u s
  | .isubP16 g u => Sys2Proof.Machine.execIsubP16 g u s
  | .bitcnt g u => Sys2Proof.Machine.execBitcnt g u s
  | .clz g u => Sys2Proof.Machine.execClz g u s
  | .vMov g u => Sys2Proof.Machine.execVMov g u s
  | .xlane g u => Sys2Proof.Machine.execXlane g u s
  | .bcast g u => Sys2Proof.Machine.execBcast g u s
  | .tally g u => Sys2Proof.Machine.execTally g u s
  | .gred g u => Sys2Proof.Machine.execGred g u s
  | .fadd g u => Sys2Proof.Machine.execFadd g u s
  | .fsub g u => Sys2Proof.Machine.execFsub g u s
  | .fmul g u => Sys2Proof.Machine.execFmul g u s
  | .fmula g u => Sys2Proof.Machine.execFmula g u s
  | .fmin g u => Sys2Proof.Machine.execFmin g u s
  | .fmax g u => Sys2Proof.Machine.execFmax g u s
  | .fcmp g u => Sys2Proof.Machine.execFcmp g u s
  | .fabs g u => Sys2Proof.Machine.execFabs g u s
  | .fneg g u => Sys2Proof.Machine.execFneg g u s
  | .frcp g u => Sys2Proof.Machine.execFrcp g u s
  | .fsqrt g u => Sys2Proof.Machine.execFsqrt g u s
  | .frsq g u => Sys2Proof.Machine.execFrsq g u s
  | .fexp2 g u => Sys2Proof.Machine.execFexp2 g u s
  | .flog2 g u => Sys2Proof.Machine.execFlog2 g u s
  | .pmula2 g u => Sys2Proof.Machine.execPmula2 g u s
  | .padd2 g u => Sys2Proof.Machine.execPadd2 g u s
  | .pmul2 g u => Sys2Proof.Machine.execPmul2 g u s
  | .gredf g u => Sys2Proof.Machine.execGredf g u s
  | .cvt g u => Sys2Proof.Machine.execCvt g u s
  | .cvtPk2 g u => Sys2Proof.Machine.execCvtPk2 g u s
  | .cvtIns g u => Sys2Proof.Machine.execCvtIns g u s
  | .unpk g u => Sys2Proof.Machine.execUnpk g u s
  | .ld g u => Sys2Proof.Machine.execLd g u s
  | .ldt g u => Sys2Proof.Machine.execLdt g u s
  | .st g u => Sys2Proof.Machine.execSt g u s
  | .stt g u => Sys2Proof.Machine.execStt g u s
  | .atom g u => Sys2Proof.Machine.execAtom g u s
  | .atomCas g u => Sys2Proof.Machine.execAtomCas g u s
  | .cpref g u => Sys2Proof.Machine.execCpref g u s
  | .cflush g u => Sys2Proof.Machine.execCflush g u s
  | .cinv g u => Sys2Proof.Machine.execCinv g u s
  | .cdisc g u => Sys2Proof.Machine.execCdisc g u s
  | .redAdd g u => Sys2Proof.Machine.execRedAdd g u s
  | .redMax g u => Sys2Proof.Machine.execRedMax g u s
  | .redMin g u => Sys2Proof.Machine.execRedMin g u s
  | .mloadp g u => Sys2Proof.Machine.execMloadp g u s
  | .mstream g u => Sys2Proof.Machine.execMstream g u s
  | .mdrain g u => Sys2Proof.Machine.execMdrain g u s
  | .matrixLoadStart c => Sys2Proof.Machine.execMatrixLoadStart c s
  | .matrixLoadComplete c => Sys2Proof.Machine.execMatrixLoadComplete c s
  | .matrixStreamStart c => Sys2Proof.Machine.execMatrixStreamStart c s
  | .matrixStreamComplete c => Sys2Proof.Machine.execMatrixStreamComplete c s
  | .matrixDrainComplete c => Sys2Proof.Machine.execMatrixDrainComplete c s
  | .dmaIssue g u => Sys2Proof.Machine.execDmaIssue g u s
  | .dmaCopy c i0 => Sys2Proof.Machine.execDmaCopy c i0 s
  | .dmaFill c i0 => Sys2Proof.Machine.execDmaFill c i0 s
  | .dmaPrefetch c i0 => Sys2Proof.Machine.execDmaPrefetch c i0 s
  | .dmaFlush c i0 => Sys2Proof.Machine.execDmaFlush c i0 s
  | .dmaInvalidate c i0 => Sys2Proof.Machine.execDmaInvalidate c i0 s
  | .dmaDiscard c i0 => Sys2Proof.Machine.execDmaDiscard c i0 s
  | .dmaDescriptorComplete c i0 => Sys2Proof.Machine.execDmaDescriptorComplete c i0 s
  | .fence g u => Sys2Proof.Machine.execFence g u s
  | .fenceComplete g => Sys2Proof.Machine.execFenceComplete g s
  | .barGroup g u => Sys2Proof.Machine.execBarGroup g u s
  | .barCore g u => Sys2Proof.Machine.execBarCore g u s
  | .tokSet g u => Sys2Proof.Machine.execTokSet g u s
  | .tokSetTakesEffect g e => Sys2Proof.Machine.execTokSetTakesEffect g e s
  | .tokWait g u => Sys2Proof.Machine.execTokWait g u s
  | .tokWaitRelease g e => Sys2Proof.Machine.execTokWaitRelease g e s
  | .ldres g u => Sys2Proof.Machine.execLdres g u s
  | .stcond g u => Sys2Proof.Machine.execStcond g u s
  | .msend g u => Sys2Proof.Machine.execMsend g u s
  | .mrecv g u => Sys2Proof.Machine.execMrecv g u s
  | .meshQueueWaitDone g => Sys2Proof.Machine.execMeshQueueWaitDone g s
  | .meshWaitLimit g => Sys2Proof.Machine.execMeshWaitLimit g s
  | .cntr g u => Sys2Proof.Machine.execCntr g u s
  | .merr g u => Sys2Proof.Machine.execMerr g u s
  | .rinseSet g u => Sys2Proof.Machine.execRinseSet g u s
  | .rinseClr g u => Sys2Proof.Machine.execRinseClr g u s
  | .groupEnd g => Sys2Proof.Machine.execGroupEnd g s
  | .coreStart c => Sys2Proof.Machine.execCoreStart c s
  | .coreStop c => Sys2Proof.Machine.execCoreStop c s
  | .coreTeardown c => Sys2Proof.Machine.execCoreTeardown c s
  | .coreClearComplete c => Sys2Proof.Machine.execCoreClearComplete c s
  | .coreDrainComplete c => Sys2Proof.Machine.execCoreDrainComplete c s
  | .barrierDeadlock g w => Sys2Proof.Machine.execBarrierDeadlock g w s
  | .coreCntClear c v => Sys2Proof.Machine.execCoreCntClear c v s
  | .mtxCntClear c v => Sys2Proof.Machine.execMtxCntClear c v s
  | .meshCntClear c v => Sys2Proof.Machine.execMeshCntClear c v s
  | .xlatCoreCntClear c v => Sys2Proof.Machine.execXlatCoreCntClear c v s
  | .cacheCntClear h v => Sys2Proof.Machine.execCacheCntClear h v s
  | .memcCntClear m v => Sys2Proof.Machine.execMemcCntClear m v s
  | .xlatCntClear d v => Sys2Proof.Machine.execXlatCntClear d v s
  | .bndCntClear p v => Sys2Proof.Machine.execBndCntClear p v s
  | .arbCtrlClear p v => Sys2Proof.Machine.execArbCtrlClear p v s
  | .stewCntClear h v => Sys2Proof.Machine.execStewCntClear h v s
  | .specCntClear v => Sys2Proof.Machine.execSpecCntClear v s
  | .coreStackMaxRead c => Sys2Proof.Machine.execCoreStackMaxRead c s
  | .missregHwmRead h b => Sys2Proof.Machine.execMissregHwmRead h b s
  | .evrDroppedRead fn => Sys2Proof.Machine.execEvrDroppedRead fn s
  | .cacheErrStatusClear h v => Sys2Proof.Machine.execCacheErrStatusClear h v s
  | .memcErrStatusClear m v => Sys2Proof.Machine.execMemcErrStatusClear m v s
  | .meshFaultClear c v => Sys2Proof.Machine.execMeshFaultClear c v s
  | .arbCutoffClear p r => Sys2Proof.Machine.execArbCutoffClear p r s
  | .hstRefusedClear v => Sys2Proof.Machine.execHstRefusedClear v s
  | .mbxOverrunClear m v => Sys2Proof.Machine.execMbxOverrunClear m v s
  | .registerWrite sp off data => Sys2Proof.Machine.execRegisterWrite sp off data s
  | .cacheWaymaskWrite h p v => Sys2Proof.Machine.execCacheWaymaskWrite h p v s
  | .cacheCfgWrite h v => Sys2Proof.Machine.execCacheCfgWrite h v s
  | .cacheReplicaChangeDone h => Sys2Proof.Machine.execCacheReplicaChangeDone h s
  | .cacheSweepStart h v => Sys2Proof.Machine.execCacheSweepStart h v s
  | .sweepComplete h => Sys2Proof.Machine.execSweepComplete h s
  | .meshCtrlWrite c v => Sys2Proof.Machine.execMeshCtrlWrite c v s
  | .arbWaitLimitWrite p v => Sys2Proof.Machine.execArbWaitLimitWrite p v s
  | .arbHoldLimitWrite p v => Sys2Proof.Machine.execArbHoldLimitWrite p v s
  | .writeBufferEntryRelease c i0 => Sys2Proof.Machine.execWriteBufferEntryRelease c i0 s
  | .reservationTimeout g => Sys2Proof.Machine.execReservationTimeout g s
  | .homeLoad rid e => Sys2Proof.Machine.execHomeLoad rid e s
  | .homeWrite rid => Sys2Proof.Machine.execHomeWrite rid s
  | .homeAtomic rid => Sys2Proof.Machine.execHomeAtomic rid s
  | .homeReduction rid => Sys2Proof.Machine.execHomeReduction rid s
  | .homeLdres rid => Sys2Proof.Machine.execHomeLdres rid s
  | .homeStcond rid => Sys2Proof.Machine.execHomeStcond rid s
  | .homeDeviceAccess rid => Sys2Proof.Machine.execHomeDeviceAccess rid s
  | .homeRangeLineOp rid => Sys2Proof.Machine.execHomeRangeLineOp rid s
  | .sectorsArrive line e => Sys2Proof.Machine.execSectorsArrive line e s
  | .replicaLookup rid => Sys2Proof.Machine.execReplicaLookup rid s
  | .forwardReceive rid => Sys2Proof.Machine.execForwardReceive rid s
  | .forwardMiss rid => Sys2Proof.Machine.execForwardMiss rid s
  | .replicaFillArrive d line => Sys2Proof.Machine.execReplicaFillArrive d line s
  | .replicaFillAck d line => Sys2Proof.Machine.execReplicaFillAck d line s
  | .replicaInvalidate d line => Sys2Proof.Machine.execReplicaInvalidate d line s
  | .invalidationAck d line => Sys2Proof.Machine.execInvalidationAck d line s
  | .evictionNotice d line => Sys2Proof.Machine.execEvictionNotice d line s
  | .memcRequest m e => Sys2Proof.Machine.execMemcRequest m e s
  | .menderApply m => Sys2Proof.Machine.execMenderApply m s
  | .needleRead rid => Sys2Proof.Machine.execNeedleRead rid s
  | .needleBucketIssue m bucket => Sys2Proof.Machine.execNeedleBucketIssue m bucket s
  | .flashWriteAccept rid => Sys2Proof.Machine.execFlashWriteAccept rid s
  | .flashReadComplete rid badCodewords => Sys2Proof.Machine.execFlashReadComplete rid badCodewords s
  | .washerSector h sector e => Sys2Proof.Machine.execWasherSector h sector e s
  | .repairComplete h ok => Sys2Proof.Machine.execRepairComplete h ok s
  | .meshRouterSlot c => Sys2Proof.Machine.execMeshRouterSlot c s
  | .meshStart d => Sys2Proof.Machine.execMeshStart d s
  | .crossingFlitArrive c p vc => Sys2Proof.Machine.execCrossingFlitArrive c p vc s
  | .bundleFlitReceive b dir seq crcOk ack => Sys2Proof.Machine.execBundleFlitReceive b dir seq crcOk ack s
  | .bundleNak b dir seq => Sys2Proof.Machine.execBundleNak b dir seq s
  | .bundleCredit b dir counts => Sys2Proof.Machine.execBundleCredit b dir counts s
  | .bundleReplayTimeout b dir => Sys2Proof.Machine.execBundleReplayTimeout b dir s
  | .bundleRetrain b => Sys2Proof.Machine.execBundleRetrain b s
  | .bundleRetrainDone b bad => Sys2Proof.Machine.execBundleRetrainDone b bad s
  | .bundleLost b => Sys2Proof.Machine.execBundleLost b s
  | .seamUe d => Sys2Proof.Machine.execSeamUe d s
  | .portCutoff p r => Sys2Proof.Machine.execPortCutoff p r s
  | .walkComplete row entries casOk => Sys2Proof.Machine.execWalkComplete row entries casOk s
  | .atsCompletion row ok r w u size addr => Sys2Proof.Machine.execAtsCompletion row ok r w u size addr s
  | .pageRequestSend row => Sys2Proof.Machine.execPageRequestSend row s
  | .priResponse fn prgi code => Sys2Proof.Machine.execPriResponse fn prgi code s
  | .priTimeout row => Sys2Proof.Machine.execPriTimeout row s
  | .atsInvalidateRequest fn pasid global addr size => Sys2Proof.Machine.execAtsInvalidateRequest fn pasid global addr size s
  | .atsInvalidateComplete fn => Sys2Proof.Machine.execAtsInvalidateComplete fn s
  | .targetTimeout t => Sys2Proof.Machine.execTargetTimeout t s
  | .mbxDoorbell m v => Sys2Proof.Machine.execMbxDoorbell m v s
  | .commandAccept => Sys2Proof.Machine.execCommandAccept s
  | .identify => Sys2Proof.Machine.execIdentify s
  | .getStatus => Sys2Proof.Machine.execGetStatus s
  | .echo => Sys2Proof.Machine.execEcho s
  | .partCreate => Sys2Proof.Machine.execPartCreate s
  | .partResize => Sys2Proof.Machine.execPartResize s
  | .partResizeTakesEffect p => Sys2Proof.Machine.execPartResizeTakesEffect p s
  | .partQuiesce => Sys2Proof.Machine.execPartQuiesce s
  | .partQuiesceComplete p => Sys2Proof.Machine.execPartQuiesceComplete p s
  | .partResume => Sys2Proof.Machine.execPartResume s
  | .partReset => Sys2Proof.Machine.execPartReset s
  | .partResetComplete p => Sys2Proof.Machine.execPartResetComplete p s
  | .partDestroy => Sys2Proof.Machine.execPartDestroy s
  | .partDestroyComplete p => Sys2Proof.Machine.execPartDestroyComplete p s
  | .partQuery => Sys2Proof.Machine.execPartQuery s
  | .ctxCreate => Sys2Proof.Machine.execCtxCreate s
  | .ctxDestroy => Sys2Proof.Machine.execCtxDestroy s
  | .ctxSetWatchdog => Sys2Proof.Machine.execCtxSetWatchdog s
  | .regionSet => Sys2Proof.Machine.execRegionSet s
  | .granuleTag => Sys2Proof.Machine.execGranuleTag s
  | .shareGroupSet => Sys2Proof.Machine.execShareGroupSet s
  | .formatSet => Sys2Proof.Machine.execFormatSet s
  | .pin => Sys2Proof.Machine.execPin s
  | .pinComplete => Sys2Proof.Machine.execPinComplete s
  | .unpin => Sys2Proof.Machine.execUnpin s
  | .invalidate => Sys2Proof.Machine.execInvalidate s
  | .reloadAdd => Sys2Proof.Machine.execReloadAdd s
  | .reloadRemove => Sys2Proof.Machine.execReloadRemove s
  | .flashTrim => Sys2Proof.Machine.execFlashTrim s
  | .setTimeouts => Sys2Proof.Machine.execSetTimeouts s
  | .cacheReplicaSet => Sys2Proof.Machine.execCacheReplicaSet s
  | .washPeriodSet => Sys2Proof.Machine.execWashPeriodSet s
  | .queueCreate => Sys2Proof.Machine.execQueueCreate s
  | .queueDestroy => Sys2Proof.Machine.execQueueDestroy s
  | .queueHalt => Sys2Proof.Machine.execQueueHalt s
  | .queueResume => Sys2Proof.Machine.execQueueResume s
  | .undeliverableDrain => Sys2Proof.Machine.execUndeliverableDrain s
  | .queueQuery => Sys2Proof.Machine.execQueueQuery s
  | .cringCreate => Sys2Proof.Machine.execCringCreate s
  | .kernelRegister => Sys2Proof.Machine.execKernelRegister s
  | .kernelRegisterComplete p => Sys2Proof.Machine.execKernelRegisterComplete p s
  | .kernelRelease => Sys2Proof.Machine.execKernelRelease s
  | .graphStore => Sys2Proof.Machine.execGraphStore s
  | .graphPatch => Sys2Proof.Machine.execGraphPatch s
  | .graphCheckComplete image => Sys2Proof.Machine.execGraphCheckComplete image s
  | .graphRelease => Sys2Proof.Machine.execGraphRelease s
  | .abort => Sys2Proof.Machine.execAbort s
  | .abortStopTimeout launch => Sys2Proof.Machine.execAbortStopTimeout launch s
  | .meridianSource => Sys2Proof.Machine.execMeridianSource s
  | .meridianRead => Sys2Proof.Machine.execMeridianRead s
  | .almanacQuery => Sys2Proof.Machine.execAlmanacQuery s
  | .powerLimit => Sys2Proof.Machine.execPowerLimit s
  | .rinseRamp => Sys2Proof.Machine.execRinseRamp s
  | .pstepRange => Sys2Proof.Machine.execPstepRange s
  | .powerQuery => Sys2Proof.Machine.execPowerQuery s
  | .pair => Sys2Proof.Machine.execPair s
  | .unpair => Sys2Proof.Machine.execUnpair s
  | .mirrorSet => Sys2Proof.Machine.execMirrorSet s
  | .epochClose => Sys2Proof.Machine.execEpochClose s
  | .takeoverStatus => Sys2Proof.Machine.execTakeoverStatus s
  | .fwStage => Sys2Proof.Machine.execFwStage s
  | .fwStageClaimTimeout => Sys2Proof.Machine.execFwStageClaimTimeout s
  | .fwCommit => Sys2Proof.Machine.execFwCommit s
  | .fwCommitComplete programmed => Sys2Proof.Machine.execFwCommitComplete programmed s
  | .secFloorRaise => Sys2Proof.Machine.execSecFloorRaise s
  | .pairIdSet => Sys2Proof.Machine.execPairIdSet s
  | .darnAmend => Sys2Proof.Machine.execDarnAmend s
  | .patchAmend => Sys2Proof.Machine.execPatchAmend s
  | .mgmtIdLock => Sys2Proof.Machine.execMgmtIdLock s
  | .boundQuery => Sys2Proof.Machine.execBoundQuery s
  | .auditRead => Sys2Proof.Machine.execAuditRead s
  | .regRead => Sys2Proof.Machine.execRegRead s
  | .regWrite => Sys2Proof.Machine.execRegWrite s
  | .logRead => Sys2Proof.Machine.execLogRead s
  | .telemetryRead => Sys2Proof.Machine.execTelemetryRead s
  | .arrayTest => Sys2Proof.Machine.execArrayTest s
  | .arrayTestComplete failing => Sys2Proof.Machine.execArrayTestComplete failing s
  | .warmReset failStep bad => Sys2Proof.Machine.execWarmReset failStep bad s
  | .regionSetComplete => Sys2Proof.Machine.execRegionSetComplete s
  | .granuleTagComplete => Sys2Proof.Machine.execGranuleTagComplete s
  | .flashTrimComplete => Sys2Proof.Machine.execFlashTrimComplete s
  | .evrCtrlWrite fn v => Sys2Proof.Machine.execEvrCtrlWrite fn v s
  | .evrHeadWrite fn v => Sys2Proof.Machine.execEvrHeadWrite fn v s
  | .qdbTailWrite q v => Sys2Proof.Machine.execQdbTailWrite q v s
  | .launchConsume q desc => Sys2Proof.Machine.execLaunchConsume q desc s
  | .launchStart launch => Sys2Proof.Machine.execLaunchStart launch s
  | .semaphorePoll launch word => Sys2Proof.Machine.execSemaphorePoll launch word s
  | .launchCommit launch signal record => Sys2Proof.Machine.execLaunchCommit launch signal record s
  | .completionRingRecheck q headWord => Sys2Proof.Machine.execCompletionRingRecheck q headWord s
  | .graphLayerStart launch => Sys2Proof.Machine.execGraphLayerStart launch s
  | .timeLimitExpiry launch => Sys2Proof.Machine.execTimeLimitExpiry launch s
  | .beTurnExpiry p => Sys2Proof.Machine.execBeTurnExpiry p s
  | .meridianBeat => Sys2Proof.Machine.execMeridianBeat s
  | .ptpMeasurement offset arb => Sys2Proof.Machine.execPtpMeasurement offset arb s
  | .meridianMeasurementLoss => Sys2Proof.Machine.execMeridianMeasurementLoss s
  | .meridianBeatLoss d => Sys2Proof.Machine.execMeridianBeatLoss d s
  | .transitGuard launch => Sys2Proof.Machine.execTransitGuard launch s
  | .transitStart launch => Sys2Proof.Machine.execTransitStart launch s
  | .regulatorSample watts vinMv iinMa => Sys2Proof.Machine.execRegulatorSample watts vinMv iinMa s
  | .rinseEnvelope work capacity => Sys2Proof.Machine.execRinseEnvelope work capacity s
  | .capLoop => Sys2Proof.Machine.execCapLoop s
  | .capUnitChange => Sys2Proof.Machine.execCapUnitChange s
  | .prerampLaunchStart launch => Sys2Proof.Machine.execPrerampLaunchStart launch s
  | .pstepVoltageArrived h => Sys2Proof.Machine.execPstepVoltageArrived h s
  | .droopAssert h overBudget => Sys2Proof.Machine.execDroopAssert h overBudget s
  | .droopDeassert h => Sys2Proof.Machine.execDroopDeassert h s
  | .pstepResume h delayNs => Sys2Proof.Machine.execPstepResume h delayNs s
  | .thermalSample l temps => Sys2Proof.Machine.execThermalSample l temps s
  | .throttleStep h => Sys2Proof.Machine.execThrottleStep h s
  | .thermalTrip l sensor reading => Sys2Proof.Machine.execThermalTrip l sensor reading s
  | .specFlitReceive seq crcOk ack => Sys2Proof.Machine.execSpecFlitReceive seq crcOk ack s
  | .specNak seq => Sys2Proof.Machine.execSpecNak seq s
  | .specReplayTimeout => Sys2Proof.Machine.execSpecReplayTimeout s
  | .specLaneFail lane => Sys2Proof.Machine.execSpecLaneFail lane s
  | .heartbeatSend => Sys2Proof.Machine.execHeartbeatSend s
  | .heartbeatReceive peerState peerSource offset => Sys2Proof.Machine.execHeartbeatReceive peerState peerSource offset s
  | .twinLost => Sys2Proof.Machine.execTwinLost s
  | .pairTrainingDone rate => Sys2Proof.Machine.execPairTrainingDone rate s
  | .pairTrainingRetry tenSeconds => Sys2Proof.Machine.execPairTrainingRetry tenSeconds s
  | .pairingMessage chainOk keyOk versionOk signatureOk peerAccepts secver serial => Sys2Proof.Machine.execPairingMessage chainOk keyOk versionOk signatureOk peerAccepts secver serial s
  | .unpairNotice => Sys2Proof.Machine.execUnpairNotice s
  | .windowOffer w mode lag start len => Sys2Proof.Machine.execWindowOffer w mode lag start len s
  | .epochWriteRecord w line data => Sys2Proof.Machine.execEpochWriteRecord w line data s
  | .syncWriteRecord w tag line data => Sys2Proof.Machine.execSyncWriteRecord w tag line data s
  | .syncAck tag => Sys2Proof.Machine.execSyncAck tag s
  | .epochCloseRecord w epoch => Sys2Proof.Machine.execEpochCloseRecord w epoch s
  | .epochApplied w epoch withinLag => Sys2Proof.Machine.execEpochApplied w epoch withinLag s
  | .reloadRequest tag addr => Sys2Proof.Machine.execReloadRequest tag addr s
  | .reloadData tag data => Sys2Proof.Machine.execReloadData tag data s
  | .hostConfigRequest fn w => Sys2Proof.Machine.execHostConfigRequest fn w s
  | .bar4Read fn off len => Sys2Proof.Machine.execBar4Read fn off len s
  | .bar4Write fn off data poisoned relaxed => Sys2Proof.Machine.execBar4Write fn off data poisoned relaxed s
  | .bar4AtomicOp fn off => Sys2Proof.Machine.execBar4AtomicOp fn off s
  | .hstApertureBaseWrite v => Sys2Proof.Machine.execHstApertureBaseWrite v s
  | .hostCompletion rid r => Sys2Proof.Machine.execHostCompletion rid r s
  | .vfFlr v => Sys2Proof.Machine.execVfFlr v s
  | .pfFlr => Sys2Proof.Machine.execPfFlr s
  | .hotReset => Sys2Proof.Machine.execHotReset s
  | .vfEnableClear => Sys2Proof.Machine.execVfEnableClear s
  | .hostLinkTrain rate lanes retries => Sys2Proof.Machine.execHostLinkTrain rate lanes retries s
  | .msixUnmask fn vector => Sys2Proof.Machine.execMsixUnmask fn vector s
  | .spdmRequest t code body => Sys2Proof.Machine.execSpdmRequest t code body s
  | .hello body => Sys2Proof.Machine.execHello body s
  | .prove f => Sys2Proof.Machine.execProve f s
  | .command f => Sys2Proof.Machine.execCommand f s
  | .eventAck f => Sys2Proof.Machine.execEventAck f s
  | .close f => Sys2Proof.Machine.execClose f s
  | .eventResend number => Sys2Proof.Machine.execEventResend number s
  | .mgmtSessionIdle => Sys2Proof.Machine.execMgmtSessionIdle s
  | .standbyPowerGood pufOk recordsOk => Sys2Proof.Machine.execStandbyPowerGood pufOk recordsOk s
  | .pwrEnAssert failStep bad => Sys2Proof.Machine.execPwrEnAssert failStep bad s
  | .pwrEnDeassert => Sys2Proof.Machine.execPwrEnDeassert s
  | .standbyPowerLost => Sys2Proof.Machine.execStandbyPowerLost s
  | .inputUndervoltage mv => Sys2Proof.Machine.execInputUndervoltage mv s
  | .inputOvervoltage => Sys2Proof.Machine.execInputOvervoltage s
  | .mainRegulatorFault => Sys2Proof.Machine.execMainRegulatorFault s
  | .logFlush => Sys2Proof.Machine.execLogFlush s
  | .inputWithinRange => Sys2Proof.Machine.execInputWithinRange s
  | .mainPowerOff => Sys2Proof.Machine.execMainPowerOff s
  | .thermTripRearm => Sys2Proof.Machine.execThermTripRearm s
  | .managementPortLink up => Sys2Proof.Machine.execManagementPortLink up s
  | .badBlockRetired k channel sparePct wearPct exhausted => Sys2Proof.Machine.execBadBlockRetired k channel sparePct wearPct exhausted s

end Sys2Proof.Machine
end

