-- ==== Sys2Proof/Machine/Tick.lean ====
section
/-!
DEFINITION. One core cycle: what passes in the cores and on the way to the homes when no command waits (assumption 2; R60, R61, R66, R71,
R103, R160, R212, R231, R253).
-/
namespace Sys2Proof

/-- A wait on a token counter of an engine. -/
def WaitKind.isTok : WaitKind → Bool
  | .tok _ => true
  | _ => false

end Sys2Proof

namespace Sys2Proof.Machine

/-- The open waits of a group that the watchdog counts (R60). -/
def Core.openWaits (k : Core) (slot : Nat) : List WaitKind :=
  ([WaitKind.barGroup] ++ (List.finRange 16).map WaitKind.barCore ++ [Engine.s, Engine.v, Engine.m, Engine.d].map WaitKind.tok).filter fun w =>
    (k.openWait slot w).isSome

/-- A cycle of a group: its waits, unless a descriptor of the core stalls on a page (R61), its mesh wait and its reservation. -/
def Core.groupCycle (k : Core) (stalled : Bool) (slot : Nat) : Core :=
  let g := k.group slot
  if !g.occupied then k
  else
    let ws := if k.live then k.openWaits slot else []
    let waits := if stalled then g.waits else ws.foldl (fun m w => SMap.set 0 m (waitKey w) (SMap.get 0 m (waitKey w) + 1)) g.waits
    let mesh := g.mesh.map fun w => { w with waited := w.waited + 1 }
    let resv := g.resv.map fun r => { r with age := r.age + 1 }
    let k1 := k.setGroup slot { g with waits, mesh, resv }
    let k2 := (k1.count 0x120 (bit (ws.any fun w => !w.isTok))).count 0x128 (ws.filter WaitKind.isTok).length
    match g.mesh with
    | some w => { k2 with router := { k2.router with counters := bump k2.router.counters (if w.isSend then 0x518 else 0x520) 1 } }
    | none => k2

/-- An MSTREAM waits for a plane load (MTX_CNT_WAIT_PLANE). -/
def Core.waitsPlane (k : Core) : Bool :=
  match k.mtxNext [] k.mtxQ with
  | some (earlier, e) => (match e.op with
    | .stream _ _ _ mod => earlier.any fun x => match x.op with | .load _ q _ => q == mod.getLsbD 14 | _ => false
    | _ => false)
  | none => false

/-- A cycle of a core, but for what leaves its write buffer. -/
def Core.cycle (k : Core) (stalled : Bool) : Core :=
  let k1 : Core := if k.mode = .clearing then { k with clearCount := k.clearCount + 1 } else k
  let k2 := (k1.groups.map (·.1)).foldl (fun k i => k.groupCycle stalled i) k1
  let k3 : Core := { k2 with wb := k2.wb.map fun e => { e with age := e.age + 1 } }
  if k3.live then (k3.count 0x100 1).count 0x318 (bit k3.waitsPlane) else k3

/-- A descriptor of the core stalls on a page request (R61). -/
def State.priStalled (s : State) (c : Nat) : Bool :=
  s.xlat.rows.any fun e => match e.2 with
    | some r => r.state == .waitPri && (match r.dma with | some d => d.1 == c | none => false)
    | none => false

/-- A cycle of core `c`. How many slots found no ready group follows from timing that the model leaves out: free (assumption 3). An entry of
the write buffer leaves after 4,096 cycles (R160). -/
def State.coreCycle (s : State) (c : Nat) : State :=
  let k := (s.core c).cycle (s.priStalled c)
  let s1 := s.setCore c k
  let s2 := if !k.live then s1
    else
      let f := s1.draw 3
      f.2.updCore c fun k => k.count 0x110 (Nat.min 4 f.1.toNat)
  (k.wb.filter fun e => decide (4096 ≤ e.age)).foldl (fun (s : State) e => s.leaveWb c e) s2

/-- One core cycle of the module. -/
def State.tick (s : State) : State :=
  let s1 := (s.cores.map (·.1)).foldl (fun (s : State) c => s.coreCycle c) s
  let wait := fun (r : Req) => if r.place = .home then { r with waited := r.waited + 1 } else r
  { s1 with fab := { s1.fab with reqs := s1.fab.reqs.map wait } }

end Sys2Proof.Machine
end

