-- ==== Sys2Proof/Machine/HostView.lean ====
section
/-!
DEFINITION. What the host reads in BAR0 and BAR2 (R338, R369, R374, R493, R494, R505, R506, R563): no row of the opcode table is a
read of a register by the host, so these are views of the state. The clearing of EVR_DROPPED by a read is EVR_DROPPED_READ.
-/
namespace Sys2Proof.Machine

/-- MBX_STATUS of a mailbox. -/
def State.mbxStatus (s : State) (m : Nat) : Nat :=
  let x := s.mbx m
  bit x.overrun * 2 ^ 31 + x.state % 4 * 2 ^ 24 + (s.valac.ops.filter fun o => o.cmd.mbx == m).length % 16 * 2 ^ 16 + x.lastSeq.toNat

/-- The event ring control block of a function. -/
def EventRing.word (r : EventRing) (off : Nat) : Nat :=
  if off = 0x00 then r.base.toNat % 2 ^ 32
  else if off = 0x04 then r.base.toNat / 2 ^ 32
  else if off = 0x08 then bit r.enable * 2 ^ 31 + r.vector % 2 ^ 11 * 2 ^ 16 + r.size % 32
  else if off = 0x0C then r.head % 2 ^ 16
  else if off = 0x10 then r.tail % 2 ^ 16
  else if off = 0x14 then r.dropped % 2 ^ 32
  else 0

/-- HST_REFUSED. -/
def State.hstRefused (s : State) : Nat := bit s.host.refused * 2 ^ 31 + s.host.refusedFn % 256 * 2 ^ 16 + s.host.refusedCause % 256

/-- A word of the identity and status registers of the PF. -/
def State.hstWord (s : State) (off : Nat) : Nat :=
  let half := fun (v : Nat) (base : Nat) => if off = base then v % 2 ^ 32 else v / 2 ^ 32 % 2 ^ 32
  if off = 0x00 then s.hstStatus
  else if off = 0x04 then s.hstLink
  else if off = 0x08 then s.hstIdent
  else if off = 0x10 || off = 0x14 then half s.now 0x10
  else if off = 0x18 || off = 0x1C then half s.host.aperture.toNat 0x18
  else if off = 0x20 then s.hstRefused
  else if off = 0x28 || off = 0x2C then half s.host.refusedAddr.toNat 0x28
  else if off = 0x30 || off = 0x34 then half s.host.cntRefused.toNat 0x30
  else 0

/-- A word of the MSI-X table of a function. -/
def State.msixWord (s : State) (fn off : Nat) : Nat :=
  let x := s.vector fn (off / 16)
  if off % 16 = 0 then x.addr.toNat % 2 ^ 32
  else if off % 16 = 4 then x.addr.toNat / 2 ^ 32
  else if off % 16 = 8 then x.data.toNat
  else bit x.masked

/-- A word of the pending bits of a function. -/
def State.pbaWord (s : State) (fn off : Nat) : Nat :=
  (List.range 32).foldl (fun n j => n + bit (s.vector fn (8 * off + j)).pending * 2 ^ j) 0

/-- A word of BAR0 outside the mailbox buffers; unlisted offsets read 0. -/
def State.bar0ReadWord (s : State) (fn off : Nat) : Nat :=
  let e := evrBase fn
  let m := msixBase fn
  if off < 0x100 then (if fn = 0 then s.hstWord off else if off = 0 then bitsOf s.hstStatus 0 8 else 0)
  else if off = 0x104 then s.mbxStatus (if fn = 0 then 0 else fn + 1)
  else if fn = 0 && off == 0x10C then s.mbxStatus 1
  else if e ≤ off && off < e + 0x18 then (s.ring fn).word (off - e)
  else if fn = 0 && decide (0x20000 ≤ off) && decide (off < 0x30000) then fieldAt (padTo 0x10000 s.power.telemetry) (off - 0x20000) 4
  else if m ≤ off && off < m + 16 * tableSize fn then s.msixWord fn (off - m)
  else if m + 0x10000 ≤ off && fn == 0 && decide (off < m + 0x10000 + tableSize fn / 8) then s.pbaWord fn (off - m - 0x10000)
  else if fn != 0 && decide (0x9000 ≤ off) && decide (off < 0x9000 + tableSize fn / 8) then s.pbaWord fn (off - 0x9000)
  else 0

/-- A byte of BAR0. -/
def State.bar0Read (s : State) (fn off : Nat) : Byte :=
  match bufferAt fn off with
  | some m => SMap.get 0 (s.mbx m).buffer (off % 0x1000)
  | none => BitVec.ofNat 8 (s.bar0ReadWord fn (off / 4 * 4) / 2 ^ (8 * (off % 4)))

/-- QDB_STATE, as QUEUE_QUERY codes it. -/
def Queue.stateWord (q : Queue) : Nat := q.reason % 256 * 2 ^ 8 + q.state.code

/-- A word of BAR2. -/
def State.bar2ReadWord (s : State) (fn off : Nat) : Nat :=
  match (s.pageQueue fn (off / 0x1000)).bind s.queue with
  | none => 0
  | some q =>
    let o := off % 0x1000
    if o = 0 then q.tail.toNat
    else if o = 4 then q.head.toNat
    else if o = 8 then q.retired.toNat
    else if o = 12 then q.stateWord
    else 0

end Sys2Proof.Machine
end

