-- ==== Sys2Proof/Safety.lean ====
section
/-!
DEFINITION. What counts as a safe run, and the terms the statements speak in: when an instruction executes, what a command leaves
alone, and what Valac keeps about partitions and memory.
-/
namespace Sys2Proof

open Machine

/-- A step of a safe run answers a next state. -/
def goesOn (s : State) : Prop := ∃ t, step s = .next t

end Sys2Proof

namespace Sys2Proof.Machine

/-! When an instruction executes. -/

/-- The group may issue the instruction now, it passes the checks of R107, and it is not predicated on the negation of p0. -/
def State.executes (s : State) (i : Inst) (f : Form) : Prop :=
  s.ready i = true ∧ s.scoreFree i f.slots = true ∧ (s.grp i).fenced f.access = false ∧
  s.engineHeld i f.engine = false ∧ s.defect i f = none ∧ never i.u = false

/-! Frames. -/

/-- Only core `c` may differ. -/
def State.onlyCore (s t : State) (c : Nat) : Prop :=
  { t with cores := s.cores } = s ∧ ∀ d, d ≠ c → t.core d = s.core d

/-- Only the group of the instruction may differ, and one more instruction has issued. -/
def State.onlyGroup (s t : State) (i : Inst) : Prop :=
  s.onlyCore t i.c ∧
  { t.core i.c with groups := (s.core i.c).groups, counters := (s.core i.c).counters } = s.core i.c ∧
  (∀ off, SMap.get 0 (t.core i.c).counters off = SMap.get 0 (s.core i.c).counters off + if off = 0x108 then 1 else 0) ∧
  ∀ j, j ≠ i.slot → (t.core i.c).group j = (s.core i.c).group j

/-- Group `h` with the program counter, the active mask, the reconvergence stack and the stacked paths of `g`. -/
def Group.placed (g h : Group) : Group :=
  { h with pc := g.pc, active := g.active, stack := g.stack, paths := g.paths }

/-- `h` is `g` with u[d] written. -/
def Group.writesU (g h : Group) (d : Nat) (v : DWord) : Prop :=
  g.placed h = { g with u := h.u } ∧ ∀ n, h.getU n = if n = d then v else g.getU n

/-- `h` is `g` with t[d] written in the lanes of a mask. -/
def Group.writesT (g h : Group) (m : Mask) (d : Nat) (v : Nat → Word) : Prop :=
  g.placed h = { g with t := h.t } ∧
  ∀ lane n, lane < 64 → n < 256 → h.getT lane n = if n = d ∧ m.getLsbD lane then v lane else g.getT lane n

/-- `h` is `g` with p[d] written in the lanes of a mask; a write of p0 is discarded (R40). -/
def Group.writesP (g h : Group) (m : Mask) (d : Nat) (v : Nat → Bool) : Prop :=
  g.placed h = { g with p := h.p } ∧
  ∀ lane n, lane < 64 → n < 8 →
    (h.getP n).getLsbD lane = if n = d ∧ d ≠ 0 ∧ m.getLsbD lane then v lane else (g.getP n).getLsbD lane

/-- The instruction retires: its group goes on after it, and u[d] holds `v`, unless no active lane passes (R116). -/
def State.retiresU (s t : State) (i : Inst) (v : DWord) : Prop :=
  s.onlyGroup t i ∧
  if (s.grp i).passing i.u = 0 then (s.grp i).placed (t.grp i) = s.grp i else (s.grp i).writesU (t.grp i) i.u.d.toNat v

/-- The instruction retires: t[d] holds `v` in the lanes of `m`. -/
def State.retiresT (s t : State) (i : Inst) (m : Mask) (v : Nat → Word) : Prop :=
  s.onlyGroup t i ∧ (s.grp i).writesT (t.grp i) m i.u.d.toNat v

/-- The instruction retires: p[d] holds `v` in the lanes of `m`. -/
def State.retiresP (s t : State) (i : Inst) (m : Mask) (v : Nat → Bool) : Prop :=
  s.onlyGroup t i ∧ (s.grp i).writesP (t.grp i) m i.u.d.toNat v

/-- Between `s` and `t` a request of this kind has set out. -/
def State.sent (s t : State) (p : Req → Prop) : Prop := ∃ r ∈ t.fab.reqs, s.fab.nextReq ≤ r.id ∧ p r

/-- The count of a token (R62). -/
def Group.token (g : Group) (n : Nat) : Nat := SMap.get 0 g.tokens n

/-- Only the named group may differ, and of its tokens the count of token `n`, by `d`. -/
def State.movesToken (s t : State) (g : GroupRef) (n : Nat) (d : Int) : Prop :=
  s.onlyCore t g.core ∧ (∀ j, j ≠ g.slot.val → (t.core g.core).group j = (s.core g.core).group j) ∧
  ∀ k, (((t.core g.core).group g.slot).token k : Int) = ((s.core g.core).group g.slot).token k + if k = n then d else 0

/-- Only cache half `h` may differ. -/
def State.onlyHalf (s t : State) (h : Nat) : Prop :=
  { t with fab := { t.fab with halves := s.fab.halves } } = s ∧ ∀ k, k ≠ h → t.half k = s.half k

/-- Only memory controller `m` may differ. -/
def State.onlyCtrl (s t : State) (m : Nat) : Prop :=
  { t with fab := { t.fab with ctrls := s.fab.ctrls } } = s ∧ ∀ k, k ≠ m → t.ctrl k = s.ctrl k

/-- Only arbiter `a` may differ. -/
def State.onlyArb (s t : State) (a : Nat) : Prop :=
  { t with links := { t.links with arbs := s.links.arbs } } = s ∧ ∀ k, k ≠ a → t.arb k = s.arb k

/-- Only bundle `b` may differ. -/
def State.onlyBundle (s t : State) (b : Nat) : Prop :=
  { t with links := { t.links with bundles := s.links.bundles } } = s ∧ ∀ k, k ≠ b → t.bundle k = s.bundle k

/-- No request of number `id` is left. -/
def State.gone (t : State) (id : Nat) : Prop := ∀ x ∈ t.fab.reqs, x.id ≠ id

/-! Requests at their home. -/

/-- Request `id` is `r`, stands before its home, is the next there, and passes the checks at the home (R162, R280, R474, R476). -/
def State.presents (s : State) (id : Nat) (r : Req) : Prop :=
  s.req id = some r ∧ r.place = .home ∧ r.kind = .module ∧ addrClass r.addr ≠ .tier3 ∧ s.turnOf r = true ∧ s.homeCheck r = none ∧
  s.discardsWindow r = false ∧ s.mustWaitSync r = false

/-- A presented request finds its line in a way of its home, CLEAN or DIRTY, without replicas or poison, with every sector that it needs
valid; no replica of it is made, and no mirror window holds it. -/
def State.homeHit (s : State) (id : Nat) (r : Req) (key : Nat) (l : CLine) : Prop :=
  s.presents id r ∧ s.stcondFails r = false ∧ s.ldresFull (s.homeOf r.addr) r = false ∧
  (s.half (s.homeOf r.addr)).homeWay r.addr = some key ∧ l = (s.half (s.homeOf r.addr)).line key ∧
  (l.state = .clean ∨ l.state = .dirty) ∧ r.op.needs &&& ~~~l.valid = 0 ∧ l.sharers = 0 ∧ l.poison = 0 ∧ r.replicable = false ∧
  s.winAt (lineOf r.addr) = none ∧ r.agent ≠ .mirror

/-! Commands of the mailboxes (R340 to R349). -/

/-- Command `c` is in progress, with this opcode and payload length, zero in its reserved ranges, and its response is wanted. -/
def State.doing (s : State) (c : Cmd) (opcode len : Nat) (zero : List (Nat × Nat)) : Prop :=
  s.valac.cur = some c ∧ c.discard = false ∧ c.opcode = opcode ∧ c.payload.length = len ∧ ∀ e ∈ c.reserved zero, e.1 = false

/-- `t` is `x` with command `c` answered: its mailbox is DONE and holds the response of R348, and no command is in progress. Beside that only
the events of the response differ: the rings, the messages sent, the pending bits of vectors and the counts of the management session. -/
def State.answered (x t : State) (c : Cmd) (status : Nat) (payload : List Byte) : Prop :=
  t.valac.cur = none ∧ (t.mbx c.mbx).state = 2 ∧ (t.mbx c.mbx).lastSeq = c.seq ∧
  SMap.getBytes (t.mbx c.mbx).buffer 0 (32 + payload.length) = x.responseBytes c status 0 payload ∧
  (∀ m, m ≠ c.mbx → t.mbx m = x.mbx m) ∧
  { t.valac with mailboxes := x.valac.mailboxes, rings := x.valac.rings, lastServed := x.valac.lastServed, cur := x.valac.cur } = x.valac ∧
  { t with valac := x.valac, out := x.out, host := { t.host with vectors := x.host.vectors },
           fw := { t.fw with session := x.fw.session, eventNo := x.fw.eventNo, events := x.fw.events } } = x

/-- `t` is `x` but for events: the rings, the messages sent, the pending bits of vectors and the counts of the management session. -/
def State.raised (x t : State) : Prop :=
  { t.valac with rings := x.valac.rings } = x.valac ∧
  { t with valac := x.valac, out := x.out, host := { t.host with vectors := x.host.vectors },
           fw := { t.fw with session := x.fw.session, eventNo := x.fw.eventNo, events := x.fw.events } } = x

/-- An asynchronous command is accepted: its mailbox is DONE, and operation `s.valac.nextOp` goes on with argument `arg` (R343). -/
def State.began (s t : State) (c : Cmd) (arg : Nat) : Prop :=
  t.valac.cur = none ∧ (t.mbx c.mbx).state = 2 ∧ ∃ o ∈ t.valac.ops, o.id = s.valac.nextOp ∧ o.cmd = c ∧ o.arg = arg

/-- No operation `id` is open. -/
def State.ended (t : State) (id : Nat) : Prop := ∀ o ∈ t.valac.ops, o.id ≠ id

/-- `x` without operation `id`, which has ended. -/
def State.withoutOp (x : State) (id : Nat) : State :=
  { x with valac := { x.valac with ops := x.valac.ops.filter fun o => o.id != id } }

/-! Launches (R376 to R399). -/

/-- `t` is `s` with plain launch `l` running on the cores of its rectangle, and those cores started. -/
def State.startsPlain (s t : State) (l : Launch) (late : Bool) (transit : Option Nat) : Prop :=
  ∃ (s1 : State) (x : Launch), s1.launch l.id = some x ∧ x.phase = .running ∧ x.start = s.now ∧ x.cores = s.descCores l.part l.desc ∧ x.late = late ∧
    s1.cores = s.cores ∧ s1.store = s.store ∧ t = s1.startCores l l.id l.desc transit

/-! Rectangles of partitions (R418). -/

/-- The rectangles of two partitions have no core in common. -/
def State.rectsApart (s : State) : Prop :=
  ∀ p q a b, p ≠ q → s.rect p = some a → s.rect q = some b → a.overlaps b = false

/-- The rectangle, the class, the time slice and the way mask of a PART_CREATE or PART_RESIZE are in range (R354, R418 to R420). -/
def State.rectFits (s : State) (c : Cmd) : Prop :=
  c.rect.x0 + c.rect.w ≤ 40 ∧ c.rect.y0 + c.rect.h ≤ 16 ∧ 0 < c.rect.w ∧ 0 < c.rect.h ∧ c.arg 6 1 ≤ 1 ∧
  (c.arg 8 4 = 0 ∨ 50 ≤ c.arg 8 4 ∧ c.arg 8 4 ≤ 100000) ∧ c.arg 12 2 % 2 ^ s.homeWays ≠ 0 ∧ ∀ k ∈ c.rect.cores, s.underTest k = false

/-! Memory. -/

/-- The bytes behind the controllers and in flash have their canonical form. -/
def Memory.wf (x : Store) : Bool := SMap.wf 0 x.mem && SMap.wf 0 x.flash

end Sys2Proof.Machine
end

