-- ==== Sys2Proof/Certificates/Slice0/Obligations.lean ====
section
/-!
DEFINITION. The statements for the provers.
-/
open Sys2Proof Sys2Proof.Machine

/-! The block: its queue, its reset, and what every command keeps. -/

/-- A step runs the command at the front of the queue with the queue's rest. -/
def Obligations.StepRunsFront : Prop :=
  ∀ (c : Instr) (rest : List Instr) (s : State),
    step { s with pending := c :: rest } = exec c { s with pending := rest }

/-- On an empty queue a step is one core cycle: a clearing core counts it, a running or draining core counts it in CORE_CNT_CYCLES, a
reservation ages by it, and memory stands (the model's choice, assumption 2; R66, R71, R176). -/
def Obligations.EmptyQueueTicks : Prop :=
  ∀ s : State, s.pending = [] → SMap.wf ({} : Core) s.cores = true →
    ∃ t, step s = .next t ∧ t.pending = [] ∧ t.store = s.store ∧ t.rects = s.rects ∧ t.work = s.work ∧
      ∀ c, (s.core c).wb = [] →
        ((s.core c).mode = .clearing → (t.core c).clearCount = (s.core c).clearCount + 1) ∧
        (SMap.get 0 (t.core c).counters 0x100 =
          SMap.get 0 (s.core c).counters 0x100 + if (s.core c).mode = .running ∨ (s.core c).mode = .draining then 1 else 0) ∧
        (SMap.wf ({} : Group) (s.core c).groups = true → ∀ (j : Nat) (x : Reservation), ((s.core c).group j).occupied = true →
          ((s.core c).group j).resv = some x → ((t.core c).group j).resv = some { x with age := x.age + 1 }) ∧
        (t.core c).tile = (s.core c).tile ∧ (t.core c).acc = (s.core c).acc

/-- A command that a link of the module can carry answers a next state in every state; any other stops with the fault `malformed` (the model's choice, assumption 68). -/
def Obligations.CommandsComplete : Prop :=
  ∀ (c : Instr) (s : State),
    (c.wellFormed = true → ∃ t, exec c s = .next t) ∧
    (c.wellFormed = false → ∃ m, exec c s = .fault (.malformed m))

/-- Reset: nothing is powered and nothing listed; registers at their Reset columns, limits and timeouts at their defaults; memory has
its canonical form and no two rectangles overlap (R10, R60, R277, R310, R406, R448, R495, R531, R534). -/
def Obligations.ResetState : Prop :=
  State.reset.pending = [] ∧ State.reset.sys.state = 0 ∧ State.reset.sys.step = 1 ∧ State.reset.sys.standby = false ∧
  State.reset.sys.mainOn = false ∧ State.reset.sys.tripped = false ∧ Memory.wf State.reset.store = true ∧ State.reset.rectsApart ∧
  State.reset.store.mem = [] ∧ State.reset.store.washHours = 24 ∧ State.reset.host.aperture = 0 ∧ State.reset.host.refused = false ∧
  State.reset.time.state = .unset ∧ State.reset.twin.state = .unpaired ∧ State.reset.power.limit = 6800 ∧ State.reset.power.ramp = 50 ∧
  State.reset.xlat.priTimeout = 10000 ∧ State.reset.xlat.targetTimeout = 10 ∧
  ∀ n, (State.reset.core n).mode = .idle ∧ (State.reset.core n).watchdog = 0x01000000 ∧ (State.reset.core n).counters = [] ∧
    (State.reset.mbx n).state = 0 ∧ (State.reset.ring n).enable = false ∧ (State.reset.win n).state = .off ∧
    State.reset.part n = none ∧ State.reset.queue n = none ∧ State.reset.kernel n = none ∧ State.reset.graph n = none

/-- No step makes the rectangles of two partitions overlap (R418). -/
def Obligations.RectanglesStayApart : Prop :=
  ∀ s t : State, s.rectsApart → step s = .next t → t.rectsApart

/-- Every step keeps the canonical form of the bytes behind the controllers and in flash (the form is the model's choice, assumption 8). -/
def Obligations.MemoryStaysCanonical : Prop :=
  ∀ s t : State, Memory.wf s.store = true → step s = .next t → Memory.wf t.store = true

/-- THERM_TRIP, once released, stays released through every command and every cycle but the loss of standby power and the rearm with
PWR_EN deasserted and every sensor below 90 °C; an assertion of PWR_EN while it is released, or while a sensor reads 90 °C or more,
leaves the regulators as they are, and nothing turns them on until PWR_EN is deasserted (R551). -/
def Obligations.ThermTripHolds : Prop :=
  (∀ (c : Instr) (s t : State), s.sys.tripped = true → exec c s = .next t → c ≠ .standbyPowerLost →
    (c = .thermTripRearm → s.sys.pwrEn = true ∨ s.allCool = false) → t.sys.tripped = true) ∧
  (∀ s : State, s.tick.sys = s.sys) ∧
  (∀ s : State, s.sys.tripped = true →
    (s.sys.standby = true → ∃ t, exec .standbyPowerLost s = .next t ∧ t.sys.tripped = false) ∧
    (s.sys.pwrEn = false → s.allCool = true →
      ∃ t, exec .thermTripRearm s = .next t ∧ t = { s with sys := { s.sys with tripped := false } })) ∧
  (∀ (s : State) (fail : Option (Nat × Nat × Nat)) (bad : List BadWire), s.sys.pwrEn = false → s.sys.tripped = true ∨ s.allCool = false →
    ∃ t, exec (.pwrEnAssert fail bad) s = .next t ∧ t = { s with sys := { s.sys with pwrEn := true, ignored := true } }) ∧
  ∀ (c : Instr) (s t : State), s.sys.ignored = true → s.sys.pwrEn = true → s.sys.mainOn = false → exec c s = .next t →
    c ≠ .pwrEnDeassert → c ≠ .standbyPowerLost → t.sys.ignored = true ∧ t.sys.pwrEn = true ∧ t.sys.mainOn = false

/-! Rules stated whole. -/

/-- SCMP and ICMP write the condition that their comparison code names; the codes 0xA to 0xF raise ILLEGAL_INSTRUCTION (R121). -/
def Obligations.ComparisonCodes : Prop :=
  ∀ (g : GroupRef) (u : Fields) (s : State),
    (∀ e ∈ ([(0, fun _ a b => a == b), (1, fun _ a b => a != b), (2, fun _ a b => BitVec.slt a b), (3, fun _ a b => BitVec.sle a b),
             (4, fun _ a b => BitVec.slt b a), (5, fun _ a b => BitVec.sle b a), (6, fun _ a b => BitVec.ult a b),
             (7, fun _ a b => BitVec.ule a b), (8, fun _ a b => BitVec.ult b a), (9, fun _ a b => BitVec.ule b a)]
             : List (Nat × ((w : Nat) → BitVec w → BitVec w → Bool))),
      (u.bits 0 4 = e.1 → s.executes (inst g u) (scalarForm u (.p u.d.toNat) (u.onlyBits 0xF && decide (u.bits 0 4 ≤ 9))) →
        ∃ t, exec (.scmp g u) s = .next t ∧
          s.retiresP t (inst g u) (if (s.grp (inst g u)).passing u = 0 then 0 else (s.grp (inst g u)).active)
            fun _ => e.2 64 (s.uVal (inst g u) u.a.toNat) (s.scalarB (inst g u))) ∧
      (u.opmod = e.1 → s.executes (inst g u) (vecForm u .any .any .unused (dstP u) (decide (u.opmod ≤ 9)) false) →
        ∃ t, exec (.icmp g u) s = .next t ∧
          s.retiresP t (inst g u) ((s.grp (inst g u)).passing u) fun l => e.2 32 (s.srcA (inst g u) l) (s.srcB (inst g u) l))) ∧
    (s.ready (inst g u) = true → (s.grp (inst g u)).fenced .none = false →
      ∀ e ∈ [(Instr.scmp g u, u.bits 0 4, scalarForm u (.p u.d.toNat) (u.onlyBits 0xF && decide (u.bits 0 4 ≤ 9))),
             (.icmp g u, u.opmod, vecForm u .any .any .unused (dstP u) (decide (u.opmod ≤ 9)) false)],
        s.scoreFree (inst g u) e.2.2.slots = true → s.engineHeld (inst g u) e.2.2.engine = false → 10 ≤ e.2.1 →
        ∃ t d, exec e.1 s = .next t ∧ t = (s.countIssue (inst g u)).takeFault (s.instFault (inst g u) 7 d 0 0))

/-- A divergent branch that would push a 33rd entry raises ILLEGAL_INSTRUCTION with detail 0x04 and moves no lane, and a RECONV on an empty
stack raises it with detail 0x05 (R52). -/
def Obligations.StackLimits : Prop :=
  ∀ (g : GroupRef) (u : Fields) (s : State) (x : Group), x = s.grp (inst g u) → x.passing u ≠ 0 →
    (s.executes (inst g u) (braForm u) → x.active &&& ~~~x.passing u ≠ 0 → 32 ≤ x.stack.length →
      (¬ ∃ e, x.top = some e ∧ branchTarget x.pc u = branchReconv x.pc u ∧ branchReconv x.pc u = e.addr) →
      ∃ t, exec (.bra g u) s = .next t ∧ t = (s.countIssue (inst g u)).takeFault (s.instFault (inst g u) 7 4 0 0)) ∧
    (s.executes (inst g u) (noOperands u) → x.stack = [] →
      ∃ t, exec (.reconv g u) s = .next t ∧ t = (s.countIssue (inst g u)).takeFault (s.instFault (inst g u) 7 5 0 0))

/-- When a group ends, no token count is left in its slot, whether or not the next group of the share takes it (R64). -/
def Obligations.TokensDiscarded : Prop :=
  ∀ (g : GroupRef) (s : State), s.groupDone g.core g.slot = true →
    ∃ t, exec (.groupEnd g) s = .next t ∧ ∀ n, ((t.core g.core).group g.slot).token n = 0

/-- A tail that covers at most the ring is taken over, and nothing is consumed beyond the tail; any other is discarded, and halts an active
queue with HALTED_ERROR, reason 0x02, and QUEUE_HALTED (R375). -/
def Obligations.QueueTailWrites : Prop :=
  ∀ (q : QueueIdx) (v : Word) (s : State) (x : Queue), s.queue q = some x → s.sys.state = 2 →
    ((v - x.head).toNat ≤ 2 ^ x.log2 →
      ∃ t, exec (.qdbTailWrite q v) s = .next t ∧ t = s.setQueue q (some { x with tail := v })) ∧
    (2 ^ x.log2 < (v - x.head).toNat →
      (x.state = .active → ∃ t, exec (.qdbTailWrite q v) s = .next t ∧
        t = (s.setQueue q (some { x with state := .haltedError, reason := 2 })).postPart 0x10 x.part
          (leBytes 2 q ++ leBytes 2 5 ++ leBytes 4 0 ++ leBytes 8 x.lastLaunch.toNat)) ∧
      (x.state ≠ .active → exec (.qdbTailWrite q v) s = .next s)) ∧
    ∀ desc : ReadResult, desc.len 512 = true → x.head = x.tail → exec (.launchConsume q desc) s = .next s

/-! Kernel instructions of classes 0x1 to 0x5: registers. -/

/-- A scalar integer instruction that executes writes u[d] with the result of R119 and R120, and MOV, MOVI and T2U write u[d] (R122), unless no
active lane passes; nothing else changes but the place in the program and the count of issued instructions (R116). -/
def Obligations.ScalarInstructions : Prop :=
  (∀ (g : GroupRef) (u : Fields) (s : State),
      s.executes (inst g u) (scalarForm u (.uDst u.d.toNat) (u.mod == 0)) →
      ∀ e ∈ ([(.add g u, fun a b => a + b), (.sub g u, fun a b => a - b), (.mul g u, fun a b => a * b),
              (.mulhiU g u, fun a b => (a.setWidth 128 * b.setWidth 128).extractLsb' 64 64),
              (.mulhiS g u, fun a b => (a.signExtend 128 * b.signExtend 128).extractLsb' 64 64),
              (.and g u, fun a b => a &&& b), (.or g u, fun a b => a ||| b), (.xor g u, fun a b => a ^^^ b),
              (.shl g u, fun a b => if 64 ≤ b.toNat then 0 else a <<< b.toNat),
              (.shr g u, fun a b => if 64 ≤ b.toNat then 0 else a >>> b.toNat),
              (.sar g u, fun a b => if 64 ≤ b.toNat then (if a.msb then BitVec.allOnes 64 else 0) else a.sshiftRight b.toNat),
              (.minS g u, fun a b => if a.slt b then a else b), (.maxS g u, fun a b => if a.slt b then b else a),
              (.minU g u, fun a b => if a.ult b then a else b), (.maxU g u, fun a b => if a.ult b then b else a)]
              : List (Instr × (DWord → DWord → DWord))),
      ∃ t, exec e.1 s = .next t ∧
        s.retiresU t (inst g u) (e.2 (s.uVal (inst g u) u.a.toNat) (s.scalarB (inst g u)))) ∧
  (∀ (g : GroupRef) (u : Fields) (s : State),
      (s.executes (inst g u) (movForm u) →
        ∃ t, exec (.mov g u) s = .next t ∧ s.retiresU t (inst g u) (s.uVal (inst g u) u.a.toNat)) ∧
      (s.executes (inst g u) (moviForm u) →
        ∃ t, exec (.movi g u) s = .next t ∧
          s.retiresU t (inst g u) (match u.ext with | some x => x | none => u.mod.signExtend 64)) ∧
      (s.executes (inst g u) (t2uForm u (s.core g.core).W) →
        ∃ t, exec (.t2u g u) s = .next t ∧
          s.retiresU t (inst g u) (((s.grp (inst g u)).getT u.c.toNat u.a.toNat).setWidth 64)))

/-- A vector integer instruction that executes writes t[d] of every active lane that passes with the result of R120 and R124, and
no other lane or register (R116). -/
def Obligations.VectorIntegerLanes : Prop :=
  ∀ (g : GroupRef) (u : Fields) (s : State),
    (s.executes (inst g u) (vecForm u .any .any .unused (dstT u) (u.opmod == 0) false) →
      ∀ e ∈ ([(.iadd g u, fun a b => a + b), (.isub g u, fun a b => a - b), (.imul g u, fun a b => a * b),
              (.imulhiU g u, fun a b => (a.setWidth 64 * b.setWidth 64).extractLsb' 32 32),
              (.imulhiS g u, fun a b => (a.signExtend 64 * b.signExtend 64).extractLsb' 32 32),
              (.vAnd g u, fun a b => a &&& b), (.vOr g u, fun a b => a ||| b), (.vXor g u, fun a b => a ^^^ b),
              (.vShl g u, fun a b => if 32 ≤ b.toNat then 0 else a <<< b.toNat),
              (.vShr g u, fun a b => if 32 ≤ b.toNat then 0 else a >>> b.toNat),
              (.vSar g u, fun a b => if 32 ≤ b.toNat then (if a.msb then BitVec.allOnes 32 else 0) else a.sshiftRight b.toNat),
              (.iminS g u, fun a b => if a.slt b then a else b), (.imaxS g u, fun a b => if a.slt b then b else a),
              (.iminU g u, fun a b => if a.ult b then a else b), (.imaxU g u, fun a b => if a.ult b then b else a),
              (.iaddP16 g u, fun a b => (a.extractLsb' 16 16 + b.extractLsb' 16 16) ++ (a.extractLsb' 0 16 + b.extractLsb' 0 16)),
              (.isubP16 g u, fun a b => (a.extractLsb' 16 16 - b.extractLsb' 16 16) ++ (a.extractLsb' 0 16 - b.extractLsb' 0 16))]
              : List (Instr × (Word → Word → Word))),
      ∃ t, exec e.1 s = .next t ∧
        s.retiresT t (inst g u) ((s.grp (inst g u)).passing u) fun l => e.2 (s.srcA (inst g u) l) (s.srcB (inst g u) l)) ∧
    (s.executes (inst g u) (vecForm u .any .unused .unused (dstT u) (u.opmod == 0) false) →
      ∀ e ∈ ([(.bitcnt g u, fun a => BitVec.ofNat 32 ((List.range 32).countP fun k => a.getLsbD k)),
              (.clz g u, fun a => BitVec.ofNat 32 (leadZeros a)), (.vMov g u, fun a => a)] : List (Instr × (Word → Word))),
      ∃ t, exec e.1 s = .next t ∧
        s.retiresT t (inst g u) ((s.grp (inst g u)).passing u) fun l => e.2 (s.srcA (inst g u) l)) ∧
    (s.executes (inst g u) (vecForm u .any .any .any (dstT u) (u.opmod == 0) false) →
      ∃ t, exec (.imula g u) s = .next t ∧
        s.retiresT t (inst g u) ((s.grp (inst g u)).passing u)
          fun l => s.srcA (inst g u) l * s.srcB (inst g u) l + s.srcC (inst g u) l) ∧
    (s.executes (inst g u) (vecForm u .any .any .pOnly (dstT u) (u.opmod == 0) false) →
      ∃ t, exec (.pick g u) s = .next t ∧
        s.retiresT t (inst g u) ((s.grp (inst g u)).passing u)
          fun l => if ((s.grp (inst g u)).getP u.c.toNat).getLsbD l then s.srcA (inst g u) l else s.srcB (inst g u) l)

/-- A floating-point instruction that executes writes t[d] of every active lane that passes with the exact result rounded once, and a packed one both
halves; each lane of FRCP, FRSQ, FEXP2 and FLOG2 takes a result that R126 allows, chosen by a free value (assumption 9; the zeros of FMIN and FMAX: assumption 17); FCMP writes p[d]
(R125, R126). -/
def Obligations.VectorFloat : Prop :=
  (∀ (g : GroupRef) (u : Fields) (s : State) (kb kc : SrcKind),
      (∀ rounds : Bool,
        s.executes (inst g u) (vecForm u .any kb kc (dstT u) (u.onlyBits (if rounds then 0x7830 else 0x7800)) false) →
        ∀ e ∈ ([(.fadd g u, .any, .unused, true, fun d a b _ => FVal.add d a b),
                (.fsub g u, .any, .unused, true, fun d a b _ => FVal.add d a b.neg),
                (.fmul g u, .any, .unused, true, fun _ a b _ => a.mul b),
                (.fmula g u, .any, .any, true, fun d a b c => FVal.add d (a.mul b) c),
                (.fmin g u, .any, .unused, false, fun _ a b _ => FVal.pick false a b),
                (.fmax g u, .any, .unused, false, fun _ a b _ => FVal.pick true a b),
                (.fabs g u, .unused, .unused, false, fun _ a _ _ => a.abs), (.fneg g u, .unused, .unused, false, fun _ a _ _ => a.neg),
                (.fsqrt g u, .unused, .unused, false, fun _ a _ _ => a.sqrt)]
                : List (Instr × SrcKind × SrcKind × Bool × (Bool → FVal → FVal → FVal → FVal))),
        kb = e.2.1 → kc = e.2.2.1 → rounds = e.2.2.2.1 →
        ∃ t, exec e.1 s = .next t ∧
          s.retiresT t (inst g u) ((s.grp (inst g u)).passing u) fun l =>
            f32 (s.ftz (inst g u)) (u.bits 4 2) (e.2.2.2.2 (u.bits 4 2 == 2) (ld32 (s.ftz (inst g u)) (s.srcA (inst g u) l))
              (ld32 (s.ftz (inst g u)) (s.srcB (inst g u) l)) (ld32 (s.ftz (inst g u)) (s.srcC (inst g u) l)))) ∧
      (s.executes (inst g u) (vecForm u .any .any kc (dstT u) (u.onlyBits 0x7840) false) →
        ∀ e ∈ ([(.pmula2 g u, .any, fun x => FVal.add false ((x 0).mul (x 1)) (x 2)), (.padd2 g u, .unused, fun x => FVal.add false (x 0) (x 1)),
                (.pmul2 g u, .unused, fun x => (x 0).mul (x 1))] : List (Instr × SrcKind × ((Nat → FVal) → FVal))),
        kc = e.2.1 →
        ∃ t, exec e.1 s = .next t ∧
          s.retiresT t (inst g u) ((s.grp (inst g u)).passing u) fun l =>
            packed2 (if u.bit 6 then .fp16 else .bf16) (s.ftz (inst g u)) e.2.2
              [s.srcA (inst g u) l, s.srcB (inst g u) l, s.srcC (inst g u) l])) ∧
  (∀ (g : GroupRef) (u : Fields) (s : State),
      s.executes (inst g u) (vecForm u .any .unused .unused (dstT u) (u.opmod == 0) false) →
      ∀ e ∈ ([(.frcp g u, frecip false), (.frsq g u, frecip true), (.fexp2 g u, fexp2), (.flog2 g u, flog2)]
              : List (Instr × (Bool → Nat → Nat → Nat))),
      ∃ t, exec e.1 s = .next t ∧
        s.retiresT { t with free := s.free } (inst g u) ((s.grp (inst g u)).passing u) fun l =>
          BitVec.ofNat 32 (e.2 (s.ftz (inst g u)) (s.srcA (inst g u) l).toNat (Config.freeNat (s.free + l)))) ∧
  (∀ (g : GroupRef) (u : Fields) (s : State),
      (s.executes (inst g u) (vecForm u .any .any .unused (dstP u) (decide (u.opmod ≤ 7)) false) →
        ∃ t, exec (.fcmp g u) s = .next t ∧
          s.retiresP t (inst g u) ((s.grp (inst g u)).passing u)
            fun l => compareFloat u.opmod (ld32 (s.ftz (inst g u)) (s.srcA (inst g u) l)) (ld32 (s.ftz (inst g u)) (s.srcB (inst g u) l))))

/-- CVT, CVT.PK2, CVT.INS and UNPK write t[d] of every active lane that passes (R128, R129). -/
def Obligations.ConversionLanes : Prop :=
  ∀ (g : GroupRef) (u : Fields) (s : State),
    (s.executes (inst g u) (vecForm u .any .unused .unused (dstT u) (cvtTypes u && cvtPos u == 0) false) →
      ∃ t, exec (.cvt g u) s = .next t ∧
        s.retiresT t (inst g u) ((s.grp (inst g u)).passing u) fun l => BitVec.ofNat 32 (cvtValue u (s.srcA (inst g u) l))) ∧
    (s.executes (inst g u) (vecForm u .any .any .unused (dstT u) (cvtTypes u && cvtPos u == 0 && typeBits (cvtTo u) == 16) false) →
      ∃ t, exec (.cvtPk2 g u) s = .next t ∧
        s.retiresT t (inst g u) ((s.grp (inst g u)).passing u)
          fun l => BitVec.ofNat 32 (cvtValue u (s.srcA (inst g u) l) + 2 ^ 16 * cvtValue u (s.srcB (inst g u) l))) ∧
    (s.executes (inst g u) (vecForm u .any .unused .unused (dstT u) (cvtTypes u && typeBits (cvtTo u) == 8) false) →
      ∃ t, exec (.cvtIns g u) s = .next t ∧
        s.retiresT t (inst g u) ((s.grp (inst g u)).passing u) fun l =>
          ((s.grp (inst g u)).getT l u.d.toNat &&& ~~~((0xFF : Word) <<< (8 * cvtPos u))) |||
            BitVec.ofNat 32 (cvtValue u (s.srcA (inst g u) l) * 2 ^ (8 * cvtPos u))) ∧
    (s.executes (inst g u) (vecForm u .any .unused .unused (dstT u)
        (cvtTypes u && (typeBits (cvtFrom u) == 8 || (typeBits (cvtFrom u) == 16 && decide (cvtPos u ≤ 1)))) false) →
      ∃ t, exec (.unpk g u) s = .next t ∧
        s.retiresT t (inst g u) ((s.grp (inst g u)).passing u) fun l =>
          BitVec.ofNat 32 (cvtValue u (s.srcA (inst g u) l >>> (typeBits (cvtFrom u) * cvtPos u))))

/-- A collective instruction whose mask is the live mask, or that is .PARTIAL, gives every taking lane its result, with zero for the
lanes that take no part (R55, R56, R124, R127). -/
def Obligations.Collectives : Prop :=
  ∀ (g : GroupRef) (u : Fields) (s : State) (m : Mask),
    m = (s.grp (inst g u)).passing u → (u.bit 11 = true ∨ m = (s.grp (inst g u)).live) →
    (s.executes (inst g u) (vecForm u .tOnly .any .unused (dstT u) (u.opmod == 0) true) →
      ∃ t, exec (.xlane g u) s = .next t ∧ s.retiresT t (inst g u) m fun l =>
        s.contribution (inst g u) m ((s.srcB (inst g u) l).toNat % (s.core g.core).W)) ∧
    (s.executes (inst g u) (vecForm u .tOnly .unused .unused (dstT u) (decide (u.opmod < (s.core g.core).W)) true) →
      ∃ t, exec (.bcast g u) s = .next t ∧ s.retiresT t (inst g u) m fun _ => s.contribution (inst g u) m u.opmod) ∧
    (u.opmod ≤ 1 →
      s.executes (inst g u) (vecForm u .pOnly .unused .unused (dstP u) (decide (u.opmod ≤ 2)) true) →
      ∃ t, exec (.tally g u) s = .next t ∧ s.retiresP t (inst g u) m fun _ =>
        if u.opmod = 0 then ((s.grp (inst g u)).getP u.a.toNat &&& m) != 0
        else ((s.grp (inst g u)).getP u.a.toNat &&& m) == laneMask (s.core g.core).W) ∧
    (u.opmod = 2 →
      s.executes (inst g u) (vecForm u .pOnly .unused .unused (.t u.d.toNat 2) (decide (u.opmod ≤ 2)) true) →
      ∃ t, exec (.tally g u) s = .next t ∧ s.onlyGroup t (inst g u) ∧
        (s.grp (inst g u)).placed (t.grp (inst g u)) = { s.grp (inst g u) with t := (t.grp (inst g u)).t } ∧
        ∀ lane n, lane < 64 → n < 256 → (t.grp (inst g u)).getT lane n =
          if m.getLsbD lane ∧ n = u.d.toNat then ((s.grp (inst g u)).getP u.a.toNat &&& m).setWidth 32
          else if m.getLsbD lane ∧ n = u.d.toNat + 1 then ((s.grp (inst g u)).getP u.a.toNat &&& m).extractLsb' 32 32
          else (s.grp (inst g u)).getT lane n) ∧
    (s.executes (inst g u) (vecForm u .tOnly .unused .unused (dstT u) (decide (u.opmod ≤ 6)) true) →
      ∃ t, exec (.gred g u) s = .next t ∧ s.retiresT t (inst g u) m fun _ =>
        (List.range ((s.core g.core).W - 1)).foldl (fun v l => gredOp u.opmod v (s.contribution (inst g u) m (l + 1)))
          (s.contribution (inst g u) m 0)) ∧
    (s.executes (inst g u) (vecForm u .tOnly .unused .unused (dstT u) (decide (u.opmod ≤ 2)) true) →
      ∃ t, exec (.gredf g u) s = .next t ∧ s.retiresT { t with free := s.free } (inst g u) m fun _ =>
        if u.opmod = 0 then sumAnyOrder (s.ftz (inst g u)) 64 s.free ((List.range (s.core g.core).W).map (s.contribution (inst g u) m))
        else (((List.range (s.core g.core).W).map (s.contribution (inst g u) m)).drop 1).foldl
          (fun v x => f32 (s.ftz (inst g u)) 0 (FVal.pick (u.opmod == 1) (ld32 (s.ftz (inst g u)) v) (ld32 (s.ftz (inst g u)) x)))
          (s.contribution (inst g u) m 0))

/-! Class 0x0: control, and faults. -/

/-- BRA: with no taking lane the group goes on; with every active lane taking it goes to the target; with some, the others go on, an entry for
the reconvergence address is pushed and the taking lanes wait on a stacked path, unless target and reconvergence address are those of the
innermost entry. BRI goes to an aligned address; CALL pushes the return address and goes to its target; RET and RECONV make their lanes wait at
an entry of the stack, and do nothing when no lane passes; NOP only goes on; EXIT removes its lanes from the live mask (R51 to R53, R117, R118). -/
def Obligations.ControlFlow : Prop :=
  (∀ (g : GroupRef) (u : Fields) (s : State) (x : Group) (taken fall : Mask) (target reconv : DWord),
      s.executes (inst g u) (braForm u) → x = s.grp (inst g u) → taken = x.passing u → fall = x.active &&& ~~~taken →
      target = branchTarget x.pc u → reconv = branchReconv x.pc u →
      ∃ t, exec (.bra g u) s = .next t ∧
        (taken = 0 → s.onlyGroup t (inst g u) ∧ t.grp (inst g u) = Group.settle { x with pc := x.pc + (inst g u).bytes }) ∧
        (taken ≠ 0 → fall = 0 → s.onlyGroup t (inst g u) ∧ t.grp (inst g u) = Group.settle { x with pc := target }) ∧
        (taken ≠ 0 → fall ≠ 0 → (∃ e, x.top = some e ∧ target = reconv ∧ reconv = e.addr) →
          s.onlyCore t g.core ∧ t.grp (inst g u) = Group.settle { x with pc := x.pc + (inst g u).bytes, active := fall }) ∧
        (taken ≠ 0 → fall ≠ 0 → (¬ ∃ e, x.top = some e ∧ target = reconv ∧ reconv = e.addr) → x.stack.length < 32 →
          s.onlyCore t g.core ∧ (t.core g.core).stackMax = Nat.max (s.core g.core).stackMax (x.stack.length + 1) ∧
          t.grp (inst g u) = Group.settle { x with pc := x.pc + (inst g u).bytes, active := fall, paths := (target, taken) :: x.paths,
                                                   stack := { addr := reconv, mask := x.active, isCall := false } :: x.stack })) ∧
  (∀ (g : GroupRef) (u : Fields) (s : State) (x : Group) (m : Mask), x = s.grp (inst g u) → m = x.passing u →
      (s.executes (inst g u) (briForm u) → (s.uVal (inst g u) u.a.toNat).toNat % 8 = 0 →
        ∃ t, exec (.bri g u) s = .next t ∧ s.onlyGroup t (inst g u) ∧
          t.grp (inst g u) = Group.settle { x with pc := s.uVal (inst g u) u.a.toNat }) ∧
      (s.executes (inst g u) (callForm u) → x.stack.length < 32 →
        ∃ t, exec (.call g u) s = .next t ∧ s.onlyCore t g.core ∧
          (t.core g.core).stackMax = Nat.max (s.core g.core).stackMax (x.stack.length + 1) ∧
          t.grp (inst g u) = Group.settle { x with
            pc := branchTarget x.pc u,
            stack := { addr := x.pc + (inst g u).bytes, mask := x.active, isCall := true } :: x.stack }) ∧
      (s.executes (inst g u) (noOperands u) →
        (∃ t, exec (.nop g u) s = .next t ∧ s.onlyGroup t (inst g u) ∧
          t.grp (inst g u) = Group.settle { x with pc := x.pc + 8 }) ∧
        (∃ t, exec (.ret g u) s = .next t ∧
          (m = 0 → s.onlyGroup t (inst g u) ∧ t.grp (inst g u) = Group.settle { x with pc := x.pc + 8 }) ∧
          (m ≠ 0 → (∃ e ∈ x.stack, e.isCall = true ∧ e.mask &&& m ≠ 0) → s.onlyGroup t (inst g u) ∧
            t.grp (inst g u) = Group.settle { x with pc := x.pc + 8, active := x.active &&& ~~~m, stack := returnFrom m x.stack })) ∧
        (∃ t, exec (.reconv g u) s = .next t ∧
          (m = 0 → s.onlyGroup t (inst g u) ∧ t.grp (inst g u) = Group.settle { x with pc := x.pc + 8 }) ∧
          (m ≠ 0 → x.top ≠ none → s.onlyGroup t (inst g u) ∧
            t.grp (inst g u) = Group.settle { x with pc := x.pc + 8, active := x.active &&& ~~~m })))) ∧
  (∀ (g : GroupRef) (u : Fields) (s : State), s.executes (inst g u) (noOperands u) →
      ∃ t, exec (.exit g u) s = .next t ∧ s.onlyCore t g.core ∧
        (t.grp (inst g u)).live = (s.grp (inst g u)).live &&& ~~~(s.grp (inst g u)).passing u ∧
        (∀ j, ((t.core g.core).group j).t = ((s.core g.core).group j).t ∧ ((t.core g.core).group j).u = ((s.core g.core).group j).u ∧
          ((t.core g.core).group j).p = ((s.core g.core).group j).p ∧
          (j ≠ g.slot.val → ((t.core g.core).group j).live = ((s.core g.core).group j).live)))

/-- A unit of class 0xF, or one fetched outside the code section, raises ILLEGAL_INSTRUCTION with detail 0x01, one whose op its class does not list
with detail 0x02; a wait of MSEND or MRECV that reaches CORE_BAR_WATCHDOG raises SCHEDULE_FAULT with cause 0x0A, any other wait
BARRIER_DEADLOCK; a fault of a core whose context is already gone stops that core alone, with its fault registers set (R60, R66, R67, R70,
R105 to R107, R231, R233). -/
def Obligations.Traps : Prop :=
  (∀ (g : GroupRef) (u : Fields) (unlisted : Bool) (s : State), s.ready (inst g u) = true →
      exec (.reservedClassUnit g u unlisted) s = .next ((s.countIssue (inst g u)).takeFault
        { core := g.core, ctx := (s.core g.core).context, part := (s.core g.core).partition,
          site := (s.grp (inst g u)).site g.slot (s.core g.core), kind := 0x07, detail := if unlisted then 2 else 1, cause := 0, addr := 0 })) ∧
  (∀ (g : GroupRef) (s : State) (k : Core), k = s.core g.core → k.live = true →
      (∀ w : MeshWait, (k.group g.slot).mesh = some w → k.watchLimit ≤ w.waited →
        exec (.meshWaitLimit g) s = .next (s.meshFault g.core w.site w.stream 4 0x0A)) ∧
      (∀ (w : WaitKind) (detail : Nat) (pc : DWord), k.watchLimit ≤ SMap.get 0 (k.group g.slot).waits (waitKey w) →
        k.openWait g.slot w = some (detail, pc) →
        exec (.barrierDeadlock g w) s = .next (s.takeFault
          { core := g.core, ctx := k.context, part := k.partition, kind := 0x06, detail := detail, cause := 0, addr := 0,
            site := { (k.group g.slot).site g.slot k with pc := pc &&& 0xFFFFFFF8 } }))) ∧
  (∀ (s : State) (f : FaultRep), (s.core f.core).mode = .running ∨ (s.core f.core).mode = .draining → s.ctxById f.ctx = none →
      ∀ c, (s.takeFault f).core c =
        if c = f.core then { s.core c with
          mode := .faulted, mtxQ := [], dmaQ := [],
          fault := { valid := true, more := false, group := f.site.slot, detail := f.detail, kind := f.kind, pc := f.site.pc,
                     active := f.site.active, live := f.site.live } }
        else s.core c)

/-! Classes 0x6 to 0x9 and LDK: memory. -/

/-- LDT reads each passing lane's element from tile memory into its registers, extended as R131 says, and changes no byte of tile
memory; STT leaves in each byte of tile memory the one its highest storing lane stores there, or the old one (R44, R46, R130). -/
def Obligations.TileLoadsAndStores : Prop :=
  ∀ (g : GroupRef) (u : Fields) (s : State) (m : Mask) (n : Nat), m = (s.grp (inst g u)).passing u → n = 2 ^ u.bits 12 3 →
    (∀ l ∈ lanesOf m, s.laneTile (inst g u) l % n = 0 ∧ s.laneTile (inst g u) l < (s.core g.core).T) →
    (s.executes (inst g u) (ldtForm u) → u.d.toNat + sizeRegs (u.bits 12 3) ≤ 256 →
      ∃ t, exec (.ldt g u) s = .next t ∧ s.onlyCore t g.core ∧ (t.core g.core).tile = (s.core g.core).tile ∧
        (∀ j, j ≠ g.slot.val → (t.core g.core).group j = (s.core g.core).group j) ∧
        (s.grp (inst g u)).placed (t.grp (inst g u)) = { s.grp (inst g u) with t := (t.grp (inst g u)).t } ∧
        ∀ lane k, lane < 64 → k < 256 → (t.grp (inst g u)).getT lane k =
          if m.getLsbD lane ∧ u.d.toNat ≤ k ∧ k < u.d.toNat + sizeRegs (u.bits 12 3) then
            let v := gather (fun o => SMap.get 0 (s.core g.core).tile o) (s.laneTile (inst g u) lane) n
            if u.bit 11 then BitVec.ofInt 32 (signedOf (8 * n) v) else BitVec.ofNat 32 (v / 2 ^ (32 * (k - u.d.toNat)))
          else (s.grp (inst g u)).getT lane k) ∧
    (s.executes (inst g u) (sttForm u) →
      ∃ t, exec (.stt g u) s = .next t ∧ s.onlyCore t g.core ∧
        (∀ j, j ≠ g.slot.val → (t.core g.core).group j = (s.core g.core).group j) ∧
        (s.grp (inst g u)).placed (t.grp (inst g u)) = s.grp (inst g u) ∧
        ∀ a, SMap.get 0 (t.core g.core).tile a =
          match (lanesOf m).reverse.find? fun l => s.laneTile (inst g u) l ≤ a && a < s.laneTile (inst g u) l + n with
          | some l => (s.storeBytes (inst g u) (u.bits 12 3) l).getD (a - s.laneTile (inst g u) l) 0
          | none => SMap.get 0 (s.core g.core).tile a)

/-- An LD whose lines pass the checks of R562 sends a request for every line that is Device, that does not pass through the read-only L1, or that
the L1 does not hold; for one line that the L1 holds it sends none. LDRES and STCOND send one request; LDK reads the L1 or sends a request for the
line of the constant pool. Memory does not change (R43, R49, R122, R131, R139, R175). -/
def Obligations.Loads : Prop :=
  (∀ (g : GroupRef) (u : Fields) (s s1 : State) (as : List LineAcc),
      s.executes (inst g u) (ldForm u) →
      s.accesses (inst g u) .load (2 ^ u.bits 12 3) ((s.grp (inst g u)).passing u) = (.inr as, s1) →
      ∃ t, exec (.ld g u) s = .next t ∧ t.store = s.store ∧
        (∀ a ∈ as, a.target.type = .device ∨ (u.bit 10 = false ∧ a.target.type ≠ .replicable) →
          s.sent t fun r => r.agent = .vec g.core g.slot ∧ r.addr = a.target.addr ∧ r.kind = a.target.kind ∧
            ∃ fwd, r.op = .load u.d.toNat (u.bits 12 3) (u.bit 11) false a.lanes fwd) ∧
        (∀ a ∈ as, a.target.type ≠ .device → (u.bit 10 = true ∨ a.target.type = .replicable) →
          (∀ y ∈ (s.core g.core).l1, y.line ≠ l1Key a.target.kind a.target.addr) →
          s.sent t fun r => r.agent = .vec g.core g.slot ∧ r.addr = a.target.addr ∧ r.kind = a.target.kind ∧
            ∃ fwd, r.op = .load u.d.toNat (u.bits 12 3) (u.bit 11) true a.lanes fwd) ∧
        ∀ a, as = [a] → a.target.type ≠ .device → (u.bit 10 = true ∨ a.target.type = .replicable) →
          (∃ y ∈ (s.core g.core).l1, y.line = l1Key a.target.kind a.target.addr) → t.fab = s.fab) ∧
  (∀ (g : GroupRef) (u : Fields) (s s1 : State) (x : Target) (off : Nat), (s.grp (inst g u)).passing u ≠ 0 →
      (s.executes (inst g u) (ldresForm u) → s.uniformAccess (inst g u) .ldres (u.bits 12 3) = (.inr (x, off), s1) →
        ∃ t, exec (.ldres g u) s = .next t ∧ t.store = s.store ∧
          s.sent t fun r => r.agent = .vec g.core g.slot ∧ r.addr = x.addr ∧
            ∃ granule, r.op = .ldres (u.bits 12 3) u.d.toNat off granule) ∧
      (s.executes (inst g u) (stcondForm u) → s.uniformAccess (inst g u) .stcond (u.bits 12 3) = (.inr (x, off), s1) →
        ∃ t, exec (.stcond g u) s = .next t ∧ t.store = s.store ∧
          s.sent t fun r => r.agent = .vec g.core g.slot ∧ r.addr = x.addr ∧
            r.op = .stcond (u.bits 12 3) off u.d.toNat (s.uVal (inst g u) u.c.toNat)) ∧
      (∀ k pa : Nat, s.executes (inst g u) (ldkForm u) →
        k = (s.uVal (inst g u) u.a.toNat + 8 * u.mod.signExtend 64).toNat → k % 8 = 0 → k < (s.core g.core).kernel.poolBytes →
        pa = (s.core g.core).kernelBase + (s.core g.core).kernel.poolOff + k →
        ∃ t, exec (.ldk g u) s = .next t ∧ t.store = s.store ∧
          match (s.core g.core).l1.find? fun y => y.line == lineOf pa with
          | some y => (s.grp (inst g u)).writesU (t.grp (inst g u)) u.d.toNat
              (BitVec.ofNat 64 (gather (fun o => y.bytes.getD o 0) (pa % 128) 8))
          | none => s.sent t fun r => r.agent = .ldk g.core g.slot ∧ r.addr = lineOf pa ∧ r.op = .ldk u.d.toNat (pa % 128)))

/-- An ST whose lines pass the checks of R562 sends a Device line to its home, and leaves another in the write buffer of its core; a buffered store
that leaves its core becomes a request for its line with the bytes stored; a reservation ends 2^16 core cycles after its LDRES (R44, R160,
R161, R176). -/
def Obligations.StoresAndReservations : Prop :=
  (∀ (g : GroupRef) (u : Fields) (s s1 : State) (as : List LineAcc) (a : LineAcc),
      s.executes (inst g u) (stForm u) →
      s.accesses (inst g u) .store (2 ^ u.bits 12 3) ((s.grp (inst g u)).passing u) = (.inr (as ++ [a]), s1) →
      (s.deviceQueue g.core).length < 16 →
      ∃ t, exec (.st g u) s = .next t ∧ t.store = s.store ∧
        (a.target.type = .device →
          s.sent t fun r => r.agent = .vec g.core g.slot ∧ r.addr = a.target.addr ∧ r.kind = a.target.kind ∧
            r.op = .write (s.laneStores (inst g u) (u.bits 12 3) a)) ∧
        (a.target.type ≠ .device →
          ∃ e ∈ (t.core g.core).wb, e.line = a.target.addr ∧ e.kind = a.target.kind ∧
            ∀ b ∈ s.laneStores (inst g u) (u.bits 12 3) a, SMap.get none e.bytes b.1 = some b.2)) ∧
  ((∀ (s : State) (c : CoreIdx) (i : Fin 32) (e : WbEntry), (s.core c).wb[i.val]? = some e →
      ∃ t, exec (.writeBufferEntryRelease c i) s = .next t ∧ t.store = s.store ∧ (t.core c).wb = (s.core c).wb.filter (· != e) ∧
        s.sent t fun r => r.addr = e.line ∧ r.kind = e.kind ∧ r.part = e.part ∧ r.ctx = e.ctx ∧
          r.op = .write (e.bytes.filterMap fun b => b.2.map fun v => (b.1, v))) ∧
    (∀ (s : State) (g : GroupRef) (x : Reservation), ((s.core g.core).group g.slot).resv = some x → 65536 ≤ x.age →
      ∃ t, exec (.reservationTimeout g) s = .next t ∧ s.onlyCore t g.core ∧
        (t.core g.core).group g.slot = { (s.core g.core).group g.slot with resv := none } ∧
        ∀ j, j ≠ g.slot.val → (t.core g.core).group j = (s.core g.core).group j))

/-- ATOM, ATOM.CAS and the reductions send, for every line of module memory that passes the checks of R562, one request with each
lane's operand, or with the combined elements; memory does not change yet (R45, R132, R134). -/
def Obligations.AtomicsSendRequests : Prop :=
  ∀ (g : GroupRef) (u : Fields) (s s1 : State) (as : List LineAcc) (m : Mask), m = (s.grp (inst g u)).passing u →
    (∀ (cas : Bool) (aop : Nat), aop = (if cas then 0 else u.bits 4 4) →
      s.executes (inst g u) (if cas then atomCasForm u else atomForm u) →
      s.accesses (inst g u) (.atomic (u.bits 12 3 == 3 && (cas || aop == 0))) (2 ^ u.bits 12 3) m = (.inr as, s1) →
      ∃ t, exec (if cas then .atomCas g u else .atom g u) s = .next t ∧ t.store = s.store ∧
        ∀ a ∈ as, a.target.kind = .module →
          s.sent t fun r => r.agent = .vec g.core g.slot ∧ r.addr = a.target.addr ∧ r.kind = .module ∧
            r.op = .atomic cas aop (u.bits 12 3) u.d.toNat (a.lanes.map fun l => (l.1, l.2,
              BitVec.ofNat 64 ((s.grp (inst g u)).regsVal l.1 u.c.toNat (sizeRegs (u.bits 12 3))),
              BitVec.ofNat 64 (if cas then (s.grp (inst g u)).regsVal l.1 u.d.toNat (sizeRegs (u.bits 12 3)) else 0)))) ∧
    (∀ e ∈ [(Instr.redAdd g u, RedOp.add), (.redMax g u, .max), (.redMin g u, .min)],
      s.executes (inst g u) (redForm u e.2) → (u.bit 11 = true ∨ m = (s.grp (inst g u)).live) →
      s.accesses (inst g u) .reduce (redSize (redTypeOf (u.bits 4 2))) m = (.inr as, s1) →
      ∃ t, exec e.1 s = .next t ∧ t.store = s.store ∧
        ∀ a ∈ as,
          s.sent t fun r => r.agent = .vec g.core g.slot ∧ r.addr = a.target.addr ∧ r.kind = a.target.kind ∧
            r.op = .reduce e.2 (redTypeOf (u.bits 4 2)) (s.redElems (inst g u) e.2 (redTypeOf (u.bits 4 2)) a))

/-- CFLUSH, CINV and CDISC whose lines pass the checks of R562 send one line operation for every line of module memory in the range; CPREF
does so for a line that it may fetch; a length of zero does nothing (R133, R214, R215). -/
def Obligations.CacheOperationsSendRequests : Prop :=
  ∀ (g : GroupRef) (u : Fields) (s s1 : State) (a n : Nat),
    a = (s.uVal (inst g u) u.a.toNat).toNat → n = (s.uVal (inst g u) u.b.toNat).toNat → n ≤ 65536 →
    (s.grp (inst g u)).passing u ≠ 0 →
    (∀ e ∈ [(Instr.cflush g u, RangeOp.flush, Use.flush), (.cinv g u, .invalidate, .flush), (.cdisc g u, .discard, .discard)],
      s.executes (inst g u) (cacheOpForm u .write) →
      (n = 0 → ∃ t, exec e.1 s = .next t ∧ s.onlyGroup t (inst g u)) ∧
      ∀ ts, n ≠ 0 → (e.2.1 = .discard → a % 128 = 0 ∧ n % 128 = 0) →
        s.checkLines g.core e.2.2 1 ((rangeLines a n).map fun va => (0, va)) ((rangeLines a n).map (· / 128)) = (.inr ts, s1) →
        ∃ t, exec e.1 s = .next t ∧ t.store = s.store ∧
          ∀ x ∈ ts, x.2.kind = .module →
            s.sent t fun r => r.agent = .vec g.core g.slot ∧ r.addr = x.2.addr ∧ r.op = .range e.2.1) ∧
    (s.executes (inst g u) (cacheOpForm u .read) →
      ∃ t, exec (.cpref g u) s = .next t ∧ t.store = s.store ∧ (n = 0 → s.onlyGroup t (inst g u)) ∧
        ∀ (va : Nat) (x : Target), rangeLines a n = [va] → s.compute g.core va .load = (.inl x, s1) → x.type ≠ .device →
          x.kind = .module → s.sent t fun r => r.agent = .vec g.core g.slot ∧ r.addr = x.addr ∧ r.op = .range .prefetch)

/-! Classes 0xA to 0xE, groups and cores. -/

/-- A matrix instruction whose checks pass enters the matrix command queue with its operand values, and leaves tile memory, accumulators
and planes alone (R30, R55, R79). -/
def Obligations.MatrixInstructionsEnterQueue : Prop :=
  ∀ (g : GroupRef) (u : Fields) (s : State) (ua ub uc : DWord),
    ua = s.uVal (inst g u) u.a.toNat → ub = s.uVal (inst g u) u.b.toNat → uc = s.uVal (inst g u) u.c.toNat →
    (s.grp (inst g u)).passing u = (s.grp (inst g u)).live → (s.core g.core).arrayOff = false → (s.core g.core).mtxQ.length < 16 →
    ∀ e ∈ ([(.mloadp g u, mloadpForm u (s.core g.core), strideOperandOk ua, .load ua (u.bit 14) (u.bits 11 3)),
            (.mstream g u, mtxForm u (s.core g.core) 0x7FFC (drainModsOk u),
              weightOperandOk ua && accOperandOk ub && strideOperandOk uc, .stream ua ub uc u.mod),
            (.mdrain g u, mtxForm u (s.core g.core) 0x087C (drainModsOk u),
              countOperandOk ua && accOperandOk ub && strideOperandOk uc, .drain ua ub uc u.mod)]
            : List (Instr × Form × Bool × MtxOp)),
    s.executes (inst g u) e.2.1 → e.2.2.1 = true →
    ∃ t, exec e.1 s = .next t ∧ s.onlyCore t g.core ∧
      (t.core g.core).mtxQ.map (·.op) = (s.core g.core).mtxQ.map (·.op) ++ [e.2.2.2] ∧
      (t.core g.core).tile = (s.core g.core).tile ∧ (t.core g.core).acc = (s.core g.core).acc ∧
      (t.core g.core).plane0 = (s.core g.core).plane0 ∧ (t.core g.core).plane1 = (s.core g.core).plane1

/-- MATRIX_LOAD_START of the next load in queue order reads 64 rows of tile memory into its plane and no other; MATRIX_LOAD_COMPLETE marks the plane
loaded and frees the queue place; MATRIX_STREAM_COMPLETE and MATRIX_DRAIN_COMPLETE write the columns that the first started stream or drain
passed on to tile memory, and free its place (R73, R79, R83 to R85, R95). -/
def Obligations.MatrixLoadsAndCompletions : Prop :=
  (∀ (c : CoreIdx) (s : State) (k : Core) (e : MtxEntry) (ua : DWord) (p : Bool) (kind : Nat), k = s.core c →
      (∀ (earlier : List MtxEntry) (src stride : Nat),
        k.live = true → k.mtxNext [] k.mtxQ = some (earlier, e) → e.op = .load ua p kind →
        (∀ x ∈ k.mtxQ, x.started = true → ∀ a b d, x.op ≠ .load a b d) →
        src = bitsOf ua.toNat 0 21 → stride = bitsOf ua.toNat 32 16 → src % 4 = 0 → stride % 4 = 0 →
        src + 63 * stride + kindRowBytes kind ≤ k.T →
        ∃ t, exec (.matrixLoadStart c) s = .next t ∧ s.onlyCore t c ∧ (t.core c).tile = k.tile ∧ (t.core c).acc = k.acc ∧
          (t.core c).plane (!p) = k.plane (!p) ∧ ((t.core c).plane p).kind = kind ∧
          (∃ x ∈ (t.core c).mtxQ, x.uid = e.uid ∧ x.started = true) ∧
          ∀ r m, r < 64 → m < 64 → SMap.get 0 ((t.core c).plane p).words (64 * r + m) =
            BitVec.ofNat 32 (leNat (SMap.getBytes k.tile (src + r * stride + kindBits kind / 8 * m) (kindBits kind / 8)))) ∧
      (k.mtxQ.find? (fun x => x.started && (match x.op with | .load _ _ _ => true | _ => false)) = some e → e.op = .load ua p kind →
        ∃ t, exec (.matrixLoadComplete c) s = .next t ∧ s.onlyCore t c ∧
          t.core c = ({ k with mtxQ := k.mtxQ.filter fun x => x.uid != e.uid } : Core).setPlane p { k.plane p with loaded := true })) ∧
  (∀ (c : CoreIdx) (s : State) (k k1 : Core) (e : MtxEntry) (ua ub uc : DWord) (mod : BitVec 15), k = s.core c →
      k.mtxQ.find? (fun x => x.started && (match x.op with | .stream _ _ _ _ => true | .drain _ _ _ _ => true | _ => false)) = some e →
      k.drainCols uc mod e.cols = (k1, .ok) →
      (e.op = .stream ua ub uc mod →
        ∃ t, exec (.matrixStreamComplete c) s = .next t ∧ s.onlyCore { t with free := s.free } c ∧
          (t.core c).mtxQ = k.mtxQ.filter (fun x => x.uid != e.uid) ∧ (t.core c).tile = k1.tile ∧ (t.core c).acc = k.acc) ∧
      (e.op = .drain ua ub uc mod →
        ∃ t, exec (.matrixDrainComplete c) s = .next t ∧ s.onlyCore t c ∧
          (t.core c).mtxQ = k.mtxQ.filter (fun x => x.uid != e.uid) ∧ (t.core c).tile = k1.tile ∧ (t.core c).acc = k.acc))

/-- MATRIX_STREAM_START adds to each accumulator column of its vectors, or replaces it, the rounded dot products, and leaves every other
column, tile memory and the planes alone (R81, R82, R92; the exact bits are the model's reading, assumption 12, since R96 promises none). -/
def Obligations.MatrixStreams : Prop :=
  ∀ (c : CoreIdx) (s : State) (k : Core) (earlier : List MtxEntry) (e : MtxEntry) (ua ub uc : DWord) (mod : BitVec 15)
    (p : Bool) (f : StreamFmt) (src stride n len : Nat) (col : Nat → Nat),
    k = s.core c → k.live = true → k.mtxNext [] k.mtxQ = some (earlier, e) → e.op = .stream ua ub uc mod →
    p = mod.getLsbD 14 → (∀ x ∈ earlier, ∀ a d, x.op ≠ .load a p d) →
    pairOk (bitsOf mod.toNat 7 4) (k.plane p).kind = true → streamFmt (bitsOf mod.toNat 7 4) = some f →
    src = bitsOf ua.toNat 0 21 → stride = bitsOf ua.toNat 32 16 → n = bitsOf ua.toNat 48 16 → n ≠ 0 →
    len = bitsOf ub.toNat 16 11 + 1 → n ≤ len →
    col = (fun i => (bitsOf ub.toNat 0 11 + (bitsOf ub.toNat 32 11 + i) % len) % 2048) →
    f.recordBytes (k.plane p).kind ≤ stride → src % 4 = 0 → stride % 4 = 0 →
    src + (n - 1) * stride + f.recordBytes (k.plane p).kind ≤ k.T →
    ∃ t, exec (.matrixStreamStart c) s = .next t ∧ s.onlyCore t c ∧ (t.core c).tile = k.tile ∧
      (t.core c).plane0 = k.plane0 ∧ (t.core c).plane1 = k.plane1 ∧
      (∀ i m, i < n → m < 64 → SMap.get 0 (t.core c).acc (64 * col i + m) =
        let y := columnSum f (k.plane p).kind (fun r => SMap.get 0 (k.plane p).words (64 * r + m))
          (leNat (SMap.getBytes k.tile (src + i * stride) (f.recordBytes (k.plane p).kind)))
        BitVec.ofNat 32 (FFmt.fp32.pack 0 true
          (if mod.getLsbD 13 then y else FVal.add false (FFmt.fp32.decode (SMap.get 0 k.acc (64 * col i + m)).toNat) y))) ∧
      ∀ x m, m < 64 → (∀ i, i < n → col i ≠ x) → SMap.get 0 (t.core c).acc (64 * x + m) = SMap.get 0 k.acc (64 * x + m)

/-- DMA.ISSUE of a sound descriptor puts a copy of it at the end of the DMA queue; the engine takes up a whole descriptor that nothing before it
holds back and none of whose pieces stops: the state is the one its pieces leave, with all its bytes taken up; DMA_DESCRIPTOR_COMPLETE removes a
descriptor whose bytes are all taken up and whose requests are done (R30, R136 to R138, R157, R164, R214). -/
def Obligations.DmaDescriptors : Prop :=
  ((∀ (g : GroupRef) (u : Fields) (s : State) (a : Nat) (d : DmaDesc),
      s.executes (inst g u) (dmaIssueForm u) → (s.grp (inst g u)).passing u ≠ 0 →
      a = (s.uVal (inst g u) u.a.toNat).toNat → a % 64 = 0 → a + 64 ≤ (s.core g.core).T →
      dmaDesc (SMap.getBytes (s.core g.core).tile a 64) = some d → (s.core g.core).dmaQ.length < 16 →
      ∃ t, exec (.dmaIssue g u) s = .next t ∧ s.onlyCore t g.core ∧
        (t.core g.core).dmaQ.map (·.work) = (s.core g.core).dmaQ.map (·.work) ++ [.desc d] ∧
        (t.core g.core).tile = (s.core g.core).tile) ∧
    (∀ (c : CoreIdx) (i : Fin 16) (s : State) (k : Core) (e : DmaEntry) (d : DmaDesc), k = s.core c →
      k.live = true → k.dmaQ[i.val]? = some e → e.work = .desc d → d.total ≤ e.taken → e.stall = none →
      k.dmaOpen (k.dmaQ.take i) = true → s.dmaBusy c e.uid = false →
      ∃ t, exec (.dmaDescriptorComplete c i) s = .next t ∧ s.onlyCore t c ∧
        t.core c = { k with dmaQ := k.dmaQ.filter fun x => x.uid != e.uid })) ∧
  (∀ (c : CoreIdx) (i : Fin 16) (s s1 : State) (e : DmaEntry) (d : DmaDesc) (n : Nat),
      (s.core c).live = true → (s.core c).dmaQ[i.val]? = some e → e.work = .desc d → e.stall = none →
      (s.core c).dmaOpen ((s.core c).dmaQ.take i) = true → (∀ x ∈ (s.core c).dmaQ.take i, s.dmaHeld c d x = false) →
      ∀ x ∈ ([(.dmaCopy c i, 1, fun s k => s.dmaPiece c e d k), (.dmaFill c i, 2, fun s k => s.dmaPiece c e d k),
              (.dmaPrefetch c i, 3, fun s k => s.dmaRangePiece c e d .prefetch k),
              (.dmaFlush c i, 4, fun s k => s.dmaRangePiece c e d .flush k),
              (.dmaInvalidate c i, 5, fun s k => s.dmaRangePiece c e d .invalidate k),
              (.dmaDiscard c i, 6, fun s k => s.dmaRangePiece c e d .discard k)]
              : List (Instr × Nat × (State → Nat → Nat × DmaStop × State))),
      d.op = x.2.1 → State.dmaRun x.2.2 d.total (d.total - e.taken) s e.taken = (n, .no, s1) →
      exec x.1 s = .next (s1.updCore c fun k => { k with dmaQ := k.dmaQ.map fun y => if y.uid = e.uid then { y with taken := n } else y }))

/-- FENCE makes its group wait for every request the group has in the fabric (assumption 18), and with scope DEVICE or SYSTEM and a release kind empties the write
buffer of the group's lines; FENCE_COMPLETE ends the wait once all of it is performed. BAR.GROUP and BAR.CORE make the passing lanes wait while
a live lane of the group, or of the core, is still to come, and let them all go on when the last arrives (R57, R58, R165, R166). -/
def Obligations.FencesAndBarriers : Prop :=
  ((∀ (g : GroupRef) (u : Fields) (s : State), s.executes (inst g u) (fenceForm u) → (s.grp (inst g u)).passing u ≠ 0 →
      (s.grp (inst g u)).fence = none →
      ∃ t, exec (.fence g u) s = .next t ∧ t.store = s.store ∧
        (∃ f, (t.grp (inst g u)).fence = some f ∧ f.scope = u.bits 2 2 ∧ f.kind = u.bits 0 2 ∧
          (∀ r ∈ s.fab.reqs, r.agent = .vec g.core g.slot → r.id ∈ f.reqs)) ∧
        (2 ≤ u.bits 2 2 → u.bits 0 2 ≠ 0 → ∀ e ∈ (t.core g.core).wb, g.slot.val ∉ e.groups) ∧
        (t.grp (inst g u)).t = (s.grp (inst g u)).t ∧ (t.grp (inst g u)).u = (s.grp (inst g u)).u ∧
        (t.grp (inst g u)).p = (s.grp (inst g u)).p) ∧
    (∀ (g : GroupRef) (s : State) (f : FenceWait), ((s.core g.core).group g.slot).fence = some f → s.fenceDone g.core f = true →
      ∃ t, exec (.fenceComplete g) s = .next t ∧ s.onlyCore t g.core ∧
        (t.core g.core).group g.slot = { (s.core g.core).group g.slot with fence := none } ∧
        ∀ j, j ≠ g.slot.val → (t.core g.core).group j = (s.core g.core).group j)) ∧
  (∀ (g : GroupRef) (u : Fields) (s : State) (x : Group) (m : Mask), x = s.grp (inst g u) → m = x.passing u → m ≠ 0 →
      s.coreFenced (inst g u) = true → (∀ j, ((s.core g.core).group j).arrivals = []) →
      (s.executes (inst g u) (noOperands u) →
        ∃ t, exec (.barGroup g u) s = .next t ∧ s.onlyCore t g.core ∧ (t.grp (inst g u)).live = x.live ∧
          (t.grp (inst g u)).t = x.t ∧ (t.grp (inst g u)).u = x.u ∧ (t.grp (inst g u)).p = x.p ∧
          (m &&& x.live ≠ x.live → (t.grp (inst g u)).arrivals = [{ number := none, mask := m, pc := x.pc + 8 }]) ∧
          (m &&& x.live = x.live → x.live ≠ 0 → (t.grp (inst g u)).arrivals = [])) ∧
      (s.executes (inst g u) (barCoreForm u) →
        ∃ t, exec (.barCore g u) s = .next t ∧ s.onlyCore t g.core ∧ (t.grp (inst g u)).live = x.live ∧
          (t.grp (inst g u)).t = x.t ∧ (t.grp (inst g u)).u = x.u ∧ (t.grp (inst g u)).p = x.p ∧
          ((∃ j, j ≠ g.slot.val ∧ ((s.core g.core).group j).occupied = true ∧ ((s.core g.core).group j).live ≠ 0) →
            (t.grp (inst g u)).arrivals = [{ number := some (u.bits 0 4), mask := m, pc := x.pc + 8 }]) ∧
          ((s.core g.core).groups = [(g.slot.val, x)] → m &&& x.live = x.live → x.live ≠ 0 → (t.grp (inst g u)).arrivals = [])))

/-- TOK.SET and TOK.WAIT enter the stream of their engine: a queue of the matrix or DMA engine, or the group's own; a TOK.WAIT of the scalar or
vector engine that finds a count of at least 1 lowers it. TOK_SET_TAKES_EFFECT raises the count of the set's token by one and
TOK_WAIT_RELEASE lowers that of a blocked wait by one; both remove the entry from its engine's stream and change no other token and no other
group (R62, R63). -/
def Obligations.Tokens : Prop :=
  (∀ (g : GroupRef) (u : Fields) (s : State) (x : Group) (e : Engine) (n : Nat),
      s.executes (inst g u) (tokForm u) → x = s.grp (inst g u) → x.passing u ≠ 0 → e = engineOf (u.bits 4 2) → n = u.bits 0 4 →
      (e = .m → (s.core g.core).mtxQ.length < 16 →
        (∃ t, exec (.tokSet g u) s = .next t ∧ s.onlyCore t g.core ∧
          (t.core g.core).mtxQ.map (·.op) = (s.core g.core).mtxQ.map (·.op) ++ [.tokSet n]) ∧
        (∃ t, exec (.tokWait g u) s = .next t ∧ s.onlyCore t g.core ∧
          (t.core g.core).mtxQ.map (·.op) = (s.core g.core).mtxQ.map (·.op) ++ [.tokWait n])) ∧
      (e = .d → (s.core g.core).dmaQ.length < 16 →
        (∃ t, exec (.tokSet g u) s = .next t ∧ s.onlyCore t g.core ∧
          (t.core g.core).dmaQ.map (·.work) = (s.core g.core).dmaQ.map (·.work) ++ [.tokSet n]) ∧
        (∃ t, exec (.tokWait g u) s = .next t ∧ s.onlyCore t g.core ∧
          (t.core g.core).dmaQ.map (·.work) = (s.core g.core).dmaQ.map (·.work) ++ [.tokWait n])) ∧
      (e = .s ∨ e = .v →
        (∃ t, exec (.tokSet g u) s = .next t ∧ s.onlyGroup t (inst g u) ∧ (t.grp (inst g u)).tokens = x.tokens ∧
          (t.grp (inst g u)).sets.map (fun y => (y.engine, y.token)) = x.sets.map (fun y => (y.engine, y.token)) ++ [(e, n)]) ∧
        (∃ t, exec (.tokWait g u) s = .next t ∧ s.onlyGroup t (inst g u) ∧
          if 1 ≤ SMap.get 0 x.tokens n then
            (t.grp (inst g u)).tokWaits = x.tokWaits ∧
            ∀ k, SMap.get 0 (t.grp (inst g u)).tokens k = SMap.get 0 x.tokens k - if k = n then 1 else 0
          else (t.grp (inst g u)).tokens = x.tokens ∧
            (t.grp (inst g u)).tokWaits.map (fun y => (y.1, y.2.1)) = x.tokWaits.map (fun y => (y.1, y.2.1)) ++ [(e, n)]))) ∧
  (∀ (g : GroupRef) (s : State) (k : Core) (x : Group) (n : Nat), k = s.core g.core → x = k.group g.slot →
      (∀ y, k.mtxSetReady g.slot [] k.mtxQ = some (y, n) →
        ∃ t, exec (.tokSetTakesEffect g .m) s = .next t ∧ s.movesToken t g n 1 ∧ ∀ z ∈ (t.core g.core).mtxQ, z.uid ≠ y.uid) ∧
      (∀ y, k.dmaSetReady g.slot [] k.dmaQ = some (y, n) →
        ∃ t, exec (.tokSetTakesEffect g .d) s = .next t ∧ s.movesToken t g n 1 ∧ ∀ z ∈ (t.core g.core).dmaQ, z.uid ≠ y.uid) ∧
      (∀ e y, e = .s ∨ e = .v → x.sets.find? (fun t => t.engine == e) = some y → y.token = n → (∀ r ∈ s.fab.reqs, r.id ∉ y.reqs) →
        SMap.get 0 x.tokens n ≠ 63 →
        ∃ t, exec (.tokSetTakesEffect g e) s = .next t ∧ s.movesToken t g n 1 ∧ ((t.core g.core).group g.slot).sets = x.sets.erase y) ∧
      (1 ≤ SMap.get 0 x.tokens n →
        (∀ y, k.mtxWaiting [] k.mtxQ = some (y, n) → y.slot = g.slot.val →
          ∃ t, exec (.tokWaitRelease g .m) s = .next t ∧ s.movesToken t g n (-1) ∧ ∀ z ∈ (t.core g.core).mtxQ, z.uid ≠ y.uid) ∧
        (∀ y, k.dmaWaiting [] k.dmaQ = some (y, n) → y.slot = g.slot.val →
          ∃ t, exec (.tokWaitRelease g .d) s = .next t ∧ s.movesToken t g n (-1) ∧ ∀ z ∈ (t.core g.core).dmaQ, z.uid ≠ y.uid) ∧
        (∀ e y, e = .s ∨ e = .v → x.tokWaits.find? (fun w => w.1 == e) = some y → y.2.1 = n →
          ∃ t, exec (.tokWaitRelease g e) s = .next t ∧ s.movesToken t g n (-1) ∧
            ((t.core g.core).group g.slot).tokWaits = x.tokWaits.erase y)))

/-- MSEND puts the flits of its register or tile form into the stream's send queue, and MRECV takes those of the receive queue, while there is room
and flits; with none the group waits, and MESH_QUEUE_WAIT_DONE goes on with the wait in the same way. A router whose run bit is set and whose
neighbours are ready takes one slot when no output of it finds a cause; MESH_START starts every router of the die that may start;
CROSSING_FLIT_ARRIVE moves one flit from the sender's queue to the receiver's buffer (R140, R230 to R232, R235, R239). -/
def Obligations.Mesh : Prop :=
  (∀ (g : GroupRef) (u : Fields) (s : State) (k : Core) (m : Mask) (stream n : Nat), k = s.core g.core → m = (s.grp (inst g u)).passing u →
      (u.bit 11 = true ∨ m = (s.grp (inst g u)).live) → stream = u.bits 0 4 →
      (s.executes (inst g u) (sendForm u k) → s.streamNamed g.core stream true = true → u.bit 13 = false → n = k.W / 16 →
        ∃ t, exec (.msend g u) s = .next t ∧ s.onlyCore t g.core ∧
          (if (k.router.sending stream).length + n ≤ 8 then
            ((t.core g.core).router.sending stream).map (·.bytes) = (k.router.sending stream).map (·.bytes) ++ (List.range n).map (fun j =>
              (((List.range k.W).flatMap fun l =>
                leBytes 4 (if m.getLsbD l then ((s.grp (inst g u)).getT l u.a.toNat).toNat else 0)).drop (64 * j)).take 64) ∧
            (t.grp (inst g u)).mesh = none
          else (t.core g.core).router = k.router ∧ (t.grp (inst g u)).mesh ≠ none)) ∧
      (s.executes (inst g u) (recvForm u k) → s.streamNamed g.core stream false = true → u.bit 13 = false → n = k.W / 16 →
        ∃ t, exec (.mrecv g u) s = .next t ∧ s.onlyCore t g.core ∧
          (if n ≤ (k.router.recv stream).length then
            (t.core g.core).router.recv stream = (k.router.recv stream).drop n ∧ (t.grp (inst g u)).mesh = none ∧
            ∀ lane r, lane < 64 → r < 256 → (t.grp (inst g u)).getT lane r =
              if r = u.d.toNat ∧ m.getLsbD lane then
                BitVec.ofNat 32 (fieldAt (((k.router.recv stream).take n).flatMap Flit.bytes) (4 * lane) 4)
              else (s.grp (inst g u)).getT lane r
          else (t.core g.core).router = k.router ∧ (t.grp (inst g u)).mesh ≠ none)) ∧
      (∀ a len : Nat, u.bit 13 = true → a = (s.uVal (inst g u) u.a.toNat).toNat → len = (s.uVal (inst g u) u.b.toNat).toNat →
        a % 64 = 0 → len % 64 = 0 → len ≠ 0 → a + len ≤ k.T →
        (s.executes (inst g u) (sendForm u k) → s.streamNamed g.core stream true = true →
          n = Nat.min (8 - (k.router.sending stream).length) (len / 64) →
          ∃ t, exec (.msend g u) s = .next t ∧ s.onlyCore t g.core ∧ (t.core g.core).tile = k.tile ∧
            ((t.core g.core).router.sending stream).map (·.bytes) = (k.router.sending stream).map (·.bytes) ++
              (List.range n).map (fun j => SMap.getBytes k.tile (a + 64 * j) 64) ∧
            ((t.grp (inst g u)).mesh = none ↔ len = 64 * n)) ∧
        (s.executes (inst g u) (recvForm u k) → s.streamNamed g.core stream false = true →
          n = Nat.min (k.router.recv stream).length (len / 64) →
          ∃ t, exec (.mrecv g u) s = .next t ∧ s.onlyCore t g.core ∧
            (t.core g.core).router.recv stream = (k.router.recv stream).drop n ∧
            (t.core g.core).tile = (((k.router.recv stream).take n).zipIdx.foldl
              (fun (x : SMap Byte) (f : Flit × Nat) => SMap.putBytes x (a + 64 * f.2) f.1.bytes) k.tile) ∧
            ((t.grp (inst g u)).mesh = none ↔ len = 64 * n))) ∧
      (∀ w : MeshWait, (k.group g.slot).mesh = some w → w.stream = stream →
        ∃ t, exec (.meshQueueWaitDone g) s = .next t ∧ s.onlyCore t g.core ∧
          (w.isSend = true → w.tile = false → (k.router.sending stream).length + w.flits.length ≤ 8 →
            ((t.core g.core).router.sending stream).map (·.bytes) = (k.router.sending stream).map (·.bytes) ++ w.flits ∧
            ((t.core g.core).group g.slot).mesh = none) ∧
          (w.isSend = false → w.tile = false → k.W / 16 ≤ (k.router.recv stream).length →
            (t.core g.core).router.recv stream = (k.router.recv stream).drop (k.W / 16) ∧
            ((t.core g.core).group g.slot).mesh = none))) ∧
  ((∀ (c : CoreIdx) (s s1 : State) (r : Router), r = (s.core c).router → r.run = true → r.running = true → s.slotReady c = true →
      s.slotOutputs c (r.slots % r.length) (s.core c) [0, 1, 2, 3, 4] = .inr s1 →
      (∀ x ∈ r.inputs, x.2.1 = r.slots → r.edge.getLsbD x.1 = false →
        ∃ o < 5, let e := s.tableEntry c (r.slots % r.length) o; e.srcA ≠ 0 ∧ (e.srcA = x.1 + 1 ∨ (e.add = true ∧ e.srcB = x.1 + 1))) →
      ∃ t, exec (.meshRouterSlot c) s = .next t ∧ (t.core c).router.slots = r.slots + 1 ∧ t.store = s.store ∧
        ∀ d, d ≠ c.val → t.core d = s1.core d) ∧
    (∀ (d : DieIdx) (s : State) (c : CoreIdx) (r : Router), dieOfCore c = d → r = (s.core c).router →
      ∃ t, exec (.meshStart d) s = .next t ∧ { t with cores := s.cores } = s ∧
        t.core c = if r.run = true ∧ r.running = false ∧ (s.core c).mode ≠ .clearing ∧ r.start.toNat ≤ s.dieTime d
          then { s.core c with router := { r with running := true, slots := 0, inputs := [] } } else s.core c) ∧
    (∀ (c : CoreIdx) (p : Port) (vc : Fin 4) (s : State) (n : Nat) (f : Flit) (rest : List Flit),
      neighbour c (portNo p) = some n → crossing c (portNo p) = true → (s.core c).router.edge.getLsbD (portNo p) = false →
      SMap.get [] (s.core n).router.crossQ (4 * opposite (portNo p) + vc) = f :: rest →
      (SMap.get [] (s.core c).router.crossB (4 * portNo p + vc)).length < 8 →
      ∃ t, exec (.crossingFlitArrive c p vc) s = .next t ∧
        SMap.get [] (t.core n).router.crossQ (4 * opposite (portNo p) + vc) = rest ∧
        SMap.get [] (t.core c).router.crossB (4 * portNo p + vc) = SMap.get [] (s.core c).router.crossB (4 * portNo p + vc) ++ [f]))

/-- CNTR reads a counter and MERR the die's meridian counter into u[d]; RINSE.SET and RINSE.CLR of a privileged kernel fix and free the core's
rinse rate (R141, R142). -/
def Obligations.SystemInstructions : Prop :=
  ∀ (g : GroupRef) (u : Fields) (s : State),
    (s.executes (inst g u) (cntrForm u) →
      ∃ t, exec (.cntr g u) s = .next t ∧ s.retiresU t (inst g u) (SMap.get 0 (s.core g.core).counters u.mod.toNat)) ∧
    (s.executes (inst g u) (merrForm u) →
      ∃ t, exec (.merr g u) s = .next t ∧ s.retiresU t (inst g u) (BitVec.ofNat 64 (s.dieTime (g.core.val / 80)))) ∧
    ((s.grp (inst g u)).passing u ≠ 0 →
      (s.executes (inst g u) (rinseSetForm u (s.core g.core)) → (s.uVal (inst g u) u.a.toNat).toNat ≤ 64 →
        ∃ t, exec (.rinseSet g u) s = .next t ∧ s.onlyCore t g.core ∧ (s.grp (inst g u)).placed (t.grp (inst g u)) = s.grp (inst g u) ∧
          (t.core g.core).rinse = some (s.uVal (inst g u) u.a.toNat).toNat) ∧
      (s.executes (inst g u) (rinseClrForm u (s.core g.core)) →
        ∃ t, exec (.rinseClr g u) s = .next t ∧ s.onlyCore t g.core ∧ (s.grp (inst g u)).placed (t.grp (inst g u)) = s.grp (inst g u) ∧
          (t.core g.core).rinse = none))

/-- CORE_START of an idle core runs its share at once when its context ran last, else clears first; CORE_STOP drains a running core or marks a
clearing one; CORE_CLEAR_COMPLETE leaves tile memory, accumulators and planes zero and runs, unless a stop is pending; GROUP_END puts the next
group of the share into the slot while one remains, and leaves the slot empty else (R35, R48, R59, R66, R87). -/
def Obligations.CoresAndGroups : Prop :=
  (∀ (c : CoreIdx) (s : State) (k : Core), k = s.core c →
      (k.mode = .idle → k.cfgOk = true → k.share.groups ≠ 0 →
        ∃ t, exec (.coreStart c) s = .next t ∧ s.onlyCore t c ∧ (t.core c).kernel = headerInfo (s.physBytes k.kernelBase 256) ∧
          (if k.lastCtx = some (k.context, k.partition) then
            (t.core c).mode = .running ∧ (t.core c).share.placed = Nat.min k.slots k.share.groups ∧ (t.core c).tile = k.tile ∧
            ∀ j, j < Nat.min k.slots k.share.groups →
              ((t.core c).group j).occupied = true ∧ ((t.core c).group j).index = k.share.first + j
          else (t.core c).mode = .clearing ∧ (t.core c).clearCount = 0)) ∧
      (∃ t, exec (.coreStop c) s = .next t ∧ s.onlyCore t c ∧
        t.core c = match k.mode with
          | .clearing => { k with stopPending := true }
          | .running => { k with mode := .draining }
          | _ => k) ∧
      (k.mode ≠ .idle → k.wb = [] →
        ∃ t, exec (.coreTeardown c) s = .next t ∧ (t.core c).mode = .idle ∧ (t.core c).groups = [] ∧ (t.core c).mtxQ = [] ∧
          (t.core c).dmaQ = [] ∧ (t.core c).tile = k.tile ∧ (∀ d, d ≠ c.val → t.core d = s.core d) ∧ t.store = s.store) ∧
      (k.mode = .clearing → 8192 ≤ k.clearCount →
        ∃ t, exec (.coreClearComplete c) s = .next t ∧ (∀ d, d ≠ c.val → t.core d = s.core d) ∧ (t.core c).tile = [] ∧ (t.core c).acc = [] ∧
          (t.core c).plane0 = {} ∧ (t.core c).plane1 = {} ∧ (t.core c).utlb = [] ∧
          if k.stopPending = true then (t.core c).mode = .idle ∧ (t.core c).groups = []
          else (t.core c).mode = .running ∧ (t.core c).share.placed = k.share.placed + Nat.min k.slots (k.share.groups - k.share.placed)) ∧
      (k.mode = .draining → k.mtxQ = [] → k.dmaQ = [] → s.coreRequests c = false →
        ∃ t, exec (.coreDrainComplete c) s = .next t ∧ (∀ d, d ≠ c.val → t.core d = s.core d) ∧
          t.core c = { k with mode := .idle, groups := [] })) ∧
  (∀ (g : GroupRef) (s : State) (k : Core), k = s.core g.core → s.groupDone g.core g.slot = true → k.mode = .running →
      ∃ t, exec (.groupEnd g) s = .next t ∧ t.store = s.store ∧ (∀ d, d ≠ g.core.val → t.core d = s.core d) ∧
        if k.share.placed < k.share.groups then
          ((t.core g.core).group g.slot).occupied = true ∧
          ((t.core g.core).group g.slot).index = k.share.first + k.share.placed ∧
          (t.core g.core).share.placed = k.share.placed + 1
        else ((t.core g.core).group g.slot).occupied = false)

/-! Counters and registers. -/

/-- A write with bit 0 set to a counter clear register zeroes the counters of its block, and those alone; with bit 0 clear it changes nothing. A read
of CORE_STACK_MAX, missreg_hwm or EVR_DROPPED answers the value and leaves zero; a write of 1 to a status bit that a write of 1 clears leaves it
clear, and a write of 0 leaves it as it is (R7, R52, R71, R103, R209, R222, R224, R233, R253, R275, R287, R313, R314, R336, R337, R341, R369,
R464, R486, R497). -/
def Obligations.ClearingAccesses : Prop :=
  (∀ (s : State) (c : CoreIdx) (h : HalfIdx) (m : CtrlIdx) (d : DieIdx) (p : BndPort) (a : ArbId) (v : Word),
      (v.getLsbD 0 = false →
        ∀ i ∈ [Instr.coreCntClear c v, .mtxCntClear c v, .meshCntClear c v, .xlatCoreCntClear c v, .cacheCntClear h v, .memcCntClear m v,
               .xlatCntClear d v, .stewCntClear h v, .specCntClear v, .bndCntClear p v, .arbCtrlClear a v], exec i s = .next s) ∧
      (v.getLsbD 0 = true →
        (∃ t, exec (.coreCntClear c v) s = .next t ∧ s.onlyCore t c ∧
          t.core c = { s.core c with counters := [], router := { (s.core c).router with counters := [] } }) ∧
        (∃ t, exec (.meshCntClear c v) s = .next t ∧ s.onlyCore t c ∧
          t.core c = { s.core c with router := { (s.core c).router with counters := [] } }) ∧
        (∀ e ∈ [(Instr.mtxCntClear c v, 0x300, 0x348), (.xlatCoreCntClear c v, 0x700, 0x720)],
          ∃ t, exec e.1 s = .next t ∧ s.onlyCore t c ∧ { t.core c with counters := (s.core c).counters } = s.core c ∧
            ∀ off, SMap.get 0 (t.core c).counters off =
              if e.2.1 ≤ off ∧ off < e.2.2 then 0 else SMap.get 0 (s.core c).counters off) ∧
        (∃ t, exec (.cacheCntClear h v) s = .next t ∧ s.onlyHalf t h ∧ t.half h = { s.half h with counters := [] }) ∧
        (∃ t, exec (.memcCntClear m v) s = .next t ∧ s.onlyCtrl t m ∧ t.ctrl m = { s.ctrl m with counters := [] }) ∧
        (∃ t, exec (.xlatCntClear d v) s = .next t ∧ { t with xlat := s.xlat } = s ∧
          { t.xlat with counters := s.xlat.counters } = s.xlat ∧
          ∀ off, SMap.get 0 t.xlat.counters off = if off / 4096 = d.val then 0 else SMap.get 0 s.xlat.counters off) ∧
        (∃ t, exec (.stewCntClear h v) s = .next t ∧ { t with power := s.power } = s ∧
          ∀ k, t.steward k = if k = h.val then { s.steward k with counters := [] } else s.steward k) ∧
        (∃ t, exec (.specCntClear v) s = .next t ∧ t = { s with twin := { s.twin with counters := [] } }) ∧
        (∃ t, exec (.arbCtrlClear a v) s = .next t ∧ s.onlyArb t (arbKey a) ∧
          t.arb (arbKey a) = { s.arb (arbKey a) with counters := [] }) ∧
        (∃ t, exec (.bndCntClear p v) s = .next t ∧ match portBundle p with
          | some (b, x) => s.onlyBundle t b ∧ (t.bundle b).dir x = { (s.bundle b).dir x with counters := [] } ∧
              (t.bundle b).dir (!x) = (s.bundle b).dir (!x)
          | none => t = s))) ∧
  (∀ (s : State) (c : CoreIdx) (h : HalfIdx) (b : BankIdx) (fn : FnIdx) (m : CtrlIdx) (x : MbxIdx) (v : Word),
      (∃ t, exec (.coreStackMaxRead c) s = .next t ∧ t.rd = (s.core c).stackMax ∧ s.onlyCore { t with rd := s.rd } c ∧
        t.core c = { s.core c with stackMax := 0 }) ∧
      (∃ t, exec (.missregHwmRead h b) s = .next t ∧ t.rd = SMap.get 0 (s.half h).hwm b ∧ s.onlyHalf { t with rd := s.rd } h ∧
        { t.half h with hwm := (s.half h).hwm } = s.half h ∧
        ∀ k, SMap.get 0 (t.half h).hwm k = if k = b.val then 0 else SMap.get 0 (s.half h).hwm k) ∧
      (∃ t, exec (.evrDroppedRead fn) s = .next t ∧ t.rd = (s.ring fn).dropped ∧ (t.ring fn) = { s.ring fn with dropped := 0 } ∧
        { t with valac := s.valac, rd := s.rd } = s ∧ ∀ k, k ≠ fn.val → t.ring k = s.ring k) ∧
      (∃ t, exec (.meshFaultClear c v) s = .next t ∧ s.onlyCore t c ∧
        t.core c = { s.core c with router := { (s.core c).router with
          fault := { (s.core c).router.fault with valid := if v.getLsbD 31 then false else (s.core c).router.fault.valid } } }) ∧
      (∃ t, exec (.hstRefusedClear v) s = .next t ∧
        t = { s with host := { s.host with refused := if v.getLsbD 31 then false else s.host.refused } }) ∧
      (∃ t, exec (.mbxOverrunClear x v) s = .next t ∧ { t with valac := s.valac } = s ∧
        ∀ k, t.mbx k = if k = x.val ∧ v.getLsbD 31 = true then { s.mbx k with overrun := false } else s.mbx k) ∧
      (∃ t, exec (.cacheErrStatusClear h v) s = .next t ∧ s.onlyHalf t h ∧
        t.half h = { s.half h with err := { (s.half h).err with
          ue := if v.getLsbD 31 then false else (s.half h).err.ue, ce := if v.getLsbD 30 then false else (s.half h).err.ce } }) ∧
      (∃ t, exec (.memcErrStatusClear m v) s = .next t ∧ s.onlyCtrl t m ∧
        t.ctrl m = { s.ctrl m with
          ue := if v.getLsbD 31 then false else (s.ctrl m).ue, ce := if v.getLsbD 30 then false else (s.ctrl m).ce }))

/-- A write of a warden has the effect of the row of its register; the configuration of a core changes only while the core is idle, MESH_CTRL's lc and
edge only while the router does not run, and an arbiter's limits only while no latency-critical launch is pending or running. CACHE_WAYMASK sets
the mask of one partition; CACHE_CFG begins a change of the replica ways, which is done when no line of a way that changes its role is left;
CACHE_SWEEP runs while it is not busy, and is done when no line that it names is left (R65, R194, R196, R197, R223, R252, R334, R335, R366). -/
def Obligations.RegistersAndCacheControls : Prop :=
  (∀ (s : State) (off : Nat) (v : Word) (c : CoreIdx) (h : HalfIdx) (m : CtrlIdx) (a : ArbId) (k : Core),
      off % 4 = 0 → off < 2 ^ 40 → k = s.core c →
      (∀ e ∈ [((icsBlock off).1 = Block.core c ∧ (icsBlock off).2 = 0xF8, Instr.coreCntClear c v),
              ((icsBlock off).1 = .core c ∧ (icsBlock off).2 = 0x400, .meshCtrlWrite c v),
              ((icsBlock off).1 = .half h ∧ (icsBlock off).2 = 0x04, .cacheCfgWrite h v),
              ((icsBlock off).1 = .memc m ∧ (icsBlock off).2 = 0x20, .memcErrStatusClear m v),
              ((icsBlock off).1 = .arb a ∧ (icsBlock off).2 = 0x004, .arbWaitLimitWrite a v)],
        e.1 → exec (.registerWrite .ics off (leBytes 4 v.toNat)) s = exec e.2 s) ∧
      ((icsBlock off).1 = .core c ∧ (icsBlock off).2 = 0x10 →
        ∃ t, exec (.registerWrite .ics off (leBytes 4 v.toNat)) s = .next t ∧ s.onlyCore t c ∧
          t.core c = if k.mode = .idle then { k with partition := v.toNat / 2 ^ 16 % 256, context := v.toNat % 2 ^ 16 } else k) ∧
      (∃ t, exec (.meshCtrlWrite c v) s = .next t ∧ s.onlyCore t c ∧
        t.core c = { k with router := { k.router with
          run := v.getLsbD 0, running := k.router.running && v.getLsbD 0,
          lc := if k.router.run then k.router.lc else v.getLsbD 12,
          edge := if k.router.run then k.router.edge else v.extractLsb' 4 4 } }) ∧
      (∃ t, exec (.arbWaitLimitWrite a v) s = .next t ∧ s.onlyArb t (arbKey a) ∧
        t.arb (arbKey a) = if s.lcBusy then s.arb (arbKey a) else { s.arb (arbKey a) with waitLimit := some (v.toNat % 2 ^ 16) }) ∧
      (∃ t, exec (.arbHoldLimitWrite a v) s = .next t ∧ s.onlyArb t (arbKey a) ∧
        t.arb (arbKey a) = if s.lcBusy then s.arb (arbKey a) else { s.arb (arbKey a) with holdLimit := v.toNat % 2 ^ 16 })) ∧
  (∀ (s : State) (h : HalfIdx) (p : PartIdx) (v : Word) (w : DWord) (x : Half), x = s.half h →
      (∃ t, exec (.cacheWaymaskWrite h p v) s = .next t ∧ s.onlyHalf t h ∧ { t.half h with waymask := x.waymask } = x ∧
        ∀ q, SMap.get 0 (t.half h).waymask q = if q = p.val then v.setWidth 16 else SMap.get 0 x.waymask q) ∧
      (∃ t, exec (.cacheCfgWrite h v) s = .next t ∧ (t.half h).cfgBusy = true ∧ (t.half h).nReplica = x.nReplica ∧
        (t.half h).nNext = Nat.min (v.toNat % 16) 8 ∧ t.store = s.store) ∧
      (x.cfgBusy = true → (∀ e ∈ x.lines, roleChanges x.nReplica x.nNext (keyWay e.1) = true → e.2.state = .invalid) →
        ∃ t, exec (.cacheReplicaChangeDone h) s = .next t ∧ t.half h = { x with cfgBusy := false, nReplica := x.nNext }) ∧
      (x.sweepBusy = false →
        ∃ t, exec (.cacheSweepStart h w) s = .next t ∧ t.store = s.store ∧ (t.half h).sweepBusy = w.getLsbD 31 ∧
          (t.half h).sweepMode = w.getLsbD 30 ∧ (t.half h).sweepPart = w.toNat / 2 ^ 16 % 256 ∧
          (t.half h).sweepCtx = w.toNat / 2 ^ 32 % 2 ^ 16 ∧ (t.half h).sweepWays = w.extractLsb' 0 16 ∧
          (w.getLsbD 31 = false → s.onlyHalf t h ∧ (t.half h).lines = x.lines)) ∧
      (x.sweepBusy = true →
        (∀ e ∈ x.lines, (if x.sweepMode then e.2.ctx = x.sweepCtx else sweepTakes x.sweepPart x.sweepWays e.1 e.2 = true) →
          e.2.state = .invalid) →
        ∃ t, exec (.sweepComplete h) s = .next t ∧ s.onlyHalf t h ∧ t.half h = { x with sweepBusy := false }))

/-! Homes, lines and memory. -/

/-- A load that hits at its home delivers the bytes of the line to the lanes of its group and LDRES takes its reservation; a Device access
to a line that no home holds goes to the controller of its address; none of them changes memory (R155, R175, R199). -/
def Obligations.HomeReads : Prop :=
  ∀ (s : State) (id : Nat) (r : Req) (key : Nat) (l : CLine) (c slot h : Nat), h = s.homeOf r.addr → r.agent = .vec c slot →
    (s.homeHit id r key l → r.type ≠ .device → ((s.core c).group slot).occupied = true →
      (∀ (d size : Nat) (sign : Bool) (lanes : List (Nat × Nat)) (fwd : List (Nat × Byte)) (ro : Bool), r.op = .load d size sign ro lanes fwd →
        ∃ t, exec (.homeLoad id .good) s = .next t ∧ t.store = s.store ∧ t.gone id ∧
          (∃ n, (t.half h).line key = { l with used := n }) ∧
          (t.core c).group slot = lanes.foldl (fun (g : Group) e =>
            g.putElem e.1 d size sign (gather (forwarded fwd l.byte) e.2 (2 ^ size))) ((s.core c).group slot)) ∧
      (∀ size d off : Nat, r.op = .ldres size d off 0 → r.addr % 128 = 0 → off < 128 →
        ∃ t, exec (.homeLdres id) s = .next t ∧ t.store = s.store ∧ t.gone id ∧
          (t.core c).group slot = { ((s.core c).group slot).setU d (BitVec.ofNat 64 (gather l.byte off (2 ^ size))) with
            resv := some { pa := r.addr + off, base := r.addr, len := 128, age := 0 } })) ∧
    (s.presents id r → r.type = .device → (s.half h).homeWay r.addr = none →
      (∀ (d size : Nat) (sign : Bool) (lanes : List (Nat × Nat)) (fwd : List (Nat × Byte)), r.op = .load d size sign false lanes fwd →
        ∃ t, exec (.homeDeviceAccess id) s = .next t ∧ t.store = s.store ∧
          (t.ctrl (s.ctrlOf r.addr)).queue = (s.ctrl (s.ctrlOf r.addr)).queue ++ [.readFor (lineOf r.addr) id] ∧
          ∀ x, t.req id = some x → x.place = .waiting) ∧
      (∀ bytes : List (Nat × Byte), r.op = .write bytes →
        ∃ t, exec (.homeDeviceAccess id) s = .next t ∧ t.store = s.store ∧
          (t.ctrl (s.ctrlOf r.addr)).queue = (s.ctrl (s.ctrlOf r.addr)).queue ++ [.writePart (lineOf r.addr) bytes id r.poison] ∧
          ∀ x, t.req id = some x → x.place = .waiting))

/-- A write, an atomic, a reduction and a STCOND that hit at their home leave their bytes in the line, which is DIRTY then, and answer their
group; CFLUSH, CINV and CDISC leave the line clean, gone or DEAD; memory changes later (R132, R134, R175, R199, R214). -/
def Obligations.HomeWrites : Prop :=
  ∀ (s : State) (id : Nat) (r : Req) (key : Nat) (l : CLine) (h : Nat), h = s.homeOf r.addr → s.homeHit id r key l →
    (∀ bytes : List (Nat × Byte), r.op = .write bytes → r.type ≠ .device →
      ∃ t, exec (.homeWrite id) s = .next t ∧ t.store = s.store ∧ t.gone id ∧
        ∃ n, (t.half h).line key = ({ l with used := n } : CLine).store r bytes) ∧
    (∀ (cas : Bool) (aop size d c slot : Nat) (lanes : List (Nat × Nat × DWord × DWord)), r.op = .atomic cas aop size d lanes →
      r.agent = .vec c slot → ((s.core c).group slot).occupied = true →
      ∃ t, exec (.homeAtomic id) s = .next t ∧ t.store = s.store ∧ t.gone id ∧
        (∃ n, (t.half h).line key =
          ({ l with used := n } : CLine).store r ((atomicInto l cas aop size lanes).1.pick r.op.offsets)) ∧
        (t.core c).group slot = (atomicInto l cas aop size lanes).2.foldl (fun (g : Group) e => g.putElem e.1 d size false e.2)
          ((s.core c).group slot)) ∧
    (∀ (op : RedOp) (type : RedType) (elems : List (Nat × Word)), r.op = .reduce op type elems →
      ∃ t, exec (.homeReduction id) s = .next t ∧ t.store = s.store ∧ t.gone id ∧
        ∃ n, (t.half h).line key =
          { ({ l with used := n } : CLine).store r ((redInto l op type elems).pick r.op.offsets) with poison := 0 }) ∧
    (∀ (size off p c slot : Nat) (value : DWord), r.op = .stcond size off p value → r.agent = .vec c slot →
      ((s.core c).group slot).occupied = true →
      ∃ t, exec (.homeStcond id) s = .next t ∧ t.store = s.store ∧ t.gone id ∧
        (∃ n, (t.half h).line key = ({ l with used := n } : CLine).store r
          ((leBytes (2 ^ size) value.toNat).zipIdx.map fun e => (off + e.2, e.1))) ∧
        (t.core c).group slot =
          { ((s.core c).group slot).setP p r.site.active (BitVec.allOnes 64) with resv := none }) ∧
    (∀ op : RangeOp, r.op = .range op → r.addr % 128 = 0 → l.addr = r.addr → l.pair = none →
      ∃ t, exec (.homeRangeLineOp id) s = .next t ∧ t.store = s.store ∧ t.gone id ∧
        ((t.half h).line key).state = (match op with
          | .prefetch => l.state
          | .flush => .clean
          | .invalidate => .invalid
          | .discard => .dead) ∧
        (op = .flush ∨ op = .invalidate → (t.ctrl (s.ctrlOf r.addr)).queue = (s.ctrl (s.ctrlOf r.addr)).queue ++
          (sectorList l.dirty).map fun k => .write (r.addr + 32 * k) (l.bytes (32 * k) 32) false))

/-- Sectors that arrive make a FILL line rest with them, and its waiters are served in their order; a forward that finds no replica is served at the
home; an acknowledgement of the last invalidation lets the home go on. A load that finds its line in the replica half of its die is served
there, one that its home forwarded by the sharer, and one that waits for the fill when the line arrives, which makes the way a replica; an
invalidation empties the way (R199, R200, R203 to R208). -/
def Obligations.LinesAndReplicas : Prop :=
  (∀ (s : State) (d : DieIdx) (line a h key : Nat) (l : CLine), a = lineOf line → h = s.homeOf a → (s.half h).homeWay a = some key →
      l = (s.half h).line key →
      (∀ x, (s.ctrl (s.ctrlOf a)).done.find? (fun y => y.1 == a) = some x → l.state = .fill → l.merging = false → s.reloadAt a = none →
        ∃ s1 : State, s1.store = s.store ∧ s1.fab.reqs = s.fab.reqs ∧ (s1.ctrl (s.ctrlOf a)).done = (s.ctrl (s.ctrlOf a)).done.erase x ∧
          (s1.half h).line key = { l with
            state := l.rest, valid := l.valid ||| x.2.1, poison := l.poison ||| x.2.2.2, fetch := 0, waiters := [],
            why := .none, after := .serve,
            data := (sectorList x.2.1).foldl (fun m k => SMap.putBytes m (32 * k) (SMap.getBytes x.2.2.1 (32 * k) 32)) l.data } ∧
          exec (.sectorsArrive line .good) s = .next (State.settle (s1.serveAll l.waiters))) ∧
      (∀ id r, s.req id = some r → r.place = .missed → lineOf r.addr = a → s.homeOf r.addr = h → (s.half h).homeWay r.addr = some key →
        l.state = .hold →
        ∃ s1 : State, s1.fab.reqs = s.fab.reqs ∧ (s1.half h).line key = { l with state := l.rest, why := .none, waiters := [] } ∧
          exec (.forwardMiss id) s = .next (State.settle (
            let m := s1.homeServe id false
            ((m.1.serveAll l.waiters).1, m.2 ++ (m.1.serveAll l.waiters).2)))) ∧
      (∀ dies : BitVec 8, l.state = .hold → l.why = .invalidate dies → dies.getLsbD d = true → s.noReplica d a = true →
        ∃ s1 : State, s1.fab.reqs = s.fab.reqs ∧
          (s1.half h).line key = { l with
            why := .invalidate (dies &&& ~~~(1#8 <<< d.val)), sharers := l.sharers &&& ~~~(1#8 <<< d.val) } ∧
          exec (.invalidationAck d line) s = .next (if dies = 1#8 <<< d.val then State.settle (s1.holdDone h key) else s1)) ∧
      (l.sharers.getLsbD d = true → s.noReplica d a = true →
        ∃ t, exec (.evictionNotice d line) s = .next t ∧ s.onlyHalf t h ∧
          (t.half h).line key = { l with sharers := l.sharers &&& ~~~(1#8 <<< d.val) }) ∧
      (∀ k, l.state = .hold → l.why = .forward d.val → (s.half (s.replicaHalf d a)).replicaWay a = some k →
        ((s.half (s.replicaHalf d a)).line k).state = .replica →
        (∀ r ∈ s.fab.reqs, lineOf r.addr = a → (∀ e, r.place ≠ .forwarded e) ∧ r.place ≠ .missed) →
        ∃ s1 : State, s1.fab.reqs = s.fab.reqs ∧
          (s1.half h).line key = { l with state := l.rest, why := .none, after := .serve, waiters := [], fetch := 0, merging := false } ∧
          exec (.replicaFillAck d line) s = .next (State.settle (s1.serveAll l.waiters)))) ∧
  (∀ (s : State) (d : DieIdx) (id : Nat) (r : Req) (c slot hr key : Nat) (l : CLine),
      hr = s.replicaHalf d r.addr → (s.half hr).replicaWay r.addr = some key → l = (s.half hr).line key → r.addr % 128 = 0 →
      (∀ (dst size : Nat) (sign ro : Bool) (lanes : List (Nat × Nat)) (fwd : List (Nat × Byte)) (after : Group),
        s.req id = some r → r.agent = .vec c slot → ((s.core c).group slot).occupied = true → l.poison = 0 →
        r.op = .load dst size sign ro lanes fwd →
        after = lanes.foldl (fun (g : Group) e => g.putElem e.1 dst size sign (gather (forwarded fwd l.byte) e.2 (2 ^ size)))
          ((s.core c).group slot) →
        (r.die = d.val → r.place = .replica → s.turnOf r = true → s.homeCheck r = none → l.state = .replica →
          ∃ t, exec (.replicaLookup id) s = .next t ∧ t.store = s.store ∧ t.gone id ∧ (t.core c).group slot = after) ∧
        (r.place = .forwarded d.val → l.state = .replica → s.fillingReplica r = none →
          ∃ t, exec (.forwardReceive id) s = .next t ∧ t.store = s.store ∧ t.gone id ∧ (t.core c).group slot = after) ∧
        (l.state = .rfill → l.valid = 0xF → l.doomed = false → l.waiters = [id] →
          ∃ t, exec (.replicaFillArrive d r.addr) s = .next t ∧ t.store = s.store ∧ t.gone id ∧ (t.core c).group slot = after ∧
            (t.half hr).line key = { l with state := .replica, waiters := [] })) ∧
      (∀ (hk : Nat) (dies : BitVec 8), (s.half (s.homeOf r.addr)).homeWay r.addr = some hk →
        ((s.half (s.homeOf r.addr)).line hk).state = .hold → ((s.half (s.homeOf r.addr)).line hk).why = .invalidate dies →
        dies.getLsbD d = true → l.state = .replica →
        ∃ t, exec (.replicaInvalidate d r.addr) s = .next t ∧ s.onlyHalf t hr ∧ (t.half hr).line key = {}))

/-- Memory controllers serve what waits in order: a write puts its bytes into memory, a fetch hands the bytes of its sectors to the home, a
reduce-writeback combines its touched sectors; a needle read enters the bucket of its bank, which one burst empties. A whole page that a flash
controller accepts is what Tier 3 reads as from then on; a page read reaches its descriptor; the washer reads a sector and poisons one that it
cannot correct; a repair from Tier 3 leaves no sector of its stripe poisoned (R220, R267, R270 to R277, R284). -/
def Obligations.MemoryAndFlash : Prop :=
  (∀ (s : State) (m : CtrlIdx) (x : MemCtrl), x = s.ctrl m →
      (∀ (a : Nat) (bytes : List Byte) (poison : Bool), nextMemOp [] x.queue = some (.write a bytes poison) →
        ∃ t, exec (.memcRequest m .good) s = .next t ∧ t.store = ((s.putMem a bytes).setPoison a poison).store ∧
          (t.ctrl m).queue = x.queue.erase (.write a bytes poison) ∧ t.cores = s.cores) ∧
      (∀ (a : Nat) (mask : BitVec 4), nextMemOp [] x.queue = some (.fetch a mask) →
        ∃ t, exec (.memcRequest m .good) s = .next t ∧ t.store = s.store ∧ t.cores = s.cores ∧
          (t.ctrl m).queue = x.queue.erase (.fetch a mask) ∧
          ∃ bytes : SMap Byte, (t.ctrl m).done = x.done ++ [(lineOf a, mask, bytes, mask &&& s.poisonMask a)] ∧
            ∀ k o, k < 4 → o < 32 → mask.getLsbD k = true → SMap.get 0 bytes (32 * k + o) = s.memByte (lineOf a + 32 * k + o)) ∧
      (∀ (a : Nat) (op : RedOp) (type : RedType) (accs : SMap Word) (k : Nat), k < 4 →
        nextMend [] x.queue = some (.mend a op type (1#4 <<< k) accs) →
        ∃ t, exec (.menderApply m) s = .next t ∧ t.cores = s.cores ∧
          (t.ctrl m).queue = x.queue.erase (.mend a op type (1#4 <<< k) accs) ∧
          t.store = (s.putMem (lineOf a + 32 * k) (redSector op type accs k fun o => s.memByte (lineOf a + o))).store) ∧
      (∀ (id : Nat) (r : Req), s.req id = some r → r.place = .needle → s.ctrlOf r.addr = m → x.bucketed id = false →
        (SMap.get [] x.buckets (s.dramBank r.addr)).length < 16 → s.ctrlCheck r = none →
        ∃ t, exec (.needleRead id) s = .next t ∧ s.onlyCtrl t m ∧
          SMap.get [] (t.ctrl m).buckets (s.dramBank r.addr) = SMap.get [] x.buckets (s.dramBank r.addr) ++ [id]) ∧
      (∀ (bucket id : Nat) (r : Req) (c off len a : Nat) (ndl : Bool), SMap.get [] x.buckets bucket = [id] → s.req id = some r → r.id = id →
        r.op = .dmaRead off len (.tile a) ndl → r.agent.core = some c → sectorsOf r.op.offsets &&& s.poisonMask r.addr = 0 →
        (∀ op ∈ x.queue, op.line = lineOf r.addr → (∃ b k, op = .fetch b k) ∨ ∃ b k, op = .readFor b k) →
        ∃ t, exec (.needleBucketIssue m bucket) s = .next t ∧ t.store = s.store ∧ t.gone id ∧
          SMap.get [] (t.ctrl m).buckets bucket = [] ∧
          (t.core c).tile = SMap.putBytes (s.core c).tile a ((List.range len).map fun j => s.memByte (lineOf r.addr + (off + j))))) ∧
  (∀ (s : State) (id : Nat) (r : Req),
      (∀ bytes : List (Nat × Byte), s.req id = some r → r.op = .write bytes → r.place = .flash → bytes.length = 16384 →
        s.turnOf r = true → s.flashCheck r = none →
        ∃ t, exec (.flashWriteAccept id) s = .next t ∧ t.gone id ∧ t.store.mem = s.store.mem ∧
          t.store.flash = bytes.foldl (fun m e => SMap.set 0 m (r.addr - tier3Base + e.1) e.2) s.store.flash) ∧
      (∀ (off len a c : Nat) (ndl : Bool), s.req id = some r → r.op = .dmaRead off len (.tile a) ndl → r.place = .flash →
        r.agent.core = some c → s.turnOf r = true → s.flashCheck r = none →
        ∃ t, exec (.flashReadComplete id 0) s = .next t ∧ t.gone id ∧ t.store = s.store ∧
          (t.core c).tile = SMap.putBytes (s.core c).tile a (s.flashBytes (r.addr + off) len)) ∧
      (∀ (h : HalfIdx) (a : Nat), a % 32 = 0 → (s.locOf a).isSome → s.homeOf a = h →
        (∃ t, exec (.washerSector h a .good) s = .next t ∧ t.store = s.store ∧ t.cores = s.cores ∧
          SMap.get 0 (t.ctrl (s.ctrlOf a)).counters 0x100 = SMap.get 0 (s.ctrl (s.ctrlOf a)).counters 0x100 + 1) ∧
        ∀ kind, s.reloadAt a = none →
          ∃ t, exec (.washerSector h a (.uncorrectable kind)) s = .next t ∧ t.store.mem = s.store.mem ∧ t.poisoned a = true) ∧
      (∀ (h : HalfIdx) (x : Repair) (src : ReloadSource) (a : Nat), (s.half h).repair = some x →
        SMap.get none s.store.reloads x.source = some src → x.copyAddr src = some (false, a) →
        ∃ t, exec (.repairComplete h true) s = .next t ∧ ∀ i, i < x.len / 32 → t.poisoned (x.stripe + 32 * i) = false))

/-! Bundles, arbiters and translation. -/

/-- The expected flit moves its receiver's sequence number on; a bad or unexpected one is NAKed once; NAK and replay timeout make the sender resend
from the named flit; credits are taken over; the eighth replay from one number retrains the bundle. Retraining ends with both senders at their
oldest flits; a lost bundle carries nothing in either direction, and one that is no neighbour bundle, like an error of a seam, stops the
module; a first cut-off holds its requester off until Valac clears it (R318 to R323, R329, R334). -/
def Obligations.Links : Prop :=
  (∀ (s : State) (b : BundleIdx) (dir : Bool) (x : Bundle) (y z : BundleDir),
      x = s.bundle b → y = x.dir dir → z = x.dir (!dir) → x.trained = true → x.retraining = false → y.width ≠ 2 →
      (∀ seq : BitVec 9, seq.toNat = y.expected → y.expected = y.nextSeq → y.unacked < 256 →
        (∃ t, exec (.bundleFlitReceive b dir seq true none) s = .next t ∧ s.onlyBundle t b ∧
          { (t.bundle b).dir dir with counters := y.counters } =
            { y with nextSeq := (y.nextSeq + 1) % 512, expected := (y.expected + 1) % 512, nakSent := false } ∧
          { (t.bundle b).dir (!dir) with counters := z.counters } = z ∧
          (∀ off, SMap.get 0 ((t.bundle b).dir dir).counters off = SMap.get 0 y.counters off + if off = 0x100 then 1 else 0) ∧
          ∀ off, SMap.get 0 ((t.bundle b).dir (!dir)).counters off = SMap.get 0 z.counters off + if off = 0x108 then 1 else 0) ∧
        ∃ t, exec (.bundleFlitReceive b dir seq false none) s = .next t ∧ ((t.bundle b).dir dir).expected = y.expected ∧
          ((t.bundle b).dir dir).nakSent = true ∧
          t.out = if y.nakSent then s.out else .nak b dir y.expected :: s.out) ∧
      (∀ seq n : Nat, y.unacked ≠ 0 → seq = y.oldest → n = (y.nextSeq + 512 - seq) % 512 →
        ∀ i ∈ [Instr.bundleReplayTimeout b dir, .bundleNak b dir (BitVec.ofNat 9 seq)], seq < 512 →
        ∃ t, exec i s = .next t ∧ s.onlyBundle t b ∧
          (t.bundle b).dir dir = { y with replays := if seq = y.replayFrom then y.replays + 1 else 1, replayFrom := seq } ∧
          { (t.bundle b).dir (!dir) with counters := z.counters } = z ∧
          ∀ off, SMap.get 0 ((t.bundle b).dir (!dir)).counters off =
            SMap.get 0 z.counters off + if off = 0x108 ∨ off = 0x120 then BitVec.ofNat 64 n else 0) ∧
      (∀ counts : List Byte, counts.length ≤ 48 →
        ∃ t, exec (.bundleCredit b dir counts) s = .next t ∧ s.onlyBundle t b ∧ (t.bundle b).dir (!dir) = z ∧
          { (t.bundle b).dir dir with freed := y.freed } = y ∧
          ∀ q, SMap.get 0 ((t.bundle b).dir dir).freed q = if h : q < counts.length then counts[q] else SMap.get 0 y.freed q) ∧
      (x.d0.width ≠ 2 → 8 ≤ x.d0.replays ∨ 8 ≤ x.d1.replays →
        ∃ t, exec (.bundleRetrain b) s = .next t ∧ (t.bundle b).retraining = true ∧ t.cores = s.cores ∧ t.store = s.store ∧
          ∀ k, k ≠ b.val → t.bundle k = s.bundle k)) ∧
  (∀ (s : State) (b : BundleIdx) (x : Bundle), x = s.bundle b →
      (x.retraining = true → s.links.darnMap = [] →
        ∃ t, exec (.bundleRetrainDone b []) s = .next t ∧ (t.bundle b).retraining = false ∧ t.store = s.store ∧
          ∀ d, ((t.bundle b).dir d).replays = 0 ∧ ((t.bundle b).dir d).nakSent = false ∧
            ((t.bundle b).dir d).replayFrom = (x.dir d).oldest ∧ ((t.bundle b).dir d).expected = (x.dir d).expected ∧
            ((t.bundle b).dir d).nextSeq = (x.dir d).nextSeq ∧ ((t.bundle b).dir d).width = (x.dir d).width) ∧
      (x.d0.width ≠ 2 →
        ∃ t, exec (.bundleLost b) s = .next t ∧ (∀ d, ((t.bundle b).dir d).width = 2 ∧ ((t.bundle b).dir d).unacked = 0) ∧
          (6 ≤ b.val → t.sys.state = 3)) ∧
      (∀ d : DieIdx, ∃ t, exec (.seamUe d) s = .next t ∧ t.sys.state = 3 ∧ t.cores = s.cores ∧ t.store = s.store ∧
        ∀ p y, t.part p = some y → y.state ≠ .running) ∧
      (∀ (p : ArbId) (r : Fin 64) (a : Arb), a = s.arb (arbKey p) →
        (r.val < (arbInfo (arbKey p)).2.1 → a.cutoff.getLsbD r = false → SMap.get 0 a.lastCut r = 0 →
          ∃ t, exec (.portCutoff p r) s = .next t ∧ (t.arb (arbKey p)).cutoff = a.cutoff ||| (1#64 <<< r.val) ∧
            (t.arb (arbKey p)).stuck = a.stuck ∧ t.cores = s.cores ∧ t.sys = s.sys) ∧
        ∃ t, exec (.arbCutoffClear p r) s = .next t ∧ s.onlyArb t (arbKey p) ∧
          t.arb (arbKey p) = { a with cutoff := a.cutoff &&& (~~~(1#64 <<< r.val) ||| a.stuck) }))

/-- A walk over one level whose entry is a leaf that allows the access answers its DMA row: the descriptor goes on, and the entry stands in the
second-level cache of its half; a Translation Completion does so in ATS mode, and asks for a page where it allows no read. A row that waits for a
page sends one page request while an allocation is free, goes back to translating when it succeeds, and fails with cause 0x09 when no answer
comes, or 0x07 when it is refused (R295 to R300, R308 to R310). -/
def Obligations.TranslationsAndPages : Prop :=
  (∀ (s : State) (row : Nat) (r : XRow) (x : Ctx) (c uid : Nat), s.row row = some r → s.ctxById r.ctx = some x → r.state = .translate →
      r.pin = none → r.dma = some (c, uid) →
      (∀ (f : FormatDesc) (lo n size page pa : Nat) (e : DWord) (cas : Bool), x.ats = false → s.canonical r.ctx r.va = true →
        f = SMap.get {} s.xlat.formats x.fmt → f.levels = 1 → f.index = [(lo, n)] → s.ownWindow (x.root + 8 * bitsOf r.va lo n) = none →
        f.accessed = 0xFF → f.dirty = 0xFF → e.getLsbD f.present = true → f.userOpen e = true → (r.write = true → f.allowsWrite e = true) →
        size = 2 ^ lo → page = r.va / size * size → pa = f.field e / size * size → s.meetsWindow pa size = false →
        ∃ t, exec (.walkComplete row [e] cas) s = .next t ∧ t.row row = none ∧ t.store = s.store ∧
          (∀ y ∈ (t.core c).dmaQ, y.uid = uid → y.stall = none) ∧
          (t.l2tlb (c / 40)).head? = some { ctx := r.ctx, va := page, size, out := pa, kind := .hostTranslated, writable := f.allowsWrite e,
                                            attr := f.attrOf e, pinned := false }) ∧
      (x.ats = true → r.skip = 0 →
        (∀ (size : Nat) (addr : DWord) (w : Bool) (n : Nat), n = Nat.max size 4096 → (r.write = true → w = true) →
          s.meetsWindow (addr.toNat / n * n) n = false →
          ∃ t, exec (.atsCompletion row true true w false size addr) s = .next t ∧ t.row row = none ∧ t.store = s.store ∧
            (∀ y ∈ (t.core c).dmaQ, y.uid = uid → y.stall = none) ∧
            (t.l2tlb (c / 40)).head? = some { ctx := r.ctx, va := r.va / n * n, size := n, out := addr.toNat / n * n,
                                              kind := .hostTranslated, writable := w, attr := 0, pinned := false }) ∧
        (∀ (size : Nat) (addr : DWord) (w u : Bool), r.asked = false → (s.pri x.fn).enabled = true → (s.pri x.fn).stopped = false →
          ∃ t, exec (.atsCompletion row true false w u size addr) s = .next t ∧ t = s.setRow row (some { r with state := .waitSlot })))) ∧
  (∀ (s : State) (row : Nat) (r : XRow) (x : Ctx) (fn : FnIdx), s.row row = some r → s.ctxById r.ctx = some x → x.fn = fn →
      (r.state = .waitSlot → (s.pri fn).enabled = true → (s.pri fn).stopped = false → (s.pri fn).busy.length < (s.pri fn).alloc →
        ∃ t i, exec (.pageRequestSend row) s = .next t ∧ (∀ b ∈ (s.pri fn).busy, b.idx ≠ i) ∧
          (t.pri fn).busy = (s.pri fn).busy ++ [{ idx := i, row, ctx := r.ctx, cancelled := false }] ∧
          t.row row = some { r with state := .waitPri, asked := true } ∧ t.out = .pageRequest fn x.pasid r.va i r.write :: s.out) ∧
      (∀ b : PageReq, (s.pri fn).busy.find? (fun y => y.idx == b.idx) = some b → b.cancelled = false → b.row = row →
        (∃ t, exec (.priResponse fn b.idx .success) s = .next t ∧ (t.pri fn).busy = (s.pri fn).busy.erase b ∧
          (t.pri fn).stopped = (s.pri fn).stopped ∧ t.row row = some { r with state := .translate }) ∧
        (∀ w, r.dma = none → r.pin = some w → ∃ t, exec (.priResponse fn b.idx .invalid) s = .next t ∧
          (t.pri fn).busy = (s.pri fn).busy.erase b ∧
          t.row row = some { r with state := .done, pin := some { w with failed := some (stInvalid, r.va) } }) ∧
        ∃ t, exec (.priResponse fn b.idx .failure) s = .next t ∧ (t.pri fn).stopped = true) ∧
      (∀ w, r.state = .waitPri → r.dma = none → r.pin = some w →
        ∃ t, exec (.priTimeout row) s = .next t ∧ (∀ f, ∀ b ∈ (t.pri f).busy, b.row ≠ row) ∧
          t.row row = some { r with state := .done, pin := some { w with failed := some (stInvalid, r.va) } }) ∧
      (∀ (c uid : Nat) (e : DmaEntry), r.state = .waitPri → r.dma = some (c, uid) → (s.core c).dmaQ.find? (fun y => y.uid == uid) = some e →
        ∃ s1 : State, s1.cores = s.cores ∧ s1.row row = none ∧
          exec (.priTimeout row) s = .next (s1.takeFault
            { core := c, ctx := r.ctx, part := (s.core c).partition, kind := 0x01, cause := 9, addr := r.va,
              site := { slot := e.slot, pc := e.pc, active := e.active, live := e.live } })))

/-- An Invalidate Request empties the translation caches of its context of every entry that its range meets, marks the windows there, and is
answered when nothing that used them is outstanding; an access whose target never answers retires with UNREACHABLE
(R185, R186, R304, R307). -/
def Obligations.InvalidationsAndTimeouts : Prop :=
  ∀ (s : State) (fn : FnIdx),
    (∀ (pasid : BitVec 20) (global : Bool) (addr : DWord) (size ctx : Nat), ctx ∈ s.invalTargets fn pasid.toNat global →
      ∃ t, exec (.atsInvalidateRequest fn pasid global addr size) s = .next t ∧ t.store = s.store ∧
        (∀ h, ∀ e ∈ t.l2tlb h, e.ctx = ctx → meets e.va e.size addr.toNat size = false) ∧
        (∀ c, ∀ e ∈ (t.core c).utlb ++ (t.core c).dtlb, e.ctx = ctx → meets e.va e.size addr.toNat size = false) ∧
        (∃ i ∈ (t.pri fn).inval, i.pasid = pasid.toNat ∧ i.every = global ∧ i.addr = addr.toNat ∧ i.size = size)) ∧
    (∀ i, (s.pri fn).inval = [i] → s.invalDrained (s.invalTargets fn i.pasid i.every) i.upto = true →
      ∃ t, exec (.atsInvalidateComplete fn) s = .next t ∧ (t.pri fn).inval = [] ∧ t.out = .invalidateDone fn :: s.out ∧ t.store = s.store) ∧
    (∀ (id : Nat) (r : Req) (c slot : Nat), s.req id = some r → r.place = .host → r.agent = .vec c slot →
      ∃ s1 : State, s1.cores = s.cores ∧ (∀ x ∈ s1.fab.reqs, x.ctx = r.ctx → x.place = .host → x.agent.core = none) ∧
        exec (.targetTimeout (.request id)) s = .next (s1.takeFault
          { core := c, ctx := r.ctx, part := r.part, site := r.site, kind := 0x0A, detail := 0, cause := 0, addr := r.va }))

/-! Mailboxes and their commands. -/

/-- A doorbell of an enabled function makes its idle mailbox BUSY, and an overrun of a busy one changes nothing else; Valac takes up the next
mailbox, and answers a command that fails one of the checks 1 to 4 with its status (R340 to R342, R349). -/
def Obligations.DoorbellsAndAcceptance : Prop :=
  (∀ (s : State) (m : MbxIdx) (v : Word) (fn : Nat), mbxFn m = some fn → s.sys.valacUp = true → s.fnEnabled fn = true →
    ∃ t, exec (.mbxDoorbell m v) s = .next t ∧ { t with valac := s.valac } = s ∧ (∀ k, k ≠ m.val → t.mbx k = s.mbx k) ∧
      t.mbx m = if (s.mbx m).state = 1 then { s.mbx m with overrun := true } else { s.mbx m with state := 1, doorbell := v.setWidth 16 }) ∧
  (∀ (s : State) (m : Nat) (c : Cmd) (i : CmdInfo) (h : List Byte), s.sys.valacUp = true → s.valac.cur = none → s.nextMbx = some m →
    c = s.readCmd m → h = SMap.getBytes (s.mbx m).buffer 0 32 →
    fieldAt h 4 4 ≤ 4064 → fieldAt h 9 1 ≤ 1 → zeroAt h 10 6 = true → zeroAt h 24 8 = true → c.seq = (s.mbx m).doorbell →
    (cmdInfo c.opcode = none → ∃ t, exec .commandAccept s = .next t ∧ s.answered t c 2 []) ∧
    (cmdInfo c.opcode = some i →
      (s.notPermitted c i (fieldAt h 8 1) = true → ∃ t, exec .commandAccept s = .next t ∧ s.answered t c 4 []) ∧
      (s.notPermitted c i (fieldAt h 8 1) = false → s.notReady c i = true → ∃ t, exec .commandAccept s = .next t ∧ s.answered t c 10 []) ∧
      (s.notPermitted c i (fieldAt h 8 1) = false → s.notReady c i = false →
        ∃ t, exec .commandAccept s = .next t ∧ t = { s with valac := { s.valac with cur := some c } })))

/-- The commands that ask answer SUCCESS with the payload of their rule, and change nothing but the response's own events (R348, R353, R358,
R359, R360, R361, R362, R366). -/
def Obligations.QueriesAnswer : Prop :=
  ∀ (s : State) (c : Cmd),
    (s.doing c 0x0000 0 [] → ∃ t p, exec .identify s = .next t ∧ s.answered t c 0 p ∧
      p.take 44 = padTo 16 s.fw.partNumber ++ padTo 16 s.fw.serial ++ leBytes 2 s.fw.grade ++ leBytes 2 s.enabledArrays ++
        leBytes 4 (bit s.fw.belowGrade) ++ leBytes 4 (if s.fw.recovery then 0 else s.fw.running.version)) ∧
    (s.doing c 0x0001 0 [] → ∃ t p, exec .getStatus s = .next t ∧ s.answered t c 0 p ∧
      p.take 3 = leBytes 1 s.sys.state ++ leBytes 1 s.sys.step ++ leBytes 1 s.twin.code ∧ p.drop 24 = leBytes 8 s.now) ∧
    (s.doing c 0x0002 c.payload.length [] → ∃ t, exec .echo s = .next t ∧ s.answered t c 0 c.payload) ∧
    (s.doing c 0x0501 0 [] → ∃ t p, exec .meridianRead s = .next t ∧ s.answered t c 0 p ∧
      p.take 10 = leBytes 8 s.now ++ leBytes 1 s.time.source ++ leBytes 1 (bit (s.time.state == .locked))) ∧
    (s.doing c 0x0502 0 [] → ∃ t n k, exec .almanacQuery s = .next t ∧ ({ s with free := k } : State).answered t c 0
        (leBytes 2 ((s.work.launches.filter fun l => !s.foreignTo c l.part).flatMap s.pendingTransits).length ++ leBytes 6 0 ++ leBytes 8 n)) ∧
    (s.doing c 0x0603 0 [] → ∃ t, exec .powerQuery s = .next t ∧ s.answered t c 0
      (leBytes 8 s.power.energy ++ leBytes 8 (s.power.rinseEnergy / 10) ++ leBytes 4 s.power.mean ++ leBytes 4 s.power.limit ++
        leBytes 2 s.power.ramp ++ List.replicate 6 0)) ∧
    (s.doing c 0x0704 0 [] → ∃ t p, exec .takeoverStatus s = .next t ∧ s.answered t c 0 p ∧ fieldAt p 0 8 = bit s.twin.ready ∧
      ∀ w, w < 64 → fieldAt p (8 + 8 * w) 8 =
        (s.win w).state.code * 2 ^ 60 + if (s.win w).mode = 2 then (s.win w).applied % 2 ^ 48 else 0) ∧
    (∀ (x : Part) (r : Rect), s.doing c 0x0106 4 [(1, 3)] → s.part (c.arg 0 1) = some x → s.rect (c.arg 0 1) = some r →
      s.foreignTo c (c.arg 0 1) = false → s.partBusy (c.arg 0 1) = false →
      ∃ t p, exec .partQuery s = .next t ∧ s.answered t c 0 p ∧
        p.take 8 = leBytes 1 x.state.code ++ leBytes 1 (bit x.be) ++ leBytes 1 r.x0 ++ leBytes 1 r.y0 ++ leBytes 1 r.w ++ leBytes 1 r.h ++
          leBytes 2 x.mask.toNat) ∧
    (∀ q : Queue, s.doing c 0x0305 4 [(2, 2)] → s.queue (c.arg 0 2) = some q → s.foreignTo c q.part = false →
      s.locked (.queue (c.arg 0 2)) = false →
      ∃ t, exec .queueQuery s = .next t ∧ s.answered t c 0 (leBytes 4 q.state.code ++ leBytes 4 q.head.toNat ++ leBytes 4 q.tail.toNat)) ∧
    (s.doing c 0x0807 0 [] → ∃ t, exec .boundQuery s = .next t ∧ s.answered t c 0
      ([(0, 255), (1, 64), (2, 32), (3, 16), (4, 8)].flatMap fun (e : Nat × Nat) => leBytes 2 (SMap.get 0 s.fw.used e.1) ++ leBytes 2 e.2)) ∧
    (s.doing c 0x0808 8 [] → ∃ t, exec .auditRead s = .next t ∧ s.answered t c 0
      (((s.fw.audit.filter fun e => decide (c.arg 0 8 ≤ e.index)).take 63).flatMap AuditEntry.bytes)) ∧
    (s.doing c 0x0902 16 [(10, 6)] → ∃ t, exec .logRead s = .next t ∧ s.answered t c 0
      ((((s.log.flash ++ s.log.held).filter fun e => decide (c.arg 0 8 ≤ e.index)).take (Nat.min 63 (c.arg 8 2))).flatMap LogEntry.bytes)) ∧
    (s.doing c 0x0903 0 [] → ∃ t, exec .telemetryRead s = .next t ∧ s.answered t c 0 (padTo 4064 s.power.telemetry)) ∧
    (∀ h : HalfIdx, c.role ≠ 1 → c.arg 0 8 < 2 ^ 40 → c.arg 0 8 % 4 = 0 → c.arg 8 1 = 4 →
      (∀ p : Fin 64, s.doing c 0x0900 16 [(9, 1), (12, 4)] → c.arg 10 2 = 1 → icsBlock (c.arg 0 8) = (.half h, 0x1000 + 4 * p.val) →
        ∃ t, exec .regRead s = .next t ∧ s.answered t c 0 (leBytes 4 (SMap.get 0 (s.half h).waymask p).toNat)) ∧
      (s.doing c 0x0901 24 [(9, 1), (12, 4)] → c.arg 10 2 = 1 → icsBlock (c.arg 0 8) = (.half h, 0xF8) → c.arg 16 8 = 1 →
        ∃ t, exec .regWrite s = .next t ∧ (s.setHalf h { s.half h with counters := [] }).answered t c 0 []))

/-- The commands that set a value answer SUCCESS and set it, and nothing else. Bounded settings, staging and identity: a change is counted once with
an audit entry, a request for what already holds counts nothing, and a spent bound answers BOUND_EXHAUSTED (R277, R293, R310, R354, R355, R358,
R359, R406, R513, R527 to R529). -/
def Obligations.Settings : Prop :=
  (∀ (s : State) (c : Cmd), s.committing = false →
      (s.doing c 0x0500 4 [(2, 2)] → c.arg 0 1 ≤ 2 → c.arg 1 1 ≤ 127 → s.twin.state ≠ .paired →
        ∃ t, exec .meridianSource s = .next t ∧ { t with time := s.time, valac := s.valac, out := s.out, host := s.host, fw := s.fw } = s ∧
          t.time.source = c.arg 0 1 ∧ t.time.domain = c.arg 1 1 ∧ t.time.master = s.time.master ∧ (t.mbx c.mbx).state = 2) ∧
      (∀ p : Power, s.doing c 0x0600 4 [] → 1500 ≤ c.arg 0 4 → c.arg 0 4 ≤ 6800 →
        p = (if c.role = 2 then { s.power with limitC := c.arg 0 4 } else { s.power with limitM := c.arg 0 4 }) →
        ∃ t, exec .powerLimit s = .next t ∧ (s.withLimits p).answered t c 0 (leBytes 4 p.limit)) ∧
      (∀ p : Power, s.doing c 0x0601 4 [(2, 2)] → 5 ≤ c.arg 0 2 → c.arg 0 2 ≤ 200 →
        p = (if c.role = 2 then { s.power with rampC := c.arg 0 2 } else { s.power with rampM := c.arg 0 2 }) →
        ∃ t, exec .rinseRamp s = .next t ∧ ({ s with power := p } : State).answered t c 0 (leBytes 2 p.ramp ++ leBytes 2 0)) ∧
      (∀ x : Part, s.doing c 0x0602 4 [(2, 2)] → s.part (c.arg 0 1) = some x → c.arg 1 1 ≤ 15 → s.partBusy (c.arg 0 1) = false →
        ∃ t, exec .pstepRange s = .next t ∧ (s.setPart (c.arg 0 1) (some { x with pstepMin := c.arg 1 1 })).answered t c 0 []) ∧
      (s.doing c 0x0240 8 [(2, 2)] → c.arg 0 2 ≤ 1000 → c.arg 4 4 ≤ 60000 →
        ∃ t, exec .setTimeouts s = .next t ∧
          ({ s with xlat := { s.xlat with targetTimeout := if c.arg 0 2 = 0 then s.xlat.targetTimeout else c.arg 0 2,
                                          priTimeout := if c.arg 4 4 = 0 then s.xlat.priTimeout else c.arg 4 4 } } : State).answered t c 0
            (leBytes 2 (if c.arg 0 2 = 0 then s.xlat.targetTimeout else c.arg 0 2) ++ leBytes 2 0 ++
              leBytes 4 (if c.arg 4 4 = 0 then s.xlat.priTimeout else c.arg 4 4))) ∧
      (s.doing c 0x0242 4 [(1, 3)] → 2 ≤ c.arg 0 1 → c.arg 0 1 ≤ 168 →
        ∃ t, exec .washPeriodSet s = .next t ∧
          ({ s with store := { s.store with washHours := c.arg 0 1 } } : State).answered t c 0 (leBytes 4 (c.arg 0 1))) ∧
      (s.doing c 0x0210 72 [(2, 6)] → c.arg 0 1 ≤ 7 → c.arg 1 1 = 0 → firstBad (badFormat ((c.payload.drop 8).take 64)) = none →
        (∀ e ∈ s.xlat.ctxs, e.2.state ≠ 0 → e.2.ats = true ∨ e.2.fmt ≠ c.arg 0 1) →
        ∀ x : FormatDesc, x = formatOf ((c.payload.drop 8).take 64) →
        ∃ t, exec .formatSet s = .next t ∧
          ({ s with xlat := { s.xlat with formats := SMap.set {} s.xlat.formats (c.arg 0 1) x } } : State).answered t c 0 []) ∧
      (∀ (x : Ctx) (i : Nat), s.doing c 0x0112 8 [(2, 2)] → s.ctxById (c.arg 0 2) = some x → i = c.arg 0 2 % 1024 →
        s.foreignTo c x.partition = false → s.locked (.ctx (c.arg 0 2)) = false →
        ∃ t, exec .ctxSetWatchdog s = .next t ∧ (s.setCtx i { s.ctx i with watchdog := BitVec.ofNat 32 (c.arg 4 4) }).answered t c 0 []) ∧
      (s.doing c 0x0202 16 [(2, 6)] → c.arg 0 1 ≤ 15 → (s.part (c.arg 1 1)).isSome → (∀ q, s.partBusy q = false) →
        (∀ l ∈ s.work.launches, l.running = false) →
        ∀ x : ShareGroup, x = { members := BitVec.ofNat 64 (c.arg 8 8), loader := some (c.arg 1 1) } →
        ∃ t, exec .shareGroupSet s = .next t ∧
          ({ s with store := { s.store with shares := SMap.set {} s.store.shares (c.arg 0 1) x } } : State).answered t c 0 []) ∧
      (∀ x : ReloadSource, s.doing c 0x0221 4 [(1, 3)] → SMap.get none s.store.reloads (c.arg 0 1) = some x →
        ∃ t, exec .reloadRemove s = .next t ∧
          ({ s with store := { s.store with reloads := SMap.set none s.store.reloads (c.arg 0 1) none } } : State).answered t c 0 []) ∧
      (s.doing c 0x0220 48 [(1, 7), (0x1A, 6)] → c.arg 0 1 ≤ 63 → c.arg 8 8 % 2097152 = 0 → c.arg 0x10 8 % 2097152 = 0 →
        addrClass (c.arg 8 8) ≠ .tier3 → inOneTier (c.arg 8 8) (c.arg 0x10 8) = true → s.allMapped (c.arg 8 8) (c.arg 0x10 8) = true →
        inOneTier (c.arg 8 8) 2097152 = true → s.allMapped (c.arg 8 8) 2097152 = true →
        c.arg 0x18 1 = 1 → c.arg 0x19 1 = 0 → c.arg 0x20 8 % 16384 = 0 → addrClass (c.arg 0x20 8) = .tier3 →
        inOneTier (c.arg 0x20 8) (c.arg 0x10 8) = true → SMap.get none s.store.reloads (c.arg 0 1) = none →
        ∀ x : ReloadSource, x = { base := c.arg 8 8, len := c.arg 0x10 8, copies := [(false, c.arg 0x20 8)] } →
        ∃ t, exec .reloadAdd s = .next t ∧
          ({ s with store := { s.store with reloads := SMap.set none s.store.reloads (c.arg 0 1) (some x) } } : State).answered t c 0 [])) ∧
  (∀ (s : State) (c : Cmd), s.committing = false → s.twin.state ≠ .paired →
      (∀ (i limit : Nat) (instr : Instr) (op len : Nat) (zero : List (Nat × Nat)) (args same : Prop),
        (i, limit, instr, op, len, zero) ∈ [(0, 255, Instr.secFloorRaise, 0x0802, 4, [(1, 3)]), (1, 64, .pairIdSet, 0x0803, 64, []),
          (4, 8, .mgmtIdLock, 0x0806, 64, [(0x11, 15)])] →
        args = (if i = 0 then s.fw.floor ≤ c.arg 0 1 ∧ c.arg 0 1 ≤ s.fw.running.secver
          else if i = 4 then c.arg 0x10 1 ≤ 128 ∧ (zeroAt c.payload 0 16 = true → c.arg 0x10 1 = 0) else True) →
        same = (if i = 0 then c.arg 0 1 = s.fw.floor else if i = 1 then s.fw.pairId = some c.payload
          else 0 < SMap.get 0 s.fw.used 4 ∧ s.fw.mgmtId = c.payload) →
        s.doing c op len zero → args →
        (same → ∃ t, exec instr s = .next t ∧ (t.mbx c.mbx).state = 2 ∧ t.fw.used = s.fw.used ∧ t.fw.audit = s.fw.audit) ∧
        (¬ same → limit ≤ SMap.get 0 s.fw.used i → ∃ t, exec instr s = .next t ∧ s.answered t c 7 []) ∧
        (¬ same → SMap.get 0 s.fw.used i < limit →
          ∃ t, exec instr s = .next t ∧ (t.mbx c.mbx).state = 2 ∧ t.cores = s.cores ∧ t.store = s.store ∧
            (∀ k, SMap.get 0 t.fw.used k = SMap.get 0 s.fw.used k + if k = i then 1 else 0) ∧
            (∃ e, t.fw.audit.getLast? = some e ∧ e.setting = i ∧ e.opcode = op ∧ e.role = c.role ∧ e.used = SMap.get 0 s.fw.used i + 1) ∧
            t.fw.floor = (if i = 0 then c.arg 0 1 else s.fw.floor) ∧
            t.fw.pairId = (if i = 1 then some c.payload else s.fw.pairId) ∧ t.fw.mgmtId = (if i = 4 then c.payload else s.fw.mgmtId))) ∧
      (s.doing c 0x0804 8 [(2, 2)] → c.arg 0 2 = 1 → bitsOf (c.arg 4 4) 27 5 ≤ 20 → bitsOf (c.arg 4 4) 18 8 ≤ 191 → bitsOf (c.arg 4 4) 13 5 ≤ 16 →
        c.arg 4 4 % 8192 = 4096 → s.fw.darn.length < 4096 → SMap.get 0 s.fw.used 2 < 32 →
        (∀ w ∈ s.fw.darn, darnWire w ≠ darnWire (BitVec.ofNat 32 (c.arg 4 4))) →
        ∃ t, exec .darnAmend s = .next t ∧ (t.mbx c.mbx).state = 2 ∧ t.fw.darn = s.fw.darn ++ [BitVec.ofNat 32 (c.arg 4 4)] ∧
          SMap.get 0 t.fw.used 2 = SMap.get 0 s.fw.used 2 + 1) ∧
      (∀ k : CoreIdx, s.doing c 0x0805 4 [] → c.arg 0 2 = 1 → c.arg 2 1 ≤ 39 → c.arg 3 1 ≤ 15 → coreAt (c.arg 2 1) (c.arg 3 1) = some k →
        k.val ∉ s.fw.patch → SMap.get 0 s.fw.used 3 < 16 →
        ∃ t, exec .patchAmend s = .next t ∧ (t.mbx c.mbx).state = 2 ∧ t.fw.patch = s.fw.patch ++ [k.val] ∧
          SMap.get 0 t.fw.used 3 = SMap.get 0 s.fw.used 3 + 1) ∧
      (∀ n : Nat, s.doing c 0x0800 (8 + n) [] → n = c.arg 4 4 → 0 < n → n ≤ 4056 → c.arg 0 4 + n ≤ 67108864 → s.fw.claim = some c.mbx →
        c.arg 0 4 ≠ 0 →
        ∃ t, exec .fwStage s = .next t ∧ ({ s with fw := { s.fw with
          staged := SMap.putBytes s.fw.staged (c.arg 0 4) ((c.payload.drop 8).take n), claimIdle := s.time.beats } } : State).answered t c 0 []) ∧
      (s.fw.claim.isSome → s.fw.claimIdle + 60000000 ≤ s.time.beats → s.fw.recovery = false →
        ∃ t, exec .fwStageClaimTimeout s = .next t ∧ t = { s with fw := { s.fw with claim := none, staged := [] } }) ∧
      (s.sys.standby = true → s.log.dropped = 0 → s.log.flash.length + s.log.held.length ≤ 262144 →
        ∃ t, exec .logFlush s = .next t ∧ t = { s with log := { s.log with flash := s.log.flash ++ s.log.held, held := [] } }))

/-! Partitions, contexts, memory ownership, queues and kernels. -/

/-- PART_CREATE gives a new partition its rectangle, class, function, slice and ways; a resize waits while a kernel runs and comes into force
at a kernel boundary; quiesce and resume move the state (R354, R418 to R424, R428). -/
def Obligations.Partitions : Prop :=
  ∀ (s : State) (c : Cmd) (p : Nat), p = c.arg 0 1 →
    (s.doing c 0x0100 16 [(7, 1), (14, 2)] → p ≤ 63 → c.arg 1 1 ≤ 64 → s.rectFits c → s.part p = none → s.rectTaken p c.rect = false →
      (c.arg 1 1 ≠ 0 → ∀ e ∈ s.work.parts, ∀ x, e.2 = some x → x.fn ≠ c.arg 1 1) → s.locked (.part p) = false →
      ∃ t x, exec .partCreate s = .next t ∧ t.valac.cur = none ∧ (t.mbx c.mbx).state = 2 ∧ t.part p = some x ∧ x.state = .running ∧
        x.be = (c.arg 6 1 == 1) ∧ x.fn = c.arg 1 1 ∧ x.slice = (if c.arg 8 4 = 0 then 2000 else c.arg 8 4) ∧
        x.mask = BitVec.ofNat 16 (c.arg 12 2) ∧ x.resize = none ∧ t.rect p = some c.rect ∧ t.cores = s.cores ∧
        (∀ q, q ≠ p → t.part q = s.part q ∧ t.rect q = s.rect q) ∧
        ∀ h, h < 16 → SMap.get 0 (t.half h).waymask p = BitVec.ofNat 16 (c.arg 12 2)) ∧
    (∀ (x : Part) (r : Rect), s.part p = some x → s.rect p = some r → s.partBusy p = false → s.opsFull c = false →
      (s.doing c 0x0101 16 [(7, 1), (14, 2)] → c.arg 1 1 = x.fn → c.arg 6 1 = bit x.be → s.rectFits c → s.rectTaken p c.rect = false →
        s.kernelRuns p = true → (∃ k ∈ r.cores, k ∉ c.rect.cores) →
        ∃ t z, exec .partResize s = .next t ∧ s.began t c p ∧ t.rects = s.rects ∧ t.cores = s.cores ∧
          t.part p = some { x with resize := some z } ∧ z.rect = c.rect ∧ z.op = s.valac.nextOp ∧ z.inForce = false ∧
          z.mask = BitVec.ofNat 16 (c.arg 12 2)) ∧
      (s.doing c 0x0102 4 [(1, 3)] → x.state = .running →
        ∃ t, exec .partQuiesce s = .next t ∧ s.began t c p ∧ t.rects = s.rects ∧ t.cores = s.cores ∧
          t.part p = some { x with state := .quiescing, op := some s.valac.nextOp })) ∧
    (∀ (i : PartIdx) (x : Part) (z : Resize) (r : Rect), s.part i = some x → x.resize = some z → z.inForce = false → s.rect i = some r →
      s.kernelRuns i = false → (∀ e ∈ s.rects, e.1 ≠ i.val → ∀ y, e.2 = some y → y.overlaps z.rect = false) →
      ∃ t y, exec (.partResizeTakesEffect i) s = .next t ∧ t.rect i = some z.rect ∧ t.part i = some y ∧ y.slice = z.slice ∧ y.mask = z.mask ∧
        ∀ q, q ≠ i.val → t.rect q = s.rect q) ∧
    (∀ (i : PartIdx) (x : Part), s.part i = some x → x.state = .quiescing → s.partQuiet i = true →
      ∃ t, exec (.partQuiesceComplete i) s = .next t ∧ t.part i = some { x with state := .quiesced, op := none } ∧ t.rects = s.rects ∧
        t.cores = s.cores ∧ ∀ o, x.op = some o → t.ended o) ∧
    (∀ x : Part, s.doing c 0x0103 4 [(1, 3)] → s.part p = some x → x.state = .quiesced → s.partBusy p = false → s.committing = false →
      ∃ t, exec .partResume s = .next t ∧
        ((((s.setPart p (some { x with state := .running })).retargetAll.markEligible).admission p).answered t c 0 []))

/-- A reset tears the contexts of its partition down; when their launches have ended the partition is empty and RUNNING, or it is gone with
its rectangle, regions and tags; a reset of a function resets its partition and its own registers (R345, R425 to R427, R491, R502, R534). -/
def Obligations.PartitionResets : Prop :=
  ∀ (s : State) (c : Cmd) (p : Nat) (x : Part), p = c.arg 0 1 → s.part p = some x →
    (x.state = .quiesced → s.partBusy p = false → s.opsFull c = false →
      (s.doing c 0x0104 4 [(1, 3)] →
        ∃ t u, exec .partReset s = .next t ∧ (s.startOp c p).answered u c 0 [] ∧ t.rects = s.rects ∧
          t = (u.noteReset 1 p c.role).beginReset p (some s.valac.nextOp)) ∧
      (s.doing c 0x0105 4 [(1, 3)] →
        ∃ t u, exec .partDestroy s = .next t ∧
          ((s.startOp c p).setPart p (some { x with destroying := true })).answered u c 0 [] ∧ t.rects = s.rects ∧
          t = u.beginReset p (some s.valac.nextOp))) ∧
    (∀ i : PartIdx, i.val = p → x.state = .resetting → s.resetReady p = true →
      (x.destroying = false →
        ∃ t y, exec (.partResetComplete i) s = .next t ∧ t.part p = some y ∧ y.state = .running ∧ y.op = none ∧ t.rects = s.rects ∧
          (∀ l ∈ t.work.launches, l.part ≠ p) ∧ (∀ q z, t.queue q = some z → z.part ≠ p) ∧ (∀ q z, t.cring q = some z → z.part ≠ p) ∧
          (∀ k z, t.kernel k = some z → z.part ≠ p) ∧ (∀ g z, t.graph g = some z → z.part ≠ p)) ∧
      (x.destroying = true → x.resize = none → ((s.emptyPart p).sweepWaysAll p 0xFFFF).waysSwept p 0xFFFF = true →
        ∃ t, exec (.partDestroyComplete i) s = .next t ∧ t.part p = none ∧ t.rect p = none ∧ (∀ q, q ≠ p → t.rect q = s.rect q) ∧
          SMap.get none t.store.regions p = none ∧ SMap.get none t.store.regions (64 + p) = none ∧
          ∀ g, SMap.get 0 t.store.tags g ≠ mkTag 1 p)) ∧
    (∀ v : Fin 64, s.partOfFn (v.val + 1) = none →
      ∃ t, exec (.vfFlr v) s = .next t ∧ t.mbx (v.val + 2) = {} ∧ t.ring (v.val + 1) = {} ∧ t.pri (v.val + 1) = {} ∧
        t.rects = s.rects ∧ t.cores = s.cores ∧ t.store = s.store) ∧
    (s.host.vfEnable = true →
      ∃ t, exec .vfEnableClear s = .next t ∧ t.host.vfEnable = false ∧ t.rects = s.rects ∧
        ∀ k, k < s.host.numVfs → k < 64 → t.mbx (k + 2) = {}) ∧
    (∃ t, exec .pfFlr s = .next t ∧ t.mbx 0 = {} ∧ t.mbx 1 = {} ∧ t.host.vfEnable = false ∧ t.host.aperture = 0 ∧ t.host.refused = false ∧
      (t.ring 0).enable = false ∧ t.rects = s.rects ∧ ∀ q y, t.part q = some y → y.state = .resetting) ∧
    (∃ t, exec .hotReset s = .next t ∧ t.host.bar4Base = [] ∧ t.host.numVfs = 0 ∧ t.host.vfEnable = false ∧ t.mbx 0 = {} ∧
      t.rects = s.rects)

/-- A context takes the lowest free slot (the model's choice, assumption 40) and the next generation; a removed one leaves nothing in the translation caches (R288 to R290). PIN
starts a translation and its end adds a window with its leaves; UNPIN removes the window and its leaves; INVALIDATE answers when nothing that
used the range is outstanding (R302 to R307). -/
def Obligations.ContextsAndWindows : Prop :=
  ∀ (s : State) (c : Cmd) (id : Nat),
    (∀ (p fn i : Nat) (x : Part), p = c.arg 0 1 → fn = c.arg 1 1 → s.doing c 0x0110 32 [(0x19, 3)] → s.part p = some x →
      s.foreignTo c p = false → s.partBusy p = false → (fn = 0 ∨ fn = x.fn) → (c.role = 1 → fn = c.mbx - 1 ∧ c.arg 2 1 = 1) → c.arg 2 1 ≤ 1 →
      (c.arg 2 1 = 0 → c.arg 3 1 ≤ 7 ∧ (s.format (c.arg 3 1)).valid = true) → c.arg 4 4 < 2 ^ 20 →
      (∀ e ∈ s.xlat.ctxs, e.2.state ≠ 0 → e.2.fn = fn → e.2.pasid ≠ c.arg 4 4) → c.arg 0x18 1 ≤ 2 →
      (∀ k, k < 8 → c.arg (0x10 + k) 1 ≤ 2) → i < 1024 → s.slotFree i = true → (∀ j, j < i → s.slotFree j = false) →
      ∃ t y, exec .ctxCreate s = .next t ∧ (s.setCtx i y).answered t c 0 (leBytes 2 (y.gen * 1024 + i) ++ leBytes 2 0) ∧
        y.gen = ((s.ctx i).gen + 1) % 64 ∧ y.state = 1 ∧ y.partition = p ∧ y.fn = fn ∧ y.pasid = c.arg 4 4 ∧ y.ats = (c.arg 2 1 == 1) ∧
        y.windows = [] ∧ y.watchdog = BitVec.ofNat 32 (c.arg 0x1C 4) ∧ (c.arg 2 1 = 0 → y.fmt = c.arg 3 1 ∧ y.root = c.arg 8 8)) ∧
    (∀ x : Ctx, id = c.arg 0 2 → s.ctxById id = some x → s.foreignTo c x.partition = false → s.locked (.ctx id) = false →
      (s.doing c 0x0111 4 [(2, 2)] → (∀ l ∈ s.work.launches, l.ctx = id → l.pending = false) → s.queuesOf id = [] → s.coresOf id = [] →
        ∃ t, exec .ctxDestroy s = .next t ∧ (t.mbx c.mbx).state = 2 ∧ t.ctx (id % 1024) = { gen := x.gen } ∧
          (∀ h, ∀ e ∈ t.l2tlb h, e.ctx ≠ id) ∧ (∀ k, ∀ e ∈ (t.core k).utlb ++ (t.core k).dtlb, e.ctx ≠ id) ∧
          ∀ i, i ≠ id % 1024 → t.ctx i = s.ctx i) ∧
      (s.doing c 0x0211 24 [(3, 5)] → c.arg 2 1 ≤ 1 → c.arg 8 8 % s.granuleOf x = 0 → c.arg 0x10 8 % s.granuleOf x = 0 → c.arg 0x10 8 ≠ 0 →
        c.arg 8 8 + c.arg 0x10 8 ≤ 2 ^ 64 → (∀ w ∈ x.windows, meets w.va w.len (c.arg 8 8) (c.arg 0x10 8) = false) →
        s.windowsFull id = false → s.opsFull c = false →
        ∃ t r, exec .pin s = .next t ∧ s.began t c s.xlat.nextRow ∧ t.row s.xlat.nextRow = some r ∧ r.ctx = id ∧ r.va = c.arg 8 8 ∧
          r.write = (c.arg 2 1 == 1) ∧ r.state = .translate ∧ r.dma = none ∧ r.pin.isSome) ∧
      (∀ w : Window, s.doing c 0x0212 16 [(2, 6)] → x.windows.find? (fun y => y.va == c.arg 8 8) = some w → s.ctxRuns id = false →
        ∃ t, exec .unpin s = .next t ∧ (t.mbx c.mbx).state = 2 ∧
          t.ctx (id % 1024) = { x with windows := x.windows.filter fun y => y.va != c.arg 8 8 } ∧
          (∀ h, ∀ e ∈ t.l2tlb h, e.pinned = true → e.ctx = id → meets e.va e.size (c.arg 8 8) w.len = false) ∧ t.store = s.store) ∧
      (s.doing c 0x0213 24 [(2, 6)] → c.arg 8 8 + c.arg 0x10 8 ≤ 2 ^ 64 →
        (∀ x1 : State, c.begun = none → x1 = s.countInval.invalidateCtx id (c.arg 8 8) (c.arg 0x10 8) →
          (x1.invalDrained [id] x1.fab.nextReq = true → ∃ t, exec .invalidate s = .next t ∧ x1.answered t c 0 []) ∧
          (x1.invalDrained [id] x1.fab.nextReq = false → ∃ t, exec .invalidate s = .next t ∧
            t = { x1 with valac := { x1.valac with cur := some { c with begun := some x1.fab.nextReq } } })) ∧
        ∀ n, c.begun = some n → s.invalDrained [id] n = true → ∃ t, exec .invalidate s = .next t ∧ s.answered t c 0 [])) ∧
    (∀ (o : Op) (r : XRow) (w : PinWalk), s.pinEnded = some (o, r, w) →
      (∀ f, w.failed = some f →
        ∃ t, exec .pinComplete s = .next t ∧ t.row o.arg = none ∧ t.ended o.id ∧ t.ctx (r.ctx % 1024) = s.ctx (r.ctx % 1024)) ∧
      (w.failed = none → s.windowsFull r.ctx = false → s.pinnedLeaves + w.leaves.length ≤ 1048576 →
        ∃ t, exec .pinComplete s = .next t ∧ t.row o.arg = none ∧ t.ended o.id ∧ t.store = s.store ∧
          (t.ctx (r.ctx % 1024)).windows = (s.ctx (r.ctx % 1024)).windows ++
            [{ va := w.start, len := w.last - w.start, writable := r.write, stale := w.stale, leaves := w.leaves }]))

/-- REGION_SET and GRANULE_TAG change the tables when they complete, a granule given to a new owner reading zero first; trimmed pages of Tier 3
read zero; replica ways, array tests and firmware commits go on after their response (R260 to R263, R272, R279 to R282, R355, R363,
R514). -/
def Obligations.RegionsAndTags : Prop :=
  ∀ (s : State) (c : Cmd),
    (s.opsFull c = false →
      (s.doing c 0x0200 40 [(3, 1), (6, 2)] → firstBad (s.regionBad c) = none → s.regionRule c.regionNo c.region = 0 →
        s.locked (.region c.regionNo) = false → (c.arg 0 1 = 1 → s.partBusy (c.arg 1 1) = false) →
        ∃ t, exec .regionSet s = .next t ∧ (s.startOp c 0).answered t c 0 []) ∧
      (s.doing c 0x0201 16 [(14, 2)] → firstBad (s.tagBad c) = none → s.tagRule c = 0 →
        (bitsOf (c.arg 12 2) 14 2 = 1 → s.partBusy (c.arg 12 1) = false) →
        ∃ t, exec .granuleTag s = .next t ∧ (s.startOp c 0).answered t c 0 []) ∧
      (s.doing c 0x0230 16 [] → c.arg 0 8 % 16384 = 0 → addrClass (c.arg 0 8) = .tier3 → s.trimForeign c (c.arg 0 8) (c.arg 8 8) = false →
        c.arg 8 8 % 16384 = 0 → c.arg 0 8 + c.arg 8 8 ≤ tier3Top →
        (∀ e ∈ s.store.reloads, ∀ x, e.2 = some x → ∀ y ∈ x.copies, y.1 = true ∨ meets y.2 x.len (c.arg 0 8) (c.arg 8 8) = false) →
        ∃ t, exec .flashTrim s = .next t ∧ (s.startOp c 0).answered t c 0 []) ∧
      (s.doing c 0x0241 4 [(1, 3)] → c.arg 0 1 ≤ 8 → s.opOf 0x0241 = none →
        (∀ e ∈ s.work.parts, ∀ x, e.2 = some x → x.mask.toNat % 2 ^ (16 - c.arg 0 1) ≠ 0) →
        ∃ t u, exec .cacheReplicaSet s = .next t ∧ (s.startOp c (c.arg 0 1)).answered u c 0 [] ∧
          t = (List.range 16).foldl (fun (s : State) h => s.setReplicaWays h (c.arg 0 1)) u) ∧
      (s.doing c 0x0A00 4 [] → c.arg 0 1 + c.arg 2 1 ≤ 40 → c.arg 1 1 + c.arg 3 1 ≤ 16 → c.arg 2 1 ≠ 0 → c.arg 3 1 ≠ 0 →
        (∀ e ∈ s.rects, ∀ r : Rect, e.2 = some r → r.overlaps { x0 := c.arg 0 1, y0 := c.arg 1 1, w := c.arg 2 1, h := c.arg 3 1 } = true →
          s.quiesced e.1 = true) →
        ∃ t, exec .arrayTest s = .next t ∧ (s.startOp c 0).answered t c 0 []) ∧
      (s.doing c 0x0801 4 [] → c.arg 0 4 = stagedAt s.fw.staged 0xC 4 → s.fw.claim = some c.mbx → s.committing = false →
        (s.fw.recovery = true ∨ ∀ e ∈ s.work.parts, ∀ x, e.2 = some x → x.state = .quiesced) →
        ∃ t, exec .fwCommit s = .next t ∧ (s.startOp c 0).answered t c 0 [])) ∧
    (∀ o : Op, o.cmd = c →
      (s.opOf 0x0200 = some o → firstBad (s.regionBad c) = none → s.regionRule c.regionNo c.region = 0 →
        ∃ t, exec .regionSetComplete s = .next t ∧ t.ended o.id ∧ t.cores = s.cores ∧ t.store.mem = s.store.mem ∧
          ∀ r, SMap.get none t.store.regions r =
            if r = c.regionNo then (if c.arg 8 4 = 0 then none else some c.region) else SMap.get none s.store.regions r) ∧
      (s.opOf 0x0201 = some o → firstBad (s.tagBad c) = none → s.tagRule c = 0 →
        ∃ t, exec .granuleTagComplete s = .next t ∧ t.ended o.id ∧ t.cores = s.cores ∧
          ∀ tag : Half16, tag = BitVec.ofNat 16 (c.arg 12 2) →
            (∀ g, SMap.get 0 t.store.tags g =
              if c.arg 0 8 / granuleBytes ≤ g ∧ g < c.arg 0 8 / granuleBytes + c.arg 8 4 then (if tagKind tag = 0 then 0 else tag)
              else SMap.get 0 s.store.tags g) ∧
            ∀ off, tagKind tag ≠ 0 → tier3Base ≤ c.arg 0 8 → c.arg 0 8 ≤ tier3Base + off →
              tier3Base + off < c.arg 0 8 + c.arg 8 4 * granuleBytes →
              SMap.get 0 s.store.tags ((tier3Base + off) / granuleBytes) ≠ tag → SMap.get 0 t.store.flash off = 0) ∧
      (s.opOf 0x0230 = some o →
        ∃ t, exec .flashTrimComplete s = .next t ∧ t.ended o.id ∧ t.cores = s.cores ∧ t.store.mem = s.store.mem ∧
          ∀ k, SMap.get 0 t.store.flash k =
            if c.arg 0 8 - tier3Base ≤ k ∧ k < c.arg 0 8 - tier3Base + c.arg 8 8 then 0 else SMap.get 0 s.store.flash k) ∧
      (s.opOf 0x0A00 = some o → ∀ l, ∃ t, exec (.arrayTestComplete l) s = .next t ∧ (s.withoutOp o.id).raised t))

/-- Queues and rings take the lowest free numbers (the model's choice, assumption 40); a queue halts at once or when its running launch has retired; ABORT stops a launch or names one
not yet consumed; doorbells and event ring registers act as their bits say (R356, R369 to R375, R391 to R393). -/
def Obligations.Queues : Prop :=
  ∀ (s : State) (c : Cmd),
    (∀ (p i n : Nat) (x : Part) (y : Ctx), p = c.arg 0 1 → s.part p = some x → s.foreignTo c p = false → s.partBusy p = false →
      (s.doing c 0x0300 16 [(6, 2)] → c.arg 1 1 ≤ 1 → 4 ≤ c.arg 2 1 → c.arg 2 1 ≤ 16 → c.arg 3 1 ≤ 1 → c.arg 8 8 % 4096 = 0 →
        s.ctxById (c.arg 4 2) = some y → y.partition = p → (x.be = true → c.arg 1 1 = 1) → s.locked (.ctx (c.arg 4 2)) = false →
        n < 4096 → s.queue n = none → (∀ k, k < n → (s.queue k).isSome) → s.freeIndex p = some i →
        ∃ t q, exec .queueCreate s = .next t ∧
          (s.setQueue n (some q)).answered t c 0
            (leBytes 2 n ++ leBytes 2 0 ++ leBytes 4 (if c.role = 1 then i * 0x1000 else n * 0x1000)) ∧
          q.part = p ∧ q.ctx = c.arg 4 2 ∧ q.be = (c.arg 1 1 == 1) ∧ q.log2 = c.arg 2 1 ∧ q.ring = BitVec.ofNat 64 (c.arg 8 8) ∧
          q.index = i ∧ q.head = 0 ∧ q.tail = 0 ∧ q.retired = 0 ∧ q.state = .active) ∧
      (s.doing c 0x0306 16 [(1, 1), (6, 2)] → 4 ≤ c.arg 2 1 → c.arg 2 1 ≤ 16 → c.arg 3 1 ≤ 1 → c.arg 8 8 % 4096 = 0 →
        c.arg 4 2 < tableSize (if c.role = 1 then c.mbx - 1 else 0) →
        n < 4096 → s.cring n = none → (∀ k, k < n → (s.cring k).isSome) →
        ∃ t r, exec .cringCreate s = .next t ∧ (s.setCring n (some r)).answered t c 0 (leBytes 2 n ++ leBytes 2 0) ∧
          r.part = p ∧ r.log2 = c.arg 2 1 ∧ r.vector = c.arg 4 2 ∧ r.addr = BitVec.ofNat 64 (c.arg 8 8) ∧ r.count = 0) ∧
      (∀ k, k = Nat.min x.undeliverable.length (c.arg 2 2) → s.doing c 0x0304 4 [(1, 1)] → 1 ≤ c.arg 2 2 → c.arg 2 2 ≤ 63 →
        ∃ t, exec .undeliverableDrain s = .next t ∧
          (s.setPart p (some { x with undeliverable := x.undeliverable.drop k })).answered t c 0
            (leBytes 2 k ++ leBytes 2 (x.undeliverable.length - k) ++ List.replicate 28 0 ++ (x.undeliverable.take k).flatten))) ∧
    (∀ (q : Nat) (x : Queue), q = c.arg 0 2 → s.queue q = some x → s.foreignTo c x.part = false → s.locked (.queue q) = false →
      (s.doing c 0x0301 4 [(2, 2)] → s.unretired q = 0 → ∃ t, exec .queueDestroy s = .next t ∧ (s.setQueue q none).answered t c 0 []) ∧
      (s.doing c 0x0302 4 [(2, 2)] → x.state = .active → s.opsFull c = false →
        (s.queueRuns q = true → ∃ t, exec .queueHalt s = .next t ∧ s.began t c q ∧ t.cores = s.cores ∧
          t.queue q = some { x with state := .halting, haltOp := some s.valac.nextOp }) ∧
        (s.queueRuns q = false → ∃ t, exec .queueHalt s = .next t ∧ (t.mbx c.mbx).state = 2 ∧ t.ended s.valac.nextOp ∧ t.cores = s.cores ∧
          t.queue q = some { x with state := .halted, reason := 0 })) ∧
      (s.doing c 0x0303 4 [(2, 2)] → x.state = .halted ∨ x.state = .haltedError →
        ∃ t, exec .queueResume s = .next t ∧
          (s.setQueue q (some { x with state := .active, reason := 0 })).markEligible.answered t c 0 [])) ∧
    (∀ (q : Nat) (x : Queue) (id : DWord), s.doing c 0x0420 8 [] → q = c.arg 0 8 / 2 ^ 52 → s.queue q = some x →
      s.foreignTo c x.part = false → c.arg 0 8 % 2 ^ 20 = 0 → id = BitVec.ofNat 64 (c.arg 0 8) →
      (∀ l, s.launch id = some l → l.verdict = none → ∃ t, exec .abort s = .next t ∧
        (s.stopLaunch id (verdictAborted 0x21) (verdictAborted 0x21)).markEligible.answered t c 0 []) ∧
      (s.launch id = none → s.abortCase x id = .later → ∃ t, exec .abort s = .next t ∧
        (s.setQueue q (some { x with abortSeqs := x.abortSeqs ++ [BitVec.ofNat 32 (c.arg 0 8 / 2 ^ 20)] })).answered t c 0 [])) ∧
    (∀ (fn : FnIdx) (v : Word) (r : EventRing), s.ring fn = r → r.backlog = [] → r.lost = 0 →
      (∃ t, exec (.evrCtrlWrite fn v) s = .next t ∧ { t with valac := s.valac } = s ∧ (∀ k, k ≠ fn.val → t.ring k = s.ring k) ∧
        (t.ring fn).enable = v.getLsbD 31 ∧ (t.ring fn).vector = v.toNat / 2 ^ 16 % 2 ^ 11 ∧
        (t.ring fn).size = (if r.enable then r.size else v.toNat % 32) ∧
        (r.enable = true → v.getLsbD 31 = false → (t.ring fn).head = 0 ∧ (t.ring fn).tail = 0 ∧ (t.ring fn).phase = true)) ∧
      ∃ t, exec (.evrHeadWrite fn v) s = .next t ∧ { t with valac := s.valac } = s ∧ (∀ k, k ≠ fn.val → t.ring k = s.ring k) ∧
        t.ring fn = { r with head := v.toNat % 2 ^ 16 })

/-- Registration and storing go on after their response: a verified image gets the next handle (the model's choice, assumption 40), a sound graph the next number or a new
version; a release frees what no launch uses (R142 to R150, R357, R397 to R400). -/
def Obligations.KernelsAndGraphs : Prop :=
  ∀ (s : State) (c : Cmd),
    (∀ x : Ctx, s.ctxById (c.arg 0 2) = some x → s.foreignTo c x.partition = false → s.locked (.ctx (c.arg 0 2)) = false → s.opsFull c = false →
      (s.doing c 0x0400 24 [(3, 5), (0x14, 4)] → c.arg 2 1 ≤ 1 → (c.arg 2 1 = 0 → c.role ≠ 1) → c.arg 8 8 % 256 = 0 → c.arg 0x10 4 % 256 = 0 →
        c.arg 0x10 4 ≠ 0 → c.arg 0x10 4 ≤ 2 ^ 26 → ∃ t, exec .kernelRegister s = .next t ∧ (s.startOp c 0).answered t c 0 []) ∧
      (s.doing c 0x0410 24 [(2, 6), (0x14, 4)] → 64 ≤ c.arg 0x10 4 → s.graphCount < 1024 →
        ∃ t, exec .graphStore s = .next t ∧ (s.startOp c 0).answered t c 0 [])) ∧
    (∀ (o : Op) (part a : Nat) (x : Ctx) (b : List Byte) (place : ImagePlace), o.cmd = c → s.opOf 0x0400 = some o →
      s.ctxById (c.arg 0 2) = some x → part = x.partition → s.imagePlace c part place = .range a → b = s.physBytes a (c.arg 0x10 4) →
      (imageStatus b (c.arg 0x10 4) = 0 →
        ∃ t, exec (.kernelRegisterComplete place) s = .next t ∧ t.ended o.id ∧ t.cores = s.cores ∧ t.store = s.store ∧
          t.work.nextHandle = s.work.nextHandle + 1 ∧
          ∀ h, t.kernel h = if h = s.work.nextHandle then some (kernelOf b part (c.arg 0 2) a) else s.kernel h) ∧
      (imageStatus b (c.arg 0x10 4) ≠ 0 →
        ∃ t, exec (.kernelRegisterComplete place) s = .next t ∧ (s.withoutOp o.id).raised t)) ∧
    (∀ k : Kernel, s.doing c 0x0401 4 [] → s.kernel (c.arg 0 4) = some k → s.foreignTo c k.part = false → s.kernelUsed (c.arg 0 4) = false →
      ∃ t, exec .kernelRelease s = .next t ∧ (s.setKernel (c.arg 0 4) none).answered t c 0 []) ∧
    (∀ (n : Nat) (g : Graph), s.graph n = some g → g.released = false →
      (n = c.arg 0 4 → s.foreignTo c g.part = false → s.locked (.graph n) = false →
        (s.doing c 0x0411 24 [(4, 4), (0x14, 4)] → 64 ≤ c.arg 0x10 4 → s.opsFull c = false → g.kept.length < 8 →
          ∃ t, exec .graphPatch s = .next t ∧ (s.startOp c n).answered t c 0 []) ∧
        (s.doing c 0x0412 4 [] → ∃ t, exec .graphRelease s = .next t ∧
          (s.setGraph n (if g.kept = [] then none else some { g with released := true, versions := g.kept })).answered t c 0 [])) ∧
      (∀ (o : Op) (image : ReadResult) (b : List Byte) (es : List (Nat × List Byte)) (old : GraphVersion) (ds : List (List Byte)) (x : Ctx),
        o.cmd = c → o.arg = n → c.opcode = 0x0411 →
        (s.valac.ops.find? fun y => y.cmd.opcode == 0x0410 || y.cmd.opcode == 0x0411) = some o →
        s.ctxById g.ctx = some x → s.valacRead g.ctx x.partition (c.arg 8 8) (c.arg 0x10 4) image = .data b → b.length = c.arg 0x10 4 →
        patchImage b = some es → (g.versions.find? fun v => v.version == g.newest) = some old → (∀ e ∈ es, e.1 < old.nodes.length) →
        ds = (old.nodes.zipIdx.map fun e => match es.reverse.find? fun y => y.1 == e.2 with | some y => y.2 | none => e.1) →
        s.graphStatus g.part ds s.nodeCount = 0 → g.kept.length < 8 →
        ∃ t, exec (.graphCheckComplete image) s = .next t ∧ t.ended o.id ∧ t.cores = s.cores ∧ t.store = s.store ∧
          t.graph n = some { g with newest := g.newest + 1, versions := g.kept ++ [newVersion (g.newest + 1) ds] })) ∧
    (∀ (o : Op) (image : ReadResult) (b : List Byte) (ds : List (List Byte)) (x : Ctx), o.cmd = c → c.opcode = 0x0410 →
      (s.valac.ops.find? fun y => y.cmd.opcode == 0x0410 || y.cmd.opcode == 0x0411) = some o → s.ctxById (c.arg 0 2) = some x →
      s.valacRead (c.arg 0 2) x.partition (c.arg 8 8) (c.arg 0x10 4) image = .data b → b.length = c.arg 0x10 4 →
      graphImage b = some ds → s.graphStatus x.partition ds s.nodeCount = 0 → s.graphCount < 1024 →
      ∃ t, exec (.graphCheckComplete image) s = .next t ∧ t.ended o.id ∧ t.cores = s.cores ∧ t.store = s.store ∧
        t.work.nextGraph = s.work.nextGraph + 1 ∧
        t.graph s.work.nextGraph = some { part := x.partition, ctx := c.arg 0 2, newest := 1, versions := [newVersion 1 ds], released := false })

/-! Launches. -/

/-- Valac consumes a descriptor into a launch of its queue, reads wait semaphores, and starts what may start: a plain launch on the cores of its
rectangle, a node of a graph, a transit at its time (R376 to R386, R399, R411 to R413, R431, R457). -/
def Obligations.LaunchesStart : Prop :=
  ∀ s : State,
    (∀ (q : QueueIdx) (desc : ReadResult) (x : Queue), desc.len 512 = true → s.queue q = some x → s.sys.state = 2 → x.state = .active →
      s.partRunning x.part = true → x.head ≠ x.tail → s.unretired q < 2 →
      (∀ d, s.valacRead x.ctx x.part (x.ring.toNat + 512 * (x.head.toNat % 2 ^ x.log2)) 512 desc = .data d →
        (s.almanacUsed + s.transitsOf d ≤ 256 ∨ s.transitsOf d = 0) → x.head ∉ x.abortSeqs →
        ∃ (t : State) (l : Launch) (y : Queue), exec (.launchConsume q desc) s = .next t ∧ t.cores = s.cores ∧ t.store = s.store ∧ l ∈ t.work.launches ∧
          l.id = BitVec.ofNat 64 (q.val * 2 ^ 52 + x.head.toNat * 2 ^ 20) ∧ l.queue = q ∧ l.part = x.part ∧ l.ctx = x.ctx ∧ l.desc = d ∧
          l.verdict = none ∧ l.phase = .waiting ∧
          l.stop = (match s.refusal x.part d false with
            | some r => some (verdictFault 0 r)
            | none => if s.tooFar d then some (verdictFault 0 0x0C) else none) ∧
          t.queue q = some y ∧ y.head = x.head + 1 ∧ y.tail = x.tail ∧ y.state = .active) ∧
      (∀ k a, s.valacRead x.ctx x.part (x.ring.toNat + 512 * (x.head.toNat % 2 ^ x.log2)) 512 desc = .fail k a →
        ∃ t, exec (.launchConsume q desc) s = .next t ∧ t.cores = s.cores ∧ t.work.launches = s.work.launches ∧
          t.queue q = some { x with state := .haltedError, reason := 1 })) ∧
    (∀ (launch : DWord) (word : ReadResult) (l : Launch) (b : List Byte), word.len 8 = true → nodeOf launch = 0 →
      s.launch (wholeOf launch) = some l → l.verdict = none → l.stop = none → s.atHead l = true → l.flag 2 = true → l.phase = .waiting →
      s.valacRead l.ctx l.part (waitAddr l.desc) 8 word = .data b →
      ∃ t, exec (.semaphorePoll launch word) s = .next t ∧
        t = (s.setLaunch { l with
          semOk := decide (leNat b ≠ 2 ^ 64 - 1 ∧ fieldAt l.desc 0x28 8 ≤ leNat b)
          stop := if leNat b = 2 ^ 64 - 1 then some (verdictSkipped 0x30) else none }).markEligible) ∧
    (∀ (launch : DWord) (s1 : State) (l : Launch), s1 = s.considerStart launch → s1.launch launch = some l → l.graph = none →
      s1.mayStart l = true → l.flag 1 = false → s1.needsPreramp l (s1.startRise l) = false →
      ∃ t, exec (.launchStart launch) s = .next t ∧ s1.startsPlain t l false none) ∧
    (∀ (launch : DWord) (s1 : State) (l : Launch), nodeOf launch = 0 → s1 = s.considerStart (wholeOf launch) →
      s1.launch (wholeOf launch) = some l → l.graph = none → s1.mayStart l = true → l.flag 1 = true → s1.timeValid = true →
      ∀ time die, time = transitOf l.desc → die = s1.latestDie (s1.launchCores l) → time ≤ die →
      ∃ t, exec (.transitStart launch) s = .next t ∧
        s1.startsPlain t l (decide (time + 1000 ≤ die)) (if time + 1000 ≤ die then none else some time)) ∧
    (∀ (launch : DWord) (l : Launch), nodeOf launch = 0 → s.launch (wholeOf launch) = some l → l.graph = none → s.mayStart l = true →
      s.prerampDone l (s.startRise l) = true →
      ∃ t, exec (.prerampLaunchStart launch) s = .next t ∧ s.startsPlain t l false none) ∧
    (∀ (launch : DWord) (l : Launch) (g : Nat × Nat) (i : Nat) (d : List Byte), nodeOf launch = i + 1 → s.launch (wholeOf launch) = some l →
      l.graph = some g → d = (s.graphNodes g).getD i [] → s.nodeMayStart l (s.graphNodes g) i = true → descFlag d 1 = false →
      (midLayer (s.graphNodes g) i = true ∨ s.needsPreramp l (s.layerRise l i) = false) →
      ∃ (t s1 : State) (x : Launch) (n : Node), exec (.graphLayerStart launch) s = .next t ∧ s1.launch l.id = some x ∧
        x.nodes[i]? = some n ∧ n.phase = .running ∧ n.start = s.now ∧ n.held = s.descCores l.part d ∧ s1.cores = s.cores ∧ s1.store = s.store ∧
        t = s1.startCores l (l.id + BitVec.ofNat 64 (i + 1)) d none) ∧
    (∀ (launch : DWord) (l : Launch) (c : Nat), s.launch (wholeOf launch) = some l → s.timeValid = true →
      ∃ t, exec (.transitGuard launch) s = .next t ∧ { t with cores := s.cores } = s ∧
        t.core c =
          if (∃ e ∈ s.pendingTransits l, e.1 ≤ s.now + 100000 ∧ c ∈ e.2) ∧ (s.core c).mode = .idle ∧
              (s.core c).lastCtx ≠ some (l.ctx, l.part) ∧ ∀ x ∈ s.work.launches, c ∉ s.holds x
          then { (s.core c).cleared with lastCtx := some (l.ctx, l.part) } else s.core c) ∧
    (∀ (p : PartIdx) (x : Part) (q from' : Nat), s.part p = some x → x.turn = some q → x.turnFrom = some from' → from' + 1000 * x.slice ≤ s.now →
      ∃ t, exec (.beTurnExpiry p) s = .next t ∧ t = s.setPart p (some { x with turn := (s.beQueues p q).head?, turnFrom := none }))

/-- A launch that has come to its end commits with its outcome, its queue counts it as retired, then its signal and its record follow; a record
that waited is written when its ring has room; a time limit and a stop that does not end decide the launch (R374, R384 to R396). -/
def Obligations.LaunchesEnd : Prop :=
  ∀ s : State,
    (∀ (launch : DWord) (sig record : ReadResult) (l : Launch), sig.len 8 = true → record.len 8 = true → nodeOf launch = 0 →
      s.launch (wholeOf launch) = some l → l.verdict = none → s.mayCommit l = true →
      ∃ (t s1 : State) (x : Launch), exec (.launchCommit launch sig record) s = .next t ∧ s1.launch l.id = some x ∧ x.verdict = some l.outcome ∧
        x.phase = .committed ∧ x.busy = [] ∧ x.record.isSome ∧
        (∀ y, s.queue l.queue = some y → ∃ z, s1.queue l.queue = some z ∧ z.retired = y.retired + 1 ∧ z.lastLaunch = l.id) ∧
        t = ((s1.performSignal l.id sig).deliver l.id record).afterCommit l.part l.queue) ∧
    (∀ (q : QueueIdx) (headWord : ReadResult) (x : Queue) (id : DWord) (l : Launch) (b : List Byte) (s1 : State), headWord.len 8 = true →
      s.queue q = some x → s.firstWaiting q = some (id, 0) → s.launch id = some l → l.signalled = true → l.record = some b →
      l.cringNo ≠ 0xFFFF → s.ringOk l.part l.desc = true → s.recordsAhead l.part l.cringNo l.stamp = false →
      (s.putRecord l.ctx l.part l.cringNo (orByte b 0x0B (8 * bit l.lost + 32 * bit l.recordsLost)) headWord = (.written, s1) →
        ∃ t, exec (.completionRingRecheck q headWord) s = .next t ∧
          t = ((if l.flag 3 then s1.ringSignal l.cringNo else s1).dropLaunch id).afterCommit x.part q) ∧
      (s.putRecord l.ctx l.part l.cringNo (orByte b 0x0B (8 * bit l.lost + 32 * bit l.recordsLost)) headWord = (.waits, s1) →
        ∃ t, exec (.completionRingRecheck q headWord) s = .next t ∧ t = s1.afterCommit x.part q)) ∧
    (∀ (launch : DWord) (l : Launch), s.launch launch = some l → l.verdict = none →
      (fieldAt l.desc 0x180 4 ≠ 0 → l.stop = none → s.atHead l = true →
        (l.running = false → ∃ (t : State) (x : Launch), exec (.timeLimitExpiry launch) s = .next t ∧ t.launch launch = some x ∧
          x.verdict = some { verdictTimeout 0x40 with notRun := true } ∧ x.phase = .committed ∧ t.cores = s.cores) ∧
        (l.running = true → ∃ (t : State) (x : Launch), exec (.timeLimitExpiry launch) s = .next t ∧ t.launch launch = some x ∧ x.verdict = none ∧
          x.stop = some (verdictTimeout 0x41) ∧ ∀ c, t.core c = if c ∈ l.busy then (s.core c).stop else s.core c)) ∧
      (∀ v, l.stop = some v → l.busy ≠ [] →
        ∃ t s1 : State, exec (.abortStopTimeout launch) s = .next t ∧ s1.cores = s.cores ∧ s1.work = s.work ∧ s1.xlat = s.xlat ∧ s1.fab = s.fab ∧
          t = s1.tearContext l.ctx { kind := fkAborted, code := v.reason }))

/-! Meridian time, power, the twin, the host, the management port, start-up. -/

/-- A beat moves the master by 1 µs and the slew's part of it, and each die counter with it; measurements lock the meridian, slew it and lose it;
the loss of beats stops the module (R405 to R408). -/
def Obligations.MeridianTime : Prop :=
  ∀ (s : State) (m : Meridian), m = s.time →
    (s.sys.valacUp = true → ∃ t, exec .meridianBeat s = .next t ∧ { t with time := m } = s ∧
      t.time.beats = m.beats + 1 ∧ t.time.quiet = m.quiet + 1 ∧ t.time.slew = m.slew - max (-2) (min 2 m.slew) ∧
      ((10 * t.time.master + t.time.frac : Nat) : Int) = 10 * m.master + m.frac + 10000 + max (-2) (min 2 m.slew) ∧ t.time.frac < 10 ∧
      ∀ d, d < 8 → SMap.get 0 t.time.dies d =
        if s.diesRun = true then dieAfter (SMap.get 0 m.dies d) t.time.master else SMap.get 0 m.dies d) ∧
    (m.source = 0 → s.sys.valacUp = true → ∀ o : Int,
      (∃ t, exec (.ptpMeasurement o true) s = .next t ∧ t.time = m ∧ t.cores = s.cores) ∧
      (m.state = .unset → m.stepped = false → ∃ t, exec (.ptpMeasurement o false) s = .next t ∧ { t with time := m } = s ∧
        t.time.master = (m.master + o).toNat ∧ t.time.stepped = true ∧ t.time.state = .unset) ∧
      (m.state = .locked → ∃ t, exec (.ptpMeasurement o false) s = .next t ∧ t.cores = s.cores ∧ t.time.offset = o ∧ t.time.quiet = 0 ∧
        t.time.state = (if o < -1000 ∨ 1000 < o then .holdover else .locked) ∧ (o ≤ 1000000 → t.time.slew = 10 * o)) ∧
      (m.state = .holdover → ∃ t, exec (.ptpMeasurement o false) s = .next t ∧ t.cores = s.cores ∧
        t.time.state = if -100 ≤ o ∧ o ≤ 100 ∧ 7 ≤ m.good then .locked else .holdover)) ∧
    (m.state = .locked → 2000000 ≤ m.quiet → ∃ t, exec .meridianMeasurementLoss s = .next t ∧ t.time = { m with state := .holdover, good := 0 } ∧
      t.cores = s.cores ∧ t.work = s.work) ∧
    (∀ d : DieIdx, ∃ t, exec (.meridianBeatLoss d) s = .next t ∧ t.sys.state = 3 ∧ t.store.mem = s.store.mem ∧ t.rects = s.rects ∧
      ∀ p y, t.part p = some y → y.state ≠ .running)

/-- A regulator sample, the rinse envelope and the cap loop follow their formulas; droop holds the frequency of a half, a voltage that arrives
moves it, and a half at 95 °C is throttled (R441 to R463). -/
def Obligations.PowerControl : Prop :=
  ∀ (s : State) (h : HalfIdx) (x : Steward) (p : Power), x = s.steward h → p = s.power →
    (∀ watts vin iin, ∃ t, exec (.regulatorSample watts vin iin) s = .next t ∧ { t with power := p } = s ∧
      t.power.latest = (watts :: p.latest).take 10 ∧ t.power.samples = (watts :: p.samples).take 10 ∧
      t.power.integral = p.integral + 100 * watts ∧ t.power.energy = Nat.max p.energy (p.integral + 100 * watts) ∧
      t.power.vin = vin % 2 ^ 32 ∧ t.power.iin = iin % 2 ^ 32 ∧ t.power.telemetry.take 8 = leBytes 8 (2 * (p.updates + 1))) ∧
    (s.sys.mainOn = true → s.work.launches.flatMap s.risesDue = [] →
      ∀ work capacity f : Nat, f = Nat.min (10 * p.limit) (Nat.max work (p.envelope - p.ramp)) →
      ∃ t, exec (.rinseEnvelope work capacity) s = .next t ∧ t.power.envelope = f - (f - work - capacity) ∧ t.power.work = work ∧
        t.power.preramp = 0 ∧ t.power.rinseEnergy = p.rinseEnergy + (f - (f - work - capacity) - work) ∧ t.store = s.store) ∧
    (p.samples ≠ [] →
      (meanOf p.samples ≤ p.limit → p.limit ≤ meanOf p.samples + 200 →
        ∃ t, exec .capLoop s = .next t ∧ t = { s with power := { p with capQueue := [] } }) ∧
      (p.limit < meanOf p.samples → ∃ t, exec .capLoop s = .next t ∧
        { t with free := s.free, power := { t.power with capQueue := p.capQueue } } = s ∧
        ∀ e ∈ t.power.capQueue, e.2 = true ∧ ∃ u ∈ s.slowOrder, e.1 = u.headD 0) ∧
      (meanOf p.samples + 200 < p.limit → ∃ t, exec .capLoop s = .next t ∧
        { t with free := s.free, power := { t.power with capQueue := p.capQueue } } = s ∧
        ∀ e ∈ t.power.capQueue, e.2 = false ∧ ∃ u ∈ s.fastOrder, e.1 = u.headD 0)) ∧
    (∀ k slow rest, p.capQueue = (k, slow) :: rest → ∃ t, exec .capUnitChange s = .next t ∧ t.power.capQueue = rest ∧
      t.power.cntCapSteps = p.cntCapSteps + 1 ∧ t.cores = s.cores ∧
      ∀ i ∈ s.boundGroup k, (t.steward i).capStep =
        if slow then Nat.min 15 (s.unitStep (s.boundGroup k) + 1) else s.unitStep (s.boundGroup k) - 1) ∧
    (x.moving = true → x.frozen = false → x.droop = false →
      ∃ t, exec (.pstepVoltageArrived h) s = .next t ∧ (∀ k, k ≠ h.val → t.steward k = s.steward k) ∧
        { t.steward h with counters := x.counters } = { x with voltage := stepMv x.target, fstep := x.target, moving := false } ∧
        SMap.get 0 (t.steward h).counters 0x110 = SMap.get 0 x.counters 0x110 + 1) ∧
    (∃ t, exec (.droopAssert h false) s = .next t ∧ (∀ k, k ≠ h.val → t.steward k = s.steward k) ∧
      { t.steward h with counters := x.counters } = { x with droop := true, frozen := x.frozen || x.moving } ∧
      SMap.get 0 (t.steward h).counters 0x108 = SMap.get 0 x.counters 0x108 + 1) ∧
    (x.droop = true → ∃ t, exec (.droopDeassert h) s = .next t ∧ (∀ k, k ≠ h.val → t.steward k = s.steward k) ∧
      { t.steward h with counters := x.counters } = { x with droop := false }) ∧
    (x.frozen = true → x.droop = false → ∀ ns, ∃ t, exec (.pstepResume h ns) s = .next t ∧ (∀ k, k ≠ h.val → t.steward k = s.steward k) ∧
      t.steward h = { x with frozen := false, lastDelay := ns % 2 ^ 32, fstep := Nat.max x.fstep x.target }) ∧
    (∀ temps : List (BitVec 16), temps.length = 8 → ∃ t, exec (.thermalSample (.half h) temps) s = .next t ∧ t.cores = s.cores ∧
      (∀ i, i < 8 → SMap.get 0 (t.steward h).temps i = temps.getD i 0) ∧
      (t.steward h).throttle = if temps.any (hotAt 95) then true
        else if temps.all (coolAt 92) = true ∧ SMap.get false p.hubThrottle (h.val / 2 % 4) = false then false else x.throttle) ∧
    (∀ (k : HubIdx) (temps : List (BitVec 16)), temps.length = 4 → ∃ t, exec (.thermalSample (.hub k) temps) s = .next t ∧ t.cores = s.cores ∧
      (∀ i, i < 4 → SMap.get 0 t.power.hubTemps (4 * k.val + i) = temps.getD i 0) ∧
      (temps.any (hotAt 95) = true → ∀ i ∈ columnHalves k, (t.steward i).throttle = true)) ∧
    (x.throttle = true → (s.halfTemps h).any (hotAt 95) = true →
      ∃ t, exec (.throttleStep h) s = .next t ∧ t.cores = s.cores ∧
        ∀ i ∈ s.boundGroup h, (t.steward i).thermStep = Nat.min 15 (s.unitStep (s.boundGroup h) + 1)) ∧
    (x.throttle = false → 0 < x.thermStep →
      ∃ t, exec (.throttleStep h) s = .next t ∧ t.cores = s.cores ∧
        ∀ i ∈ s.boundGroup h, (t.steward i).thermStep = (s.steward i).thermStep - 1)

/-- The expected flit of the speculum link moves its sequence number, any other is NAKed once; lanes fall back on spares; pairing goes from training
over the proof of the peer to PAIRED, and breaks the active windows when the twin is lost or the pairing ends (R467 to R479). -/
def Obligations.TwinLinkAndPairing : Prop :=
  ∀ (s : State) (x : Twin), x = s.twin →
    (x.rate ≠ 0 →
      (∀ (seq : BitVec 16), seq.toNat = x.expected → ∃ t, exec (.specFlitReceive seq true none) s = .next t ∧
        t = { s with twin := { x with expected := (x.expected + 1) % 65536, nakSent := false, counters := t.twin.counters } } ∧
        SMap.get 0 t.twin.counters 0x200 = SMap.get 0 x.counters 0x200 + 1) ∧
      (∀ (seq : BitVec 16) ack, seq.toNat ≠ x.expected → ∃ t, exec (.specFlitReceive seq false ack) s = .next t ∧
        t.twin.expected = x.expected ∧ t.twin.nakSent = true ∧ t.store = s.store ∧
        t.out = if x.nakSent then s.out else .specNak x.expected :: s.out) ∧
      (∀ (seq : BitVec 16), (seq.toNat + 65536 - x.oldest) % 65536 ≤ x.unacked →
        ∃ t, exec (.specNak seq) s = .next t ∧ t = { s with twin := { x with counters := t.twin.counters } } ∧
          SMap.get 0 t.twin.counters 0x208 = SMap.get 0 x.counters 0x208 + BitVec.ofNat 64 ((x.nextSeq + 65536 - seq.toNat) % 65536)) ∧
      (∃ t, exec .specReplayTimeout s = .next t ∧ t = { s with twin := { x with counters := t.twin.counters } } ∧
        SMap.get 0 t.twin.counters 0x208 = SMap.get 0 x.counters 0x208 + BitVec.ofNat 64 x.unacked) ∧
      (∀ (lane : Fin 18) (bad : BitVec 18), bad = x.rxBad ||| BitVec.ofNat 18 (2 ^ lane.val) →
        ∃ t, exec (.specLaneFail lane) s = .next t ∧ t.twin.rxBad = bad ∧ t.store = s.store ∧
          (16 ≤ 18 - countBits bad → t.twin.rate = x.rate ∧ t.twin.halfRate = x.halfRate) ∧
          (18 - countBits bad < 16 → 8 ≤ 18 - countBits bad → t.twin.rate = x.rate ∧ t.twin.halfRate = true ∧ t.twin.rxActive = 8) ∧
          (18 - countBits bad < 8 → t.twin.rate = 0)) ∧
      (∃ t, exec .heartbeatSend s = .next t ∧ t = { s with out := .heartbeat x.state.code s.time.source s.now :: s.out }) ∧
      (∀ a b o, s.time.source ≠ 1 → ∃ t, exec (.heartbeatReceive a b o) s = .next t ∧
        t = { s with twin := { x with lastBeat := s.time.beats, lastHeartbeat := s.now, peerSource := b.val } })) ∧
    (∀ i next, (i, next) ∈ [(Instr.twinLost, PairState.lost), (.unpairNotice, .unpaired)] → x.state = .paired →
      (i = .twinLost → x.lastBeat + 100 ≤ s.time.beats) →
      ∃ t s1 : State, exec i s = .next t ∧ s1.twin.state = next ∧ s1.twin.ready = true ∧ s1.store = s.store ∧ s1.fab = s.fab ∧
        (∀ w, (s1.win w).state = if (s.win w).state = .active then .broken else (s.win w).state) ∧ (∀ o ∈ s1.twin.syncs, o.dead = true) ∧
        t = s1.failTwinRepairs.post 0x30 0xFF (leBytes 1 2)) ∧
    (∀ rate : Fin 3, rate.val ≠ 0 → x.state = .training ∨ x.state = .lost →
      ∃ t, exec (.pairTrainingDone rate) s = .next t ∧ t.twin.state = .attesting ∧ t.twin.rate = rate.val ∧ t.twin.rxActive = 16 ∧
        t.twin.expected = 0 ∧ t.twin.nextSeq = 1 ∧ t.twin.windows = x.windows ∧ t.store = s.store) ∧
    (x.state = .training ∨ x.state = .lost →
      ∃ t, exec (.pairTrainingRetry true) s = .next t ∧ t.twin = x ∧ t.cores = s.cores ∧ ∀ o ∈ t.valac.ops, o.cmd.opcode ≠ 0x0700) ∧
    (x.state = .attesting → ∀ chain key version signature peer secver serial,
      if chain = true ∧ key = true ∧ s.fw.pairId.isSome ∧ s.fw.floor ≤ secver.toNat ∧ version = true ∧ signature = true ∧ peer = true then
        ∃ t, exec (.pairingMessage chain key version signature peer secver serial) s = .next t ∧ t.twin.state = .paired ∧
          t.twin.peerSecver = some secver.toNat ∧ t.store = s.store ∧ ∀ o ∈ t.valac.ops, o.cmd.opcode ≠ 0x0700
      else ∃ t, exec (.pairingMessage chain key version signature peer secver serial) s = .next t ∧ t.twin.state = .unpaired ∧
        t.twin.hold = true ∧ t.twin.windows = x.windows ∧ t.store = s.store ∧ ∀ o ∈ t.valac.ops, o.cmd.opcode ≠ 0x0700) ∧
    (∀ c : Cmd, s.committing = false →
      (s.doing c 0x0700 0 [] → s.opsFull c = false → x.state = .unpaired → s.fw.pairId.isSome →
        ∃ t, exec .pair s = .next t ∧ s.began t c 0 ∧ t.twin = { x with hold := false, state := .training } ∧ t.store = s.store) ∧
      (s.doing c 0x0701 0 [] → x.state = .paired →
        ∃ t, exec .unpair s = .next t ∧ (t.mbx c.mbx).state = 2 ∧ t.valac.cur = none ∧ t.twin.state = .unpaired ∧ t.twin.hold = true))

/-- A window is ACTIVE when both modules hold it with equal settings; records inside it are staged or performed at the home, others are counted
and dropped; an epoch is closed, applied and reported; reload reads answer with the sector (R473 to R478, R481 to R485). -/
def Obligations.MirrorWindows : Prop :=
  ∀ (s : State) (w : WinIdx) (x : MirWin), x = s.win w →
    (∀ (mode : Fin 3) (lag start len : Nat), mode.val ≠ 0 →
      (x.state = .active → (mode.val, lag, start, len) ≠ (x.mode, x.lag, x.start, x.len) →
        ∃ t, exec (.windowOffer w mode lag start len) s = .next t ∧ (t.win w).state = .waiting ∧ (t.win w).staged = [] ∧
          (∀ v, v ≠ w.val → t.win v = s.win v) ∧ t.store = s.store) ∧
      (x.state = .waiting → s.twin.state = .paired → (mode.val, lag, start, len) = (x.mode, x.lag, x.start, x.len) →
        ∃ t, exec (.windowOffer w mode lag start len) s = .next t ∧ (t.win w).state = .active ∧ (t.win w).epoch = 1 ∧
          (t.win w).applied = 0 ∧ (∀ v, v ≠ w.val → t.win v = s.win v) ∧ t.store = s.store)) ∧
    (∀ (line : Nat) (data : List (Nat × Byte)) (tag : Word), line % 128 = 0 → line < 2 ^ 48 → (∀ e ∈ data, e.1 < 128) → s.twin.rate ≠ 0 →
      (s.windowTakes w 2 line = true → ∃ t, exec (.epochWriteRecord w line data) s = .next t ∧ t.store = s.store ∧
        t.win w = { x with staged := x.staged ++ [(line, data)], stagedBytes := x.stagedBytes + recordBytes data } ∧
        ∀ v, v ≠ w.val → t.win v = s.win v) ∧
      (s.windowTakes w 1 line = true → ∃ (t : State) (r : Req), exec (.syncWriteRecord w tag line data) s = .next t ∧
        t = (s.addReq r).serveNow s.fab.nextReq ∧ r.agent = .mirror ∧ r.addr = line ∧ r.op = .write data ∧ r.tag = tag.toNat) ∧
      (∀ i ∈ [Instr.epochWriteRecord w line data, .syncWriteRecord w tag line data],
        s.windowTakes w 1 line = false → s.windowTakes w 2 line = false →
        ∃ t, exec i s = .next t ∧ t.twin.windows = s.twin.windows ∧ t.fab = s.fab ∧ t.store = s.store ∧
          SMap.get 0 t.twin.counters 0x228 = SMap.get 0 s.twin.counters 0x228 + 1)) ∧
    (∀ (tag : Word) (o : SyncOut), s.twin.syncs.find? (fun y => y.tag == tag.toNat && !y.dead) = some o →
      ∃ t, exec (.syncAck tag) s = .next t ∧ t.twin.syncs = s.twin.syncs.erase o ∧ t.store = s.store ∧ ∀ r, o.rid = some r → t.gone r) ∧
    (∀ epoch : Nat, s.twin.rate ≠ 0 → x.state = .active → x.mode = 2 → x.closedHere = none →
      (x.staged = [] → ∃ t, exec (.epochCloseRecord w epoch) s = .next t ∧ (t.win w).applied = epoch ∧ (t.win w).closedHere = none ∧
        t.out = .record 5 w epoch [] :: s.out ∧ t.store = s.store) ∧
      (x.staged ≠ [] → ∃ t s1 : State, exec (.epochCloseRecord w epoch) s = .next t ∧ (s1.win w).closedHere = some (epoch, x.staged) ∧
        (s1.win w).staged = [] ∧ s1.store = s.store ∧ s1.fab.reqs.length = s.fab.reqs.length + x.staged.length ∧
        t = (List.range x.staged.length).foldl (fun (y : State) i => y.serveNow (s.fab.nextReq + i)) s1)) ∧
    (∀ (epoch n : Nat) (within : Bool), x.closed = some (epoch, n) → ∃ t, exec (.epochApplied w epoch within) s = .next t ∧
      t.win w = { x with closed := none, lagExceeded := !within } ∧ (∀ v, v ≠ w.val → t.win v = s.win v) ∧ t.store = s.store) ∧
    (∀ (tag : Word) (addr a : Nat), s.twin.state = .paired → a = addr / 32 * 32 →
      ∃ t, exec (.reloadRequest tag addr) s = .next t ∧ t.store = s.store ∧ t.fab = s.fab ∧
        t.out = (if (s.reloadAt a).isSome = true ∧ s.sectorBad a = false
          then .record 6 0 a (leBytes 4 tag.toNat ++ leBytes 4 0 ++ s.physBytes a 32) :: s.out
          else .record 7 0 a (leBytes 4 tag.toNat ++ leBytes 4 0) :: s.out)) ∧
    (∀ (h : HalfIdx) (r : Repair) (i : Nat) (tag : Word) (b : List Byte), (s.half h).repair = some r →
      (∀ k, k < 16 → k ≠ h.val → (s.half k).repair = none) → i = (tag.toNat + 2 ^ 32 - r.tag) % 2 ^ 32 → i ∈ r.left → b.length = 32 →
      r.left.erase i ≠ [] →
      ∃ t, exec (.reloadData tag (some b)) s = .next t ∧ s.onlyHalf t h ∧
        t.half h = { s.half h with repair := some { r with left := r.left.erase i, data := SMap.putBytes r.data (32 * i) b } }) ∧
    (∀ c : Cmd, w.val = c.arg 0 1 →
      (s.doing c 0x0702 24 [(2, 2)] → s.twin.state ≠ .paired → c.arg 1 1 ≤ 2 → c.arg 1 1 ≠ 0 →
        (if c.arg 1 1 = 2 then 50 ≤ c.arg 4 4 ∧ c.arg 4 4 ≤ 10000000 else c.arg 4 4 = 0) → c.arg 8 8 % granuleBytes = 0 →
        s.windowMeets w (c.arg 8 8) (c.arg 0x10 8) = false → c.arg 0x10 8 % granuleBytes = 0 → inOneTier (c.arg 8 8) (c.arg 0x10 8) = true →
        addrClass (c.arg 8 8) ≠ .tier3 → x.state = .off ∨ x.state = .broken →
        ∀ y : MirWin, y = { state := .waiting, mode := c.arg 1 1, lag := c.arg 4 4, start := c.arg 8 8, len := c.arg 0x10 8, peer := x.peer } →
        ∃ t, exec .mirrorSet s = .next t ∧ (s.setWin w y).answered t c 0 []) ∧
      (s.doing c 0x0703 4 [(1, 3)] → c.role ≠ 1 → x.state = .active → x.mode = 2 → x.closed = none →
        ∃ t, exec .epochClose s = .next t ∧
          ((s.setWin w { x with closed := some (x.epoch, s.now), epoch := x.epoch + 1, fill := 0 }).sendRecord 3 w x.epoch []).answered
            t c 0 (leBytes 8 x.epoch)))

/-- A BAR4 request that passes its checks becomes a request for its line; one that does not is answered or dropped, and HST_REFUSED holds it;
configuration, link training, masks and completions act as their rules say (R487 to R500, R503). -/
def Obligations.HostAttachment : Prop :=
  ∀ (s : State) (fn : FnIdx) (off : Nat),
    (∀ len : Nat, 0 < len → len ≤ 4096 → s.bar4Holds fn off len = true →
      (∀ z, s.hostCause fn off len false = some z →
        ∃ t, exec (.bar4Read fn off len) s = .next t ∧ t.host.refused = true ∧ t.host.cntRefused = s.host.cntRefused + 1 ∧
          t.out = .completion fn off (if z = 3 then 2 else 1) [] false :: s.out ∧ t.fab = s.fab ∧ t.store = s.store) ∧
      (∀ a, s.hostCause fn off len false = none → off % 128 + len ≤ 128 → s.aperture fn off = some a →
        ∃ (t : State) (r : Req), exec (.bar4Read fn off len) s = .next t ∧ t = (s.addReq r).serveNow s.fab.nextReq ∧ r.agent = .host fn ∧ r.tag = off ∧
          r.addr = lineOf a ∧ r.op = .hostRead (a % 128) len)) ∧
    (∀ (data : List Byte) (relaxed : Bool), data ≠ [] → data.length ≤ 512 → s.bar4Holds fn off data.length = true →
      (∀ z, s.hostCause fn off data.length true = some z →
        ∃ t, exec (.bar4Write fn off data false relaxed) s = .next t ∧ t.host.refused = true ∧ t.fab = s.fab ∧ t.store = s.store) ∧
      (∀ a, s.hostCause fn off data.length true = none → off % 128 + data.length ≤ 128 → s.aperture fn off = some a →
        ∃ (t : State) (r : Req), exec (.bar4Write fn off data false relaxed) s = .next t ∧ t = (s.addReq r).serveNow s.fab.nextReq ∧ r.agent = .host fn ∧
          r.addr = lineOf a ∧ r.op = .write (data.zipIdx.map fun e => (a % 128 + e.2, e.1)) ∧ r.poison = 0)) ∧
    (s.bar4Holds fn off 1 = true → ∃ t, exec (.bar4AtomicOp fn off) s = .next t ∧ t.host.refused = true ∧ t.fab = s.fab ∧
      t.store = s.store ∧ t.out = .completion fn off 1 [] false :: s.out) ∧
    (∀ v : DWord, ∃ t, exec (.hstApertureBaseWrite v) s = .next t ∧
      t = { s with host := { s.host with aperture := v &&& 0x0000FFF000000000#64 } }) ∧
    (∀ (rid : Nat) (r : Req), s.req rid = some r → r.place = .host → s.turnOf r = true →
      (∀ bytes b, r.op = .write bytes → r.id = rid → b.length ≤ 4096 →
        ∃ t, exec (.hostCompletion rid (.data b)) s = .next t ∧ t.gone rid ∧ t.store = s.store ∧
          t.out = ((runsOf bytes).map fun e => Out.memWrite (match s.ctxById r.ctx with | some x => x.fn | none => 0)
            (r.addr + e.1) e.2).reverse ++ s.out) ∧
      (∀ cas aop size d lanes c slot b, r.op = .atomic cas aop size d lanes → r.agent = .vec c slot → b.length = r.op.span.2 →
        b.length ≤ 4096 → ((s.core c).group slot).occupied = true →
        ∃ t, exec (.hostCompletion rid (.data b)) s = .next t ∧ t.gone r.id ∧ t.store = s.store ∧
          (t.core c).group slot = lanes.foldl (fun (g : Group) l => g.putElem l.1 d size false
            (gather (fun o => (b[o - r.op.span.1]?).getD 0) l.2.1 (sizeBytes size))) ((s.core c).group slot))) ∧
    (∃ t, exec (.hostConfigRequest fn none) s = .next t ∧
      t = if s.sys.step ≤ 1 then s.emit (.configReply fn true) else if s.fnEnabled fn then s.emit (.configReply fn false) else s) ∧
    (∀ n, 1 < s.sys.step → n ≤ 64 → s.host.vfEnable = false → ∃ t, exec (.hostConfigRequest 0 (some (.numVfs n))) s = .next t ∧
      t.host = { s.host with numVfs := n } ∧ t.cores = s.cores) ∧
    (1 < s.sys.step → s.fnEnabled fn = true → ∀ on, ∃ t, exec (.hostConfigRequest fn (some (.priEnable on))) s = .next t ∧
      t.pri fn = { s.pri fn with enabled := on } ∧ t.cores = s.cores) ∧
    (s.sys.standby = true → ∀ (rate : Fin 8) (lanes : BitVec 16) (n w : Nat), w = linkWidth lanes →
      ∃ t, exec (.hostLinkTrain rate lanes n) s = .next t ∧ t.cores = s.cores ∧
        (w = 0 ∨ rate.val = 0 → t.host.rate = 0 ∧ t.host.width = 0) ∧
        (w ≠ 0 → 4 ≤ rate.val → t.host.rate = rate.val ∧ t.host.width = w ∧ t.host.retries = n) ∧
        (w ≠ 0 → 0 < rate.val → rate.val < 4 → n < 8 → t.host.rate = 0 ∧ t.host.retries = n + 1)) ∧
    (∀ v, s.fnEnabled fn = true → v < tableSize fn → SMap.get false s.host.fnMask fn = false →
      ∃ t, exec (.msixUnmask fn v) s = .next t ∧ t.vector fn v = { s.vector fn v with masked := false, pending := false } ∧
        t.out = (if (s.vector fn v).pending then .msix fn v :: s.out else s.out) ∧ t.cores = s.cores)

/-- SPDM and sessions: HELLO offers a session and PROVE opens it; each accepted frame counts and acts; an event is sent again until its
acknowledgement; an idle session ends (R346, R520 to R526). -/
def Obligations.ManagementPort : Prop :=
  ∀ s : State,
    (∀ (code : Byte) (body : List Byte), s.sys.valacUp = true → 0 < s.host.width →
      (code = 0x84 → ∃ t, exec (.spdmRequest .doe code body) s = .next t ∧ t.out = .spdm .doe 0x04 [0x12, 0x13] :: s.out ∧
        t.cores = s.cores ∧ SMap.get 0 t.fw.spdm 0 = 1) ∧
      (spdmStage code.toNat = none → ∃ t, exec (.spdmRequest .doe code body) s = .next t ∧ t = s.emit (.spdm .doe 0x7F [7]))) ∧
    (s.portServes = true →
      (∀ body : List Byte, body.length = 1600 → ∃ t tr, exec (.hello body) s = .next t ∧
        t.fw.hello = some (BitVec.ofNat 64 s.fw.nextSession, tr) ∧ t.fw.nextSession = s.fw.nextSession + 1 ∧
        t.fw.session = s.fw.session ∧ t.cores = s.cores) ∧
      (∀ (f : MgmtFrame) (id : DWord) (tr : List Byte), s.fw.hello = some (id, tr) → f.session = id → f.tagOk = true → 0 < f.counter.toNat →
        f.body.length = 3073 → s.keyAccepted (f.body.take 1793) = true →
        ∃ t : State, exec (.prove f) s = .next t ∧ { t with fw := s.fw } = s ∧
          if Config.falconVerify (f.body.take 1793) tr (f.body.drop 1793) = true then
            t.fw.hello = none ∧ t.fw.events = [] ∧
            ∃ x : Session, t.fw.session = some x ∧ x.id = id ∧ x.proved = true ∧ x.rxCount = f.counter.toNat ∧ x.txCount = 0
          else t = s) ∧
      (∀ (f : MgmtFrame) (x : Session), s.fw.session = some x → x.takes f = true →
        ((s.mbx 66).state ≠ 1 → ∃ t, exec (.command f) s = .next t ∧ (t.mbx 66).state = 1 ∧
          (t.mbx 66).doorbell = BitVec.ofNat 16 (fieldAt f.body 2 2) ∧
          t.fw.session = some { x with rxCount := f.counter.toNat, idle := s.time.beats } ∧ ∀ m, m ≠ 66 → t.mbx m = s.mbx m) ∧
        ((s.mbx 66).state = 1 → ∃ t, exec (.command f) s = .next t ∧ t.valac = s.valac ∧ t.cores = s.cores) ∧
        (∃ t, exec (.eventAck f) s = .next t ∧ t.fw.events = s.fw.events.filter (fun e => e.1 != fieldAt f.body 0 4) ∧
          { t with fw := s.fw } = s) ∧
        (∃ t, exec (.close f) s = .next t ∧ t.fw.session = none ∧ t.fw.events = [] ∧ { t with fw := s.fw } = s)) ∧
      (∀ (n : Nat) (x : Session) (body : List Byte) (sent : Nat), s.fw.session = some x →
        s.fw.events.find? (fun e => e.1 == n) = some (n, body, sent) → sent ≤ 60 →
        ∃ t, exec (.eventResend n) s = .next t ∧ t.out = .frame 6 x.id (BitVec.ofNat 64 (x.txCount + 1)) body :: s.out ∧
          t.fw.session = some { x with txCount := x.txCount + 1 } ∧ (n, body, sent + 1) ∈ t.fw.events)) ∧
    (∀ x, s.fw.session = some x → x.idle + 300000000 ≤ s.time.beats →
      ∃ t, exec .mgmtSessionIdle s = .next t ∧ t = { s with fw := { s.fw with session := none, events := [] } }) ∧
    (s.sys.standby = true → ∀ up, ∃ t, exec (.managementPortLink up) s = .next t ∧
      t = { s with fw := { s.fw with mgmtUp := up, mgmtRate := if up || s.fw.mgmtUp then s.fw.mgmtRate else 1 - s.fw.mgmtRate } })

/-- Standby power brings step 2 with the image in flash, or the recovery loader (as assumption 61 reads the steps); PWR_EN brings READY with zeroed memory when every step passes, and
state 3 at the step that fails; the steps run again after a warm reset (R510 to R518, R531 to R537, R551). -/
def Obligations.StartUp : Prop :=
  ∀ s : State,
    (s.sys.standby = false → s.sys.pwrEn = false →
      (s.fw.flashFails = 0 → ∃ t, exec (.standbyPowerGood true true) s = .next t ∧ t.sys.standby = true ∧ t.sys.valacUp = true ∧
        t.sys.state = 0 ∧ t.sys.step = 2 ∧ t.fw.recovery = false ∧ t.fw.running = s.fw.flash ∧ t.links.darnMap = s.fw.darn ∧
        t.time.state = (if s.time.source = 2 then .free else .unset)) ∧
      (s.fw.flashFails ≠ 0 → ∃ t, exec (.standbyPowerGood true true) s = .next t ∧ t.sys.standby = true ∧ t.fw.recovery = true ∧
        t.sys.valacUp = true ∧ t.sys.state = 0 ∧ t.sys.step = 2)) ∧
    (s.sys.standby = true → ∃ t, exec .standbyPowerLost s = .next t ∧ t.sys.standby = false ∧ t.sys.valacUp = false ∧ t.cores = [] ∧
      t.work = {} ∧ t.valac = {} ∧ t.store.mem = [] ∧ t.store.flash = s.store.flash ∧ t.fw.used = s.fw.used ∧ t.fw.floor = s.fw.floor ∧
      t.log.flash = s.log.flash) ∧
    (s.sys.pwrEn = false → s.sys.quiescing = false →
      (s.sys.tripped = true ∨ s.allCool = false → ∃ t, exec (.pwrEnAssert none []) s = .next t ∧
        t = { s with sys := { s.sys with pwrEn := true, ignored := true } }) ∧
      (s.sys.valacUp = true → s.fw.recovery = false → s.sys.state = 0 → s.sys.tripped = false → s.sys.ignored = false → s.sys.cutOff = false →
        s.allCool = true → s.links.darnMap = [] →
        (∃ t, exec (.pwrEnAssert none []) s = .next t ∧ t.sys.state = 2 ∧ t.sys.step = 10 ∧ t.sys.mainOn = true ∧ t.store.mem = [] ∧
          t.store.flash = s.store.flash ∧ t.rects = s.rects ∧ t.work = s.work) ∧
        ∀ n cause unit : Nat, 3 ≤ n → n ≤ 10 → ∃ t, exec (.pwrEnAssert (some (n, cause, unit)) []) s = .next t ∧
          t.sys.state = 3 ∧ t.sys.step = n ∧ t.rects = s.rects)) ∧
    (∀ (c : Cmd) (fail : Option (Nat × Nat × Nat)) (bad : List BadWire), s.doing c 0x0A01 4 [(1, 3)] → c.arg 0 1 ≤ 1 → s.committing = false →
      (c.arg 0 1 = 1 ∨ s.unquiesced = 0) →
      ∃ t u : State, exec (.warmReset fail bad) s = .next t ∧ s.answered u c 0 [] ∧ t = u.warmReset c.role fail bad ∧
        t.work.launches = [] ∧ (∀ q, t.queue q = none) ∧ t.valac.ops = [] ∧ t.rects = s.rects) ∧
    (∀ o : Op, s.opOf 0x0801 = some o → s.fw.recovery = false →
      (∃ t, exec (.fwCommitComplete true) s = .next t ∧ t.ended o.id ∧ t.fw.claim = none ∧ t.cores = s.cores ∧
        if imageCheck s.fw.staged s.fw.floor = 0 then
          t.fw.flash = imageOf s.fw.staged 0 ∧ t.fw.staged = [] ∧ t.fw.running = s.fw.running
        else t.fw.flash = s.fw.flash) ∧
      ∃ t, exec (.fwCommitComplete false) s = .next t ∧ t.ended o.id ∧ t.fw.claim = none ∧
        if imageCheck s.fw.staged s.fw.floor = 0 then t.sys.state = 3 ∧ t.fw.flash.failing ≠ 0
        else t.fw.flash = s.fw.flash ∧ t.cores = s.cores) ∧
    (∀ (k : HubIdx) (ch : Fin 16) (spare wear : Byte) (b : Bool), ∃ t, exec (.badBlockRetired k ch spare wear b) s = .next t ∧
      t.flashCtrl k = { sparePct := spare.toNat, wearPct := wear.toNat, readOnly := (s.flashCtrl k).readOnly || b } ∧
      (∀ j, j ≠ k.val → t.flashCtrl j = s.flashCtrl j) ∧ t.store = s.store)

/-- Losing PWR_EN quiesces, and main power then goes; so it does at once on an input out of range, a regulator fault and a trip: memory of
Tiers 1 and 2, partitions and launches are gone, Tier 3 stands; a low input limits the power (R462, R533, R535, R547, R550, R551). -/
def Obligations.PowerLoss : Prop :=
  ∀ s : State,
    (s.sys.pwrEn = true →
      (s.sys.mainOn = false → ∃ t, exec .pwrEnDeassert s = .next t ∧ t = { s with sys := { s.sys with pwrEn := false, ignored := false } }) ∧
      (s.sys.mainOn = true → ∃ t, exec .pwrEnDeassert s = .next t ∧ t.sys.pwrEn = false ∧ t.sys.quiescing = true ∧ t.cores = s.cores ∧
        t.rects = s.rects ∧ ∀ p y, t.part p = some y → y.state ≠ .running)) ∧
    (s.sys.standby = true →
      (∀ (mv : Nat), 44000 ≤ mv → mv < 48000 → ∃ t, exec (.inputUndervoltage mv) s = .next t ∧ t.sys.inputMv = mv ∧
        t.power.inputCap = some (142 * mv / 1000) ∧ t.power.limit ≤ 142 * mv / 1000 ∧ t.sys.mainOn = s.sys.mainOn ∧ t.cores = s.cores) ∧
      (s.sys.pwrEn = false → ∃ t, exec .inputWithinRange s = .next t ∧ t.sys.cutOff = false ∧ t.power.inputCap = none ∧ t.cores = s.cores) ∧
      (∀ (l : SensorLoc) (n : Fin 8) (v : BitVec 16), hotAt 110 v = true → ∃ t, exec (.thermalTrip l n v) s = .next t ∧
        t.sys.tripped = true ∧ t.sys.mainOn = false ∧ t.sys.ignored = s.sys.pwrEn ∧ t.store.flash = s.store.flash)) ∧
    (s.sys.tripped = true → s.sys.pwrEn = false → s.allCool = true →
      ∃ t, exec .thermTripRearm s = .next t ∧ t = { s with sys := { s.sys with tripped := false } }) ∧
    (∀ i ∈ [Instr.mainPowerOff, .inputUndervoltage 43999, .inputOvervoltage, .mainRegulatorFault], s.sys.mainOn = true → s.sys.standby = true →
      (i = .mainPowerOff → s.sys.quiescing = true ∧ s.sys.pwrEn = false) →
      ∃ t, exec i s = .next t ∧ t.sys.mainOn = false ∧ t.sys.pwrGood = false ∧ t.rects = [] ∧ t.store.mem = [] ∧ t.work.parts = [] ∧
        t.work.launches = [] ∧ t.work.queues = [] ∧ t.store.flash = s.store.flash ∧ t.fw.used = s.fw.used ∧
        (i = .mainRegulatorFault → t.sys.ignored = s.sys.pwrEn))
end

