-- ==== Sys2Proof/Laws/SMap.lean ====
section
/-!
SUPPORT. Laws of sparse maps: what a read answers after each operation, and that every operation keeps the canonical form.
-/
namespace Sys2Proof.Machine

variable {α : Type}

@[simp] theorem SMap.get_nil (d : α) (k : Nat) : SMap.get d [] k = d := rfl

theorem SMap.get_insert (d : α) (m : SMap α) (k j : Nat) (v : α) :
    SMap.get d (SMap.insert m k v) j = if k = j then v else SMap.get d m j := by
  induction m with
  | nil => simp [SMap.insert, SMap.get]
  | cons e r ih =>
    obtain ⟨a, x⟩ := e
    by_cases h1 : a < k
    · simp only [SMap.insert, h1, if_true, SMap.get, ih]
      by_cases h2 : a = j <;> by_cases h3 : k = j <;> simp_all
    · by_cases h2 : a = k
      · subst h2
        by_cases h3 : a = j <;> simp [SMap.insert, SMap.get, h3]
      · simp only [SMap.insert, h1, if_false, h2, SMap.get]

theorem SMap.get_drop (d : α) (m : SMap α) (k j : Nat) :
    SMap.get d (m.filter fun e => e.1 != k) j = if k = j then d else SMap.get d m j := by
  induction m with
  | nil => simp
  | cons e r ih =>
    obtain ⟨a, x⟩ := e
    by_cases h1 : a = k
    · subst h1; simp only [List.filter, bne_self_eq_false, ih, SMap.get]
      by_cases h2 : a = j <;> simp [h2]
    · simp only [List.filter, show (a != k) = true by simpa using h1, SMap.get, ih]
      by_cases h2 : a = j <;> by_cases h3 : k = j <;> simp_all

/-- A read after a write: the value written at its key, the old value elsewhere. -/
theorem SMap.get_set [DecidableEq α] (d : α) (m : SMap α) (k j : Nat) (v : α) :
    SMap.get d (SMap.set d m k v) j = if k = j then v else SMap.get d m j := by
  unfold SMap.set
  split
  · next h => rw [SMap.get_drop, h]
  · exact SMap.get_insert d m k j v

@[simp] theorem SMap.get_set_self [DecidableEq α] (d : α) (m : SMap α) (k : Nat) (v : α) :
    SMap.get d (SMap.set d m k v) k = v := by simp [SMap.get_set]

theorem SMap.get_set_ne [DecidableEq α] (d : α) (m : SMap α) {k j : Nat} (h : k ≠ j) (v : α) :
    SMap.get d (SMap.set d m k v) j = SMap.get d m j := by simp [SMap.get_set, h]

/-- A selection keeps the values that it names. -/
theorem SMap.get_keep (d : α) (m : SMap α) (p : Nat → α → Bool) (k : Nat) :
    SMap.get d (SMap.keep m p) k = if p k (SMap.get d m k) then SMap.get d m k else d := by
  induction m with
  | nil => exact (ite_self d).symm
  | cons e r ih =>
    obtain ⟨a, x⟩ := e
    simp only [SMap.keep, SMap.get]
    by_cases h1 : p a x
    · simp only [h1, if_true, SMap.get_insert, ih]
      by_cases h2 : a = k
      · subst h2; simp [h1]
      · simp [h2]
    · simp only [h1, Bool.false_eq_true, if_false]
      rw [SMap.get_drop]
      by_cases h2 : a = k
      · subst h2; simp [h1]
      · simp [h2, ih]

/-- A listed value stands in the list. -/
theorem SMap.mem_of_get {d v : α} {m : SMap α} {k : Nat} (h : SMap.get d m k = v) (hv : v ≠ d) : (k, v) ∈ m := by
  induction m with
  | nil => simp at h; exact absurd h.symm hv
  | cons e r ih =>
    obtain ⟨a, x⟩ := e
    simp only [SMap.get] at h
    by_cases h1 : a = k
    · simp [h1] at h; simp [h1, h]
    · simp [h1] at h; exact List.mem_cons_of_mem _ (ih h)

/-! The canonical form. -/

theorem SMap.wfFrom_insert [DecidableEq α] (d : α) (m : SMap α) (lo : Option Nat) (k : Nat) (v : α)
    (hv : v ≠ d) (hlo : ∀ l, lo = some l → l < k) (h : SMap.wfFrom d lo m = true) :
    SMap.wfFrom d lo (SMap.insert m k v) = true := by
  induction m generalizing lo with
  | nil => cases lo <;> simp_all [SMap.insert, SMap.wfFrom]
  | cons e r ih =>
    obtain ⟨a, x⟩ := e
    simp only [SMap.wfFrom, Bool.and_eq_true] at h
    by_cases h1 : a < k
    · simp only [SMap.insert, h1, if_true, SMap.wfFrom, Bool.and_eq_true]
      exact ⟨h.1, ih (some a) (by simpa using h1) h.2⟩
    · by_cases h2 : a = k
      · subst h2; simp only [SMap.insert, h1, if_false, if_true, SMap.wfFrom, Bool.and_eq_true]
        exact ⟨⟨h.1.1, by simpa using hv⟩, h.2⟩
      · have h3 : k < a := by omega
        simp only [SMap.insert, h1, if_false, h2, SMap.wfFrom, Bool.and_eq_true]
        refine ⟨⟨?_, by simpa using hv⟩, ⟨by simpa using h3, h.1.2⟩, h.2⟩
        cases lo with
        | none => rfl
        | some l => simpa using hlo l rfl

theorem SMap.wfFrom_mono [DecidableEq α] (d : α) {m : SMap α} {lo lo' : Option Nat}
    (h : SMap.wfFrom d lo m = true) (hl : ∀ l, lo' = some l → ∃ l', lo = some l' ∧ l ≤ l') : SMap.wfFrom d lo' m = true := by
  cases m with
  | nil => rfl
  | cons e r =>
    obtain ⟨a, x⟩ := e
    simp only [SMap.wfFrom, Bool.and_eq_true] at h ⊢
    refine ⟨⟨?_, h.1.2⟩, h.2⟩
    cases lo' with
    | none => rfl
    | some l =>
      obtain ⟨l', e1, e2⟩ := hl l rfl
      subst e1
      have := h.1.1
      simp at this ⊢; omega

theorem SMap.wfFrom_filter [DecidableEq α] (d : α) (p : Nat × α → Bool) (m : SMap α) (lo : Option Nat)
    (h : SMap.wfFrom d lo m = true) : SMap.wfFrom d lo (m.filter p) = true := by
  induction m generalizing lo with
  | nil => rfl
  | cons e r ih =>
    obtain ⟨a, x⟩ := e
    simp only [SMap.wfFrom, Bool.and_eq_true] at h
    by_cases h1 : p (a, x)
    · simp only [List.filter, h1, SMap.wfFrom, Bool.and_eq_true]
      exact ⟨h.1, ih (some a) h.2⟩
    · simp only [List.filter, h1]
      refine ih lo (SMap.wfFrom_mono d h.2 ?_)
      intro l hl; subst hl
      refine ⟨a, rfl, ?_⟩
      have := h.1.1; simp at this; omega

theorem SMap.wf_set [DecidableEq α] (d : α) {m : SMap α} (k : Nat) (v : α) (h : SMap.wf d m = true) :
    SMap.wf d (SMap.set d m k v) = true := by
  unfold SMap.set
  split
  · exact SMap.wfFrom_filter d _ m none h
  · next hv => exact SMap.wfFrom_insert d m none k v hv (by simp) h

theorem SMap.wfFrom_keep [DecidableEq α] (d : α) (p : Nat → α → Bool) (m : SMap α) (lo : Option Nat)
    (h : SMap.wfFrom d lo m = true) : SMap.wfFrom d lo (SMap.keep m p) = true := by
  induction m generalizing lo with
  | nil => rfl
  | cons e r ih =>
    obtain ⟨a, x⟩ := e
    simp only [SMap.wfFrom, Bool.and_eq_true] at h
    have hl : ∀ l, lo = some l → l < a := by intro l e; subst e; have := h.1.1; simpa using this
    have hr := ih (some a) h.2
    have hm : ∀ {m : SMap α}, SMap.wfFrom d (some a) m = true → SMap.wfFrom d lo m = true := fun hq =>
      SMap.wfFrom_mono d hq (fun l e => ⟨a, rfl, Nat.le_of_lt (hl l e)⟩)
    simp only [SMap.keep]
    split
    · exact SMap.wfFrom_insert d _ lo a x (by simpa using h.1.2) hl (hm hr)
    · exact hm (SMap.wfFrom_filter d _ _ _ hr)

theorem SMap.wf_keep [DecidableEq α] (d : α) {m : SMap α} (p : Nat → α → Bool) (h : SMap.wf d m = true) :
    SMap.wf d (SMap.keep m p) = true := SMap.wfFrom_keep d p m none h

/-- A change of every listed value is canonical, whatever the map was. -/
theorem SMap.wf_mapV [DecidableEq α] (d : α) (m : SMap α) (f : Nat → α → α) : SMap.wf d (SMap.mapV d m f) = true := by
  induction m with
  | nil => rfl
  | cons e r ih => exact SMap.wf_set d _ _ ih

/-- A read after a change of every value that leaves the default alone. -/
theorem SMap.get_mapV [DecidableEq α] (d : α) (m : SMap α) (f : Nat → α → α) (k : Nat) (h : f k d = d) :
    SMap.get d (SMap.mapV d m f) k = f k (SMap.get d m k) := by
  induction m with
  | nil => simp [SMap.mapV, h]
  | cons e r ih =>
    obtain ⟨a, x⟩ := e
    simp only [SMap.mapV, SMap.get_set, SMap.get, ih]
    by_cases h1 : a = k
    · subst h1; simp
    · simp [h1]

theorem SMap.wf_putBytes {m : SMap Byte} (k : Nat) (bs : List Byte) (h : SMap.wf 0 m = true) :
    SMap.wf 0 (SMap.putBytes m k bs) = true := by
  induction bs generalizing m k with
  | nil => exact h
  | cons b bs ih => exact ih (k + 1) (SMap.wf_set 0 k b h)

/-! Runs of bytes. -/

theorem SMap.get_putBytes (m : SMap Byte) (k j : Nat) (bs : List Byte) :
    SMap.get 0 (SMap.putBytes m k bs) j = if k ≤ j ∧ j < k + bs.length then bs.getD (j - k) 0 else SMap.get 0 m j := by
  induction bs generalizing m k with
  | nil =>
    rw [if_neg (by simp)]; rfl
  | cons b bs ih =>
    simp only [SMap.putBytes, ih, SMap.get_set, List.length_cons]
    by_cases h1 : k = j
    · subst h1; simp
    · by_cases h2 : k + 1 ≤ j ∧ j < k + 1 + bs.length
      · obtain ⟨n, rfl⟩ : ∃ n, j = k + (n + 1) := ⟨j - k - 1, by omega⟩
        have e1 : k + (n + 1) - (k + 1) = n := by omega
        have e2 : k + (n + 1) - k = n + 1 := by omega
        simp [h2, e1, e2]; omega
      · simp only [h2, if_false, h1]
        rw [if_neg]; omega

@[simp] theorem SMap.length_getBytes (m : SMap Byte) (k n : Nat) : (SMap.getBytes m k n).length = n := by
  induction n generalizing k with
  | zero => rfl
  | succ n ih => simp [SMap.getBytes, ih]

theorem SMap.getD_getBytes (m : SMap Byte) (k n i : Nat) (h : i < n) : (SMap.getBytes m k n).getD i 0 = SMap.get 0 m (k + i) := by
  induction n generalizing k i with
  | zero => omega
  | succ n ih =>
    cases i with
    | zero => simp [SMap.getBytes]
    | succ i => simp only [SMap.getBytes, List.getD_cons_succ]; rw [ih (k + 1) i (by omega)]; congr 1; omega

end Sys2Proof.Machine
end

