-- ==== Sys2Proof/Laws/State.lean ====
section
/-!
SUPPORT. What each update of a part of the state leaves alone and what a read of that part then answers.
-/
namespace Sys2Proof.Machine

variable (s : State)

@[simp] theorem State.setCore_pending (c : Nat) (k : Core) : (s.setCore c k).pending = s.pending := rfl
@[simp] theorem State.setCore_free (c : Nat) (k : Core) : (s.setCore c k).free = s.free := rfl
@[simp] theorem State.setCore_rd (c : Nat) (k : Core) : (s.setCore c k).rd = s.rd := rfl
@[simp] theorem State.setCore_rects (c : Nat) (k : Core) : (s.setCore c k).rects = s.rects := rfl
@[simp] theorem State.setCore_fab (c : Nat) (k : Core) : (s.setCore c k).fab = s.fab := rfl
@[simp] theorem State.setCore_xlat (c : Nat) (k : Core) : (s.setCore c k).xlat = s.xlat := rfl
@[simp] theorem State.setCore_store (c : Nat) (k : Core) : (s.setCore c k).store = s.store := rfl
@[simp] theorem State.setCore_links (c : Nat) (k : Core) : (s.setCore c k).links = s.links := rfl
@[simp] theorem State.setCore_valac (c : Nat) (k : Core) : (s.setCore c k).valac = s.valac := rfl
@[simp] theorem State.setCore_log (c : Nat) (k : Core) : (s.setCore c k).log = s.log := rfl
@[simp] theorem State.setCore_work (c : Nat) (k : Core) : (s.setCore c k).work = s.work := rfl
@[simp] theorem State.setCore_time (c : Nat) (k : Core) : (s.setCore c k).time = s.time := rfl
@[simp] theorem State.setCore_power (c : Nat) (k : Core) : (s.setCore c k).power = s.power := rfl
@[simp] theorem State.setCore_twin (c : Nat) (k : Core) : (s.setCore c k).twin = s.twin := rfl
@[simp] theorem State.setCore_host (c : Nat) (k : Core) : (s.setCore c k).host = s.host := rfl
@[simp] theorem State.setCore_fw (c : Nat) (k : Core) : (s.setCore c k).fw = s.fw := rfl
@[simp] theorem State.setCore_sys (c : Nat) (k : Core) : (s.setCore c k).sys = s.sys := rfl
@[simp] theorem State.setCore_out (c : Nat) (k : Core) : (s.setCore c k).out = s.out := rfl
theorem State.core_setCore (c : Nat) (k : Core) (j : Nat) : (s.setCore c k).core j = if c = j then k else s.core j := SMap.get_set _ _ _ _ _
@[simp] theorem State.core_setCore_self (c : Nat) (k : Core) : (s.setCore c k).core c = k := SMap.get_set_self _ _ _ _
@[simp] theorem State.setHalf_pending (h : Nat) (x : Half) : (s.setHalf h x).pending = s.pending := rfl
@[simp] theorem State.setHalf_free (h : Nat) (x : Half) : (s.setHalf h x).free = s.free := rfl
@[simp] theorem State.setHalf_rd (h : Nat) (x : Half) : (s.setHalf h x).rd = s.rd := rfl
@[simp] theorem State.setHalf_rects (h : Nat) (x : Half) : (s.setHalf h x).rects = s.rects := rfl
@[simp] theorem State.setHalf_cores (h : Nat) (x : Half) : (s.setHalf h x).cores = s.cores := rfl
@[simp] theorem State.setHalf_xlat (h : Nat) (x : Half) : (s.setHalf h x).xlat = s.xlat := rfl
@[simp] theorem State.setHalf_store (h : Nat) (x : Half) : (s.setHalf h x).store = s.store := rfl
@[simp] theorem State.setHalf_links (h : Nat) (x : Half) : (s.setHalf h x).links = s.links := rfl
@[simp] theorem State.setHalf_valac (h : Nat) (x : Half) : (s.setHalf h x).valac = s.valac := rfl
@[simp] theorem State.setHalf_log (h : Nat) (x : Half) : (s.setHalf h x).log = s.log := rfl
@[simp] theorem State.setHalf_work (h : Nat) (x : Half) : (s.setHalf h x).work = s.work := rfl
@[simp] theorem State.setHalf_time (h : Nat) (x : Half) : (s.setHalf h x).time = s.time := rfl
@[simp] theorem State.setHalf_power (h : Nat) (x : Half) : (s.setHalf h x).power = s.power := rfl
@[simp] theorem State.setHalf_twin (h : Nat) (x : Half) : (s.setHalf h x).twin = s.twin := rfl
@[simp] theorem State.setHalf_host (h : Nat) (x : Half) : (s.setHalf h x).host = s.host := rfl
@[simp] theorem State.setHalf_fw (h : Nat) (x : Half) : (s.setHalf h x).fw = s.fw := rfl
@[simp] theorem State.setHalf_sys (h : Nat) (x : Half) : (s.setHalf h x).sys = s.sys := rfl
@[simp] theorem State.setHalf_out (h : Nat) (x : Half) : (s.setHalf h x).out = s.out := rfl
theorem State.half_setHalf (h : Nat) (x : Half) (j : Nat) : (s.setHalf h x).half j = if h = j then x else s.half j := SMap.get_set _ _ _ _ _
@[simp] theorem State.half_setHalf_self (h : Nat) (x : Half) : (s.setHalf h x).half h = x := SMap.get_set_self _ _ _ _
@[simp] theorem State.setCtrl_pending (m : Nat) (x : MemCtrl) : (s.setCtrl m x).pending = s.pending := rfl
@[simp] theorem State.setCtrl_free (m : Nat) (x : MemCtrl) : (s.setCtrl m x).free = s.free := rfl
@[simp] theorem State.setCtrl_rd (m : Nat) (x : MemCtrl) : (s.setCtrl m x).rd = s.rd := rfl
@[simp] theorem State.setCtrl_rects (m : Nat) (x : MemCtrl) : (s.setCtrl m x).rects = s.rects := rfl
@[simp] theorem State.setCtrl_cores (m : Nat) (x : MemCtrl) : (s.setCtrl m x).cores = s.cores := rfl
@[simp] theorem State.setCtrl_xlat (m : Nat) (x : MemCtrl) : (s.setCtrl m x).xlat = s.xlat := rfl
@[simp] theorem State.setCtrl_store (m : Nat) (x : MemCtrl) : (s.setCtrl m x).store = s.store := rfl
@[simp] theorem State.setCtrl_links (m : Nat) (x : MemCtrl) : (s.setCtrl m x).links = s.links := rfl
@[simp] theorem State.setCtrl_valac (m : Nat) (x : MemCtrl) : (s.setCtrl m x).valac = s.valac := rfl
@[simp] theorem State.setCtrl_log (m : Nat) (x : MemCtrl) : (s.setCtrl m x).log = s.log := rfl
@[simp] theorem State.setCtrl_work (m : Nat) (x : MemCtrl) : (s.setCtrl m x).work = s.work := rfl
@[simp] theorem State.setCtrl_time (m : Nat) (x : MemCtrl) : (s.setCtrl m x).time = s.time := rfl
@[simp] theorem State.setCtrl_power (m : Nat) (x : MemCtrl) : (s.setCtrl m x).power = s.power := rfl
@[simp] theorem State.setCtrl_twin (m : Nat) (x : MemCtrl) : (s.setCtrl m x).twin = s.twin := rfl
@[simp] theorem State.setCtrl_host (m : Nat) (x : MemCtrl) : (s.setCtrl m x).host = s.host := rfl
@[simp] theorem State.setCtrl_fw (m : Nat) (x : MemCtrl) : (s.setCtrl m x).fw = s.fw := rfl
@[simp] theorem State.setCtrl_sys (m : Nat) (x : MemCtrl) : (s.setCtrl m x).sys = s.sys := rfl
@[simp] theorem State.setCtrl_out (m : Nat) (x : MemCtrl) : (s.setCtrl m x).out = s.out := rfl
theorem State.ctrl_setCtrl (m : Nat) (x : MemCtrl) (j : Nat) : (s.setCtrl m x).ctrl j = if m = j then x else s.ctrl j := SMap.get_set _ _ _ _ _
@[simp] theorem State.ctrl_setCtrl_self (m : Nat) (x : MemCtrl) : (s.setCtrl m x).ctrl m = x := SMap.get_set_self _ _ _ _
@[simp] theorem State.setFlashCtrl_pending (m : Nat) (x : FlashCtrl) : (s.setFlashCtrl m x).pending = s.pending := rfl
@[simp] theorem State.setFlashCtrl_free (m : Nat) (x : FlashCtrl) : (s.setFlashCtrl m x).free = s.free := rfl
@[simp] theorem State.setFlashCtrl_rd (m : Nat) (x : FlashCtrl) : (s.setFlashCtrl m x).rd = s.rd := rfl
@[simp] theorem State.setFlashCtrl_rects (m : Nat) (x : FlashCtrl) : (s.setFlashCtrl m x).rects = s.rects := rfl
@[simp] theorem State.setFlashCtrl_cores (m : Nat) (x : FlashCtrl) : (s.setFlashCtrl m x).cores = s.cores := rfl
@[simp] theorem State.setFlashCtrl_xlat (m : Nat) (x : FlashCtrl) : (s.setFlashCtrl m x).xlat = s.xlat := rfl
@[simp] theorem State.setFlashCtrl_store (m : Nat) (x : FlashCtrl) : (s.setFlashCtrl m x).store = s.store := rfl
@[simp] theorem State.setFlashCtrl_links (m : Nat) (x : FlashCtrl) : (s.setFlashCtrl m x).links = s.links := rfl
@[simp] theorem State.setFlashCtrl_valac (m : Nat) (x : FlashCtrl) : (s.setFlashCtrl m x).valac = s.valac := rfl
@[simp] theorem State.setFlashCtrl_log (m : Nat) (x : FlashCtrl) : (s.setFlashCtrl m x).log = s.log := rfl
@[simp] theorem State.setFlashCtrl_work (m : Nat) (x : FlashCtrl) : (s.setFlashCtrl m x).work = s.work := rfl
@[simp] theorem State.setFlashCtrl_time (m : Nat) (x : FlashCtrl) : (s.setFlashCtrl m x).time = s.time := rfl
@[simp] theorem State.setFlashCtrl_power (m : Nat) (x : FlashCtrl) : (s.setFlashCtrl m x).power = s.power := rfl
@[simp] theorem State.setFlashCtrl_twin (m : Nat) (x : FlashCtrl) : (s.setFlashCtrl m x).twin = s.twin := rfl
@[simp] theorem State.setFlashCtrl_host (m : Nat) (x : FlashCtrl) : (s.setFlashCtrl m x).host = s.host := rfl
@[simp] theorem State.setFlashCtrl_fw (m : Nat) (x : FlashCtrl) : (s.setFlashCtrl m x).fw = s.fw := rfl
@[simp] theorem State.setFlashCtrl_sys (m : Nat) (x : FlashCtrl) : (s.setFlashCtrl m x).sys = s.sys := rfl
@[simp] theorem State.setFlashCtrl_out (m : Nat) (x : FlashCtrl) : (s.setFlashCtrl m x).out = s.out := rfl
theorem State.flashCtrl_setFlashCtrl (m : Nat) (x : FlashCtrl) (j : Nat) : (s.setFlashCtrl m x).flashCtrl j = if m = j then x else s.flashCtrl j := SMap.get_set _ _ _ _ _
@[simp] theorem State.flashCtrl_setFlashCtrl_self (m : Nat) (x : FlashCtrl) : (s.setFlashCtrl m x).flashCtrl m = x := SMap.get_set_self _ _ _ _
@[simp] theorem State.setCtx_pending (i : Nat) (x : Ctx) : (s.setCtx i x).pending = s.pending := rfl
@[simp] theorem State.setCtx_free (i : Nat) (x : Ctx) : (s.setCtx i x).free = s.free := rfl
@[simp] theorem State.setCtx_rd (i : Nat) (x : Ctx) : (s.setCtx i x).rd = s.rd := rfl
@[simp] theorem State.setCtx_rects (i : Nat) (x : Ctx) : (s.setCtx i x).rects = s.rects := rfl
@[simp] theorem State.setCtx_cores (i : Nat) (x : Ctx) : (s.setCtx i x).cores = s.cores := rfl
@[simp] theorem State.setCtx_fab (i : Nat) (x : Ctx) : (s.setCtx i x).fab = s.fab := rfl
@[simp] theorem State.setCtx_store (i : Nat) (x : Ctx) : (s.setCtx i x).store = s.store := rfl
@[simp] theorem State.setCtx_links (i : Nat) (x : Ctx) : (s.setCtx i x).links = s.links := rfl
@[simp] theorem State.setCtx_valac (i : Nat) (x : Ctx) : (s.setCtx i x).valac = s.valac := rfl
@[simp] theorem State.setCtx_log (i : Nat) (x : Ctx) : (s.setCtx i x).log = s.log := rfl
@[simp] theorem State.setCtx_work (i : Nat) (x : Ctx) : (s.setCtx i x).work = s.work := rfl
@[simp] theorem State.setCtx_time (i : Nat) (x : Ctx) : (s.setCtx i x).time = s.time := rfl
@[simp] theorem State.setCtx_power (i : Nat) (x : Ctx) : (s.setCtx i x).power = s.power := rfl
@[simp] theorem State.setCtx_twin (i : Nat) (x : Ctx) : (s.setCtx i x).twin = s.twin := rfl
@[simp] theorem State.setCtx_host (i : Nat) (x : Ctx) : (s.setCtx i x).host = s.host := rfl
@[simp] theorem State.setCtx_fw (i : Nat) (x : Ctx) : (s.setCtx i x).fw = s.fw := rfl
@[simp] theorem State.setCtx_sys (i : Nat) (x : Ctx) : (s.setCtx i x).sys = s.sys := rfl
@[simp] theorem State.setCtx_out (i : Nat) (x : Ctx) : (s.setCtx i x).out = s.out := rfl
theorem State.ctx_setCtx (i : Nat) (x : Ctx) (j : Nat) : (s.setCtx i x).ctx j = if i = j then x else s.ctx j := SMap.get_set _ _ _ _ _
@[simp] theorem State.ctx_setCtx_self (i : Nat) (x : Ctx) : (s.setCtx i x).ctx i = x := SMap.get_set_self _ _ _ _
@[simp] theorem State.setPri_pending (i : Nat) (x : PriState) : (s.setPri i x).pending = s.pending := rfl
@[simp] theorem State.setPri_free (i : Nat) (x : PriState) : (s.setPri i x).free = s.free := rfl
@[simp] theorem State.setPri_rd (i : Nat) (x : PriState) : (s.setPri i x).rd = s.rd := rfl
@[simp] theorem State.setPri_rects (i : Nat) (x : PriState) : (s.setPri i x).rects = s.rects := rfl
@[simp] theorem State.setPri_cores (i : Nat) (x : PriState) : (s.setPri i x).cores = s.cores := rfl
@[simp] theorem State.setPri_fab (i : Nat) (x : PriState) : (s.setPri i x).fab = s.fab := rfl
@[simp] theorem State.setPri_store (i : Nat) (x : PriState) : (s.setPri i x).store = s.store := rfl
@[simp] theorem State.setPri_links (i : Nat) (x : PriState) : (s.setPri i x).links = s.links := rfl
@[simp] theorem State.setPri_valac (i : Nat) (x : PriState) : (s.setPri i x).valac = s.valac := rfl
@[simp] theorem State.setPri_log (i : Nat) (x : PriState) : (s.setPri i x).log = s.log := rfl
@[simp] theorem State.setPri_work (i : Nat) (x : PriState) : (s.setPri i x).work = s.work := rfl
@[simp] theorem State.setPri_time (i : Nat) (x : PriState) : (s.setPri i x).time = s.time := rfl
@[simp] theorem State.setPri_power (i : Nat) (x : PriState) : (s.setPri i x).power = s.power := rfl
@[simp] theorem State.setPri_twin (i : Nat) (x : PriState) : (s.setPri i x).twin = s.twin := rfl
@[simp] theorem State.setPri_host (i : Nat) (x : PriState) : (s.setPri i x).host = s.host := rfl
@[simp] theorem State.setPri_fw (i : Nat) (x : PriState) : (s.setPri i x).fw = s.fw := rfl
@[simp] theorem State.setPri_sys (i : Nat) (x : PriState) : (s.setPri i x).sys = s.sys := rfl
@[simp] theorem State.setPri_out (i : Nat) (x : PriState) : (s.setPri i x).out = s.out := rfl
theorem State.pri_setPri (i : Nat) (x : PriState) (j : Nat) : (s.setPri i x).pri j = if i = j then x else s.pri j := SMap.get_set _ _ _ _ _
@[simp] theorem State.pri_setPri_self (i : Nat) (x : PriState) : (s.setPri i x).pri i = x := SMap.get_set_self _ _ _ _
@[simp] theorem State.setRow_pending (i : Nat) (x : Option XRow) : (s.setRow i x).pending = s.pending := rfl
@[simp] theorem State.setRow_free (i : Nat) (x : Option XRow) : (s.setRow i x).free = s.free := rfl
@[simp] theorem State.setRow_rd (i : Nat) (x : Option XRow) : (s.setRow i x).rd = s.rd := rfl
@[simp] theorem State.setRow_rects (i : Nat) (x : Option XRow) : (s.setRow i x).rects = s.rects := rfl
@[simp] theorem State.setRow_cores (i : Nat) (x : Option XRow) : (s.setRow i x).cores = s.cores := rfl
@[simp] theorem State.setRow_fab (i : Nat) (x : Option XRow) : (s.setRow i x).fab = s.fab := rfl
@[simp] theorem State.setRow_store (i : Nat) (x : Option XRow) : (s.setRow i x).store = s.store := rfl
@[simp] theorem State.setRow_links (i : Nat) (x : Option XRow) : (s.setRow i x).links = s.links := rfl
@[simp] theorem State.setRow_valac (i : Nat) (x : Option XRow) : (s.setRow i x).valac = s.valac := rfl
@[simp] theorem State.setRow_log (i : Nat) (x : Option XRow) : (s.setRow i x).log = s.log := rfl
@[simp] theorem State.setRow_work (i : Nat) (x : Option XRow) : (s.setRow i x).work = s.work := rfl
@[simp] theorem State.setRow_time (i : Nat) (x : Option XRow) : (s.setRow i x).time = s.time := rfl
@[simp] theorem State.setRow_power (i : Nat) (x : Option XRow) : (s.setRow i x).power = s.power := rfl
@[simp] theorem State.setRow_twin (i : Nat) (x : Option XRow) : (s.setRow i x).twin = s.twin := rfl
@[simp] theorem State.setRow_host (i : Nat) (x : Option XRow) : (s.setRow i x).host = s.host := rfl
@[simp] theorem State.setRow_fw (i : Nat) (x : Option XRow) : (s.setRow i x).fw = s.fw := rfl
@[simp] theorem State.setRow_sys (i : Nat) (x : Option XRow) : (s.setRow i x).sys = s.sys := rfl
@[simp] theorem State.setRow_out (i : Nat) (x : Option XRow) : (s.setRow i x).out = s.out := rfl
theorem State.row_setRow (i : Nat) (x : Option XRow) (j : Nat) : (s.setRow i x).row j = if i = j then x else s.row j := SMap.get_set _ _ _ _ _
@[simp] theorem State.row_setRow_self (i : Nat) (x : Option XRow) : (s.setRow i x).row i = x := SMap.get_set_self _ _ _ _
@[simp] theorem State.setPart_pending (i : Nat) (x : Option Part) : (s.setPart i x).pending = s.pending := rfl
@[simp] theorem State.setPart_free (i : Nat) (x : Option Part) : (s.setPart i x).free = s.free := rfl
@[simp] theorem State.setPart_rd (i : Nat) (x : Option Part) : (s.setPart i x).rd = s.rd := rfl
@[simp] theorem State.setPart_rects (i : Nat) (x : Option Part) : (s.setPart i x).rects = s.rects := rfl
@[simp] theorem State.setPart_cores (i : Nat) (x : Option Part) : (s.setPart i x).cores = s.cores := rfl
@[simp] theorem State.setPart_fab (i : Nat) (x : Option Part) : (s.setPart i x).fab = s.fab := rfl
@[simp] theorem State.setPart_xlat (i : Nat) (x : Option Part) : (s.setPart i x).xlat = s.xlat := rfl
@[simp] theorem State.setPart_store (i : Nat) (x : Option Part) : (s.setPart i x).store = s.store := rfl
@[simp] theorem State.setPart_links (i : Nat) (x : Option Part) : (s.setPart i x).links = s.links := rfl
@[simp] theorem State.setPart_valac (i : Nat) (x : Option Part) : (s.setPart i x).valac = s.valac := rfl
@[simp] theorem State.setPart_log (i : Nat) (x : Option Part) : (s.setPart i x).log = s.log := rfl
@[simp] theorem State.setPart_time (i : Nat) (x : Option Part) : (s.setPart i x).time = s.time := rfl
@[simp] theorem State.setPart_power (i : Nat) (x : Option Part) : (s.setPart i x).power = s.power := rfl
@[simp] theorem State.setPart_twin (i : Nat) (x : Option Part) : (s.setPart i x).twin = s.twin := rfl
@[simp] theorem State.setPart_host (i : Nat) (x : Option Part) : (s.setPart i x).host = s.host := rfl
@[simp] theorem State.setPart_fw (i : Nat) (x : Option Part) : (s.setPart i x).fw = s.fw := rfl
@[simp] theorem State.setPart_sys (i : Nat) (x : Option Part) : (s.setPart i x).sys = s.sys := rfl
@[simp] theorem State.setPart_out (i : Nat) (x : Option Part) : (s.setPart i x).out = s.out := rfl
theorem State.part_setPart (i : Nat) (x : Option Part) (j : Nat) : (s.setPart i x).part j = if i = j then x else s.part j := SMap.get_set _ _ _ _ _
@[simp] theorem State.part_setPart_self (i : Nat) (x : Option Part) : (s.setPart i x).part i = x := SMap.get_set_self _ _ _ _
@[simp] theorem State.setQueue_pending (i : Nat) (x : Option Queue) : (s.setQueue i x).pending = s.pending := rfl
@[simp] theorem State.setQueue_free (i : Nat) (x : Option Queue) : (s.setQueue i x).free = s.free := rfl
@[simp] theorem State.setQueue_rd (i : Nat) (x : Option Queue) : (s.setQueue i x).rd = s.rd := rfl
@[simp] theorem State.setQueue_rects (i : Nat) (x : Option Queue) : (s.setQueue i x).rects = s.rects := rfl
@[simp] theorem State.setQueue_cores (i : Nat) (x : Option Queue) : (s.setQueue i x).cores = s.cores := rfl
@[simp] theorem State.setQueue_fab (i : Nat) (x : Option Queue) : (s.setQueue i x).fab = s.fab := rfl
@[simp] theorem State.setQueue_xlat (i : Nat) (x : Option Queue) : (s.setQueue i x).xlat = s.xlat := rfl
@[simp] theorem State.setQueue_store (i : Nat) (x : Option Queue) : (s.setQueue i x).store = s.store := rfl
@[simp] theorem State.setQueue_links (i : Nat) (x : Option Queue) : (s.setQueue i x).links = s.links := rfl
@[simp] theorem State.setQueue_valac (i : Nat) (x : Option Queue) : (s.setQueue i x).valac = s.valac := rfl
@[simp] theorem State.setQueue_log (i : Nat) (x : Option Queue) : (s.setQueue i x).log = s.log := rfl
@[simp] theorem State.setQueue_time (i : Nat) (x : Option Queue) : (s.setQueue i x).time = s.time := rfl
@[simp] theorem State.setQueue_power (i : Nat) (x : Option Queue) : (s.setQueue i x).power = s.power := rfl
@[simp] theorem State.setQueue_twin (i : Nat) (x : Option Queue) : (s.setQueue i x).twin = s.twin := rfl
@[simp] theorem State.setQueue_host (i : Nat) (x : Option Queue) : (s.setQueue i x).host = s.host := rfl
@[simp] theorem State.setQueue_fw (i : Nat) (x : Option Queue) : (s.setQueue i x).fw = s.fw := rfl
@[simp] theorem State.setQueue_sys (i : Nat) (x : Option Queue) : (s.setQueue i x).sys = s.sys := rfl
@[simp] theorem State.setQueue_out (i : Nat) (x : Option Queue) : (s.setQueue i x).out = s.out := rfl
theorem State.queue_setQueue (i : Nat) (x : Option Queue) (j : Nat) : (s.setQueue i x).queue j = if i = j then x else s.queue j := SMap.get_set _ _ _ _ _
@[simp] theorem State.queue_setQueue_self (i : Nat) (x : Option Queue) : (s.setQueue i x).queue i = x := SMap.get_set_self _ _ _ _
@[simp] theorem State.setCring_pending (i : Nat) (x : Option CRing) : (s.setCring i x).pending = s.pending := rfl
@[simp] theorem State.setCring_free (i : Nat) (x : Option CRing) : (s.setCring i x).free = s.free := rfl
@[simp] theorem State.setCring_rd (i : Nat) (x : Option CRing) : (s.setCring i x).rd = s.rd := rfl
@[simp] theorem State.setCring_rects (i : Nat) (x : Option CRing) : (s.setCring i x).rects = s.rects := rfl
@[simp] theorem State.setCring_cores (i : Nat) (x : Option CRing) : (s.setCring i x).cores = s.cores := rfl
@[simp] theorem State.setCring_fab (i : Nat) (x : Option CRing) : (s.setCring i x).fab = s.fab := rfl
@[simp] theorem State.setCring_xlat (i : Nat) (x : Option CRing) : (s.setCring i x).xlat = s.xlat := rfl
@[simp] theorem State.setCring_store (i : Nat) (x : Option CRing) : (s.setCring i x).store = s.store := rfl
@[simp] theorem State.setCring_links (i : Nat) (x : Option CRing) : (s.setCring i x).links = s.links := rfl
@[simp] theorem State.setCring_valac (i : Nat) (x : Option CRing) : (s.setCring i x).valac = s.valac := rfl
@[simp] theorem State.setCring_log (i : Nat) (x : Option CRing) : (s.setCring i x).log = s.log := rfl
@[simp] theorem State.setCring_time (i : Nat) (x : Option CRing) : (s.setCring i x).time = s.time := rfl
@[simp] theorem State.setCring_power (i : Nat) (x : Option CRing) : (s.setCring i x).power = s.power := rfl
@[simp] theorem State.setCring_twin (i : Nat) (x : Option CRing) : (s.setCring i x).twin = s.twin := rfl
@[simp] theorem State.setCring_host (i : Nat) (x : Option CRing) : (s.setCring i x).host = s.host := rfl
@[simp] theorem State.setCring_fw (i : Nat) (x : Option CRing) : (s.setCring i x).fw = s.fw := rfl
@[simp] theorem State.setCring_sys (i : Nat) (x : Option CRing) : (s.setCring i x).sys = s.sys := rfl
@[simp] theorem State.setCring_out (i : Nat) (x : Option CRing) : (s.setCring i x).out = s.out := rfl
theorem State.cring_setCring (i : Nat) (x : Option CRing) (j : Nat) : (s.setCring i x).cring j = if i = j then x else s.cring j := SMap.get_set _ _ _ _ _
@[simp] theorem State.cring_setCring_self (i : Nat) (x : Option CRing) : (s.setCring i x).cring i = x := SMap.get_set_self _ _ _ _
@[simp] theorem State.setKernel_pending (i : Nat) (x : Option Kernel) : (s.setKernel i x).pending = s.pending := rfl
@[simp] theorem State.setKernel_free (i : Nat) (x : Option Kernel) : (s.setKernel i x).free = s.free := rfl
@[simp] theorem State.setKernel_rd (i : Nat) (x : Option Kernel) : (s.setKernel i x).rd = s.rd := rfl
@[simp] theorem State.setKernel_rects (i : Nat) (x : Option Kernel) : (s.setKernel i x).rects = s.rects := rfl
@[simp] theorem State.setKernel_cores (i : Nat) (x : Option Kernel) : (s.setKernel i x).cores = s.cores := rfl
@[simp] theorem State.setKernel_fab (i : Nat) (x : Option Kernel) : (s.setKernel i x).fab = s.fab := rfl
@[simp] theorem State.setKernel_xlat (i : Nat) (x : Option Kernel) : (s.setKernel i x).xlat = s.xlat := rfl
@[simp] theorem State.setKernel_store (i : Nat) (x : Option Kernel) : (s.setKernel i x).store = s.store := rfl
@[simp] theorem State.setKernel_links (i : Nat) (x : Option Kernel) : (s.setKernel i x).links = s.links := rfl
@[simp] theorem State.setKernel_valac (i : Nat) (x : Option Kernel) : (s.setKernel i x).valac = s.valac := rfl
@[simp] theorem State.setKernel_log (i : Nat) (x : Option Kernel) : (s.setKernel i x).log = s.log := rfl
@[simp] theorem State.setKernel_time (i : Nat) (x : Option Kernel) : (s.setKernel i x).time = s.time := rfl
@[simp] theorem State.setKernel_power (i : Nat) (x : Option Kernel) : (s.setKernel i x).power = s.power := rfl
@[simp] theorem State.setKernel_twin (i : Nat) (x : Option Kernel) : (s.setKernel i x).twin = s.twin := rfl
@[simp] theorem State.setKernel_host (i : Nat) (x : Option Kernel) : (s.setKernel i x).host = s.host := rfl
@[simp] theorem State.setKernel_fw (i : Nat) (x : Option Kernel) : (s.setKernel i x).fw = s.fw := rfl
@[simp] theorem State.setKernel_sys (i : Nat) (x : Option Kernel) : (s.setKernel i x).sys = s.sys := rfl
@[simp] theorem State.setKernel_out (i : Nat) (x : Option Kernel) : (s.setKernel i x).out = s.out := rfl
theorem State.kernel_setKernel (i : Nat) (x : Option Kernel) (j : Nat) : (s.setKernel i x).kernel j = if i = j then x else s.kernel j := SMap.get_set _ _ _ _ _
@[simp] theorem State.kernel_setKernel_self (i : Nat) (x : Option Kernel) : (s.setKernel i x).kernel i = x := SMap.get_set_self _ _ _ _
@[simp] theorem State.setGraph_pending (i : Nat) (x : Option Graph) : (s.setGraph i x).pending = s.pending := rfl
@[simp] theorem State.setGraph_free (i : Nat) (x : Option Graph) : (s.setGraph i x).free = s.free := rfl
@[simp] theorem State.setGraph_rd (i : Nat) (x : Option Graph) : (s.setGraph i x).rd = s.rd := rfl
@[simp] theorem State.setGraph_rects (i : Nat) (x : Option Graph) : (s.setGraph i x).rects = s.rects := rfl
@[simp] theorem State.setGraph_cores (i : Nat) (x : Option Graph) : (s.setGraph i x).cores = s.cores := rfl
@[simp] theorem State.setGraph_fab (i : Nat) (x : Option Graph) : (s.setGraph i x).fab = s.fab := rfl
@[simp] theorem State.setGraph_xlat (i : Nat) (x : Option Graph) : (s.setGraph i x).xlat = s.xlat := rfl
@[simp] theorem State.setGraph_store (i : Nat) (x : Option Graph) : (s.setGraph i x).store = s.store := rfl
@[simp] theorem State.setGraph_links (i : Nat) (x : Option Graph) : (s.setGraph i x).links = s.links := rfl
@[simp] theorem State.setGraph_valac (i : Nat) (x : Option Graph) : (s.setGraph i x).valac = s.valac := rfl
@[simp] theorem State.setGraph_log (i : Nat) (x : Option Graph) : (s.setGraph i x).log = s.log := rfl
@[simp] theorem State.setGraph_time (i : Nat) (x : Option Graph) : (s.setGraph i x).time = s.time := rfl
@[simp] theorem State.setGraph_power (i : Nat) (x : Option Graph) : (s.setGraph i x).power = s.power := rfl
@[simp] theorem State.setGraph_twin (i : Nat) (x : Option Graph) : (s.setGraph i x).twin = s.twin := rfl
@[simp] theorem State.setGraph_host (i : Nat) (x : Option Graph) : (s.setGraph i x).host = s.host := rfl
@[simp] theorem State.setGraph_fw (i : Nat) (x : Option Graph) : (s.setGraph i x).fw = s.fw := rfl
@[simp] theorem State.setGraph_sys (i : Nat) (x : Option Graph) : (s.setGraph i x).sys = s.sys := rfl
@[simp] theorem State.setGraph_out (i : Nat) (x : Option Graph) : (s.setGraph i x).out = s.out := rfl
theorem State.graph_setGraph (i : Nat) (x : Option Graph) (j : Nat) : (s.setGraph i x).graph j = if i = j then x else s.graph j := SMap.get_set _ _ _ _ _
@[simp] theorem State.graph_setGraph_self (i : Nat) (x : Option Graph) : (s.setGraph i x).graph i = x := SMap.get_set_self _ _ _ _
@[simp] theorem State.setMbx_pending (i : Nat) (x : Mailbox) : (s.setMbx i x).pending = s.pending := rfl
@[simp] theorem State.setMbx_free (i : Nat) (x : Mailbox) : (s.setMbx i x).free = s.free := rfl
@[simp] theorem State.setMbx_rd (i : Nat) (x : Mailbox) : (s.setMbx i x).rd = s.rd := rfl
@[simp] theorem State.setMbx_rects (i : Nat) (x : Mailbox) : (s.setMbx i x).rects = s.rects := rfl
@[simp] theorem State.setMbx_cores (i : Nat) (x : Mailbox) : (s.setMbx i x).cores = s.cores := rfl
@[simp] theorem State.setMbx_fab (i : Nat) (x : Mailbox) : (s.setMbx i x).fab = s.fab := rfl
@[simp] theorem State.setMbx_xlat (i : Nat) (x : Mailbox) : (s.setMbx i x).xlat = s.xlat := rfl
@[simp] theorem State.setMbx_store (i : Nat) (x : Mailbox) : (s.setMbx i x).store = s.store := rfl
@[simp] theorem State.setMbx_links (i : Nat) (x : Mailbox) : (s.setMbx i x).links = s.links := rfl
@[simp] theorem State.setMbx_log (i : Nat) (x : Mailbox) : (s.setMbx i x).log = s.log := rfl
@[simp] theorem State.setMbx_work (i : Nat) (x : Mailbox) : (s.setMbx i x).work = s.work := rfl
@[simp] theorem State.setMbx_time (i : Nat) (x : Mailbox) : (s.setMbx i x).time = s.time := rfl
@[simp] theorem State.setMbx_power (i : Nat) (x : Mailbox) : (s.setMbx i x).power = s.power := rfl
@[simp] theorem State.setMbx_twin (i : Nat) (x : Mailbox) : (s.setMbx i x).twin = s.twin := rfl
@[simp] theorem State.setMbx_host (i : Nat) (x : Mailbox) : (s.setMbx i x).host = s.host := rfl
@[simp] theorem State.setMbx_fw (i : Nat) (x : Mailbox) : (s.setMbx i x).fw = s.fw := rfl
@[simp] theorem State.setMbx_sys (i : Nat) (x : Mailbox) : (s.setMbx i x).sys = s.sys := rfl
@[simp] theorem State.setMbx_out (i : Nat) (x : Mailbox) : (s.setMbx i x).out = s.out := rfl
theorem State.mbx_setMbx (i : Nat) (x : Mailbox) (j : Nat) : (s.setMbx i x).mbx j = if i = j then x else s.mbx j := SMap.get_set _ _ _ _ _
@[simp] theorem State.mbx_setMbx_self (i : Nat) (x : Mailbox) : (s.setMbx i x).mbx i = x := SMap.get_set_self _ _ _ _
@[simp] theorem State.setRing_pending (i : Nat) (x : EventRing) : (s.setRing i x).pending = s.pending := rfl
@[simp] theorem State.setRing_free (i : Nat) (x : EventRing) : (s.setRing i x).free = s.free := rfl
@[simp] theorem State.setRing_rd (i : Nat) (x : EventRing) : (s.setRing i x).rd = s.rd := rfl
@[simp] theorem State.setRing_rects (i : Nat) (x : EventRing) : (s.setRing i x).rects = s.rects := rfl
@[simp] theorem State.setRing_cores (i : Nat) (x : EventRing) : (s.setRing i x).cores = s.cores := rfl
@[simp] theorem State.setRing_fab (i : Nat) (x : EventRing) : (s.setRing i x).fab = s.fab := rfl
@[simp] theorem State.setRing_xlat (i : Nat) (x : EventRing) : (s.setRing i x).xlat = s.xlat := rfl
@[simp] theorem State.setRing_store (i : Nat) (x : EventRing) : (s.setRing i x).store = s.store := rfl
@[simp] theorem State.setRing_links (i : Nat) (x : EventRing) : (s.setRing i x).links = s.links := rfl
@[simp] theorem State.setRing_log (i : Nat) (x : EventRing) : (s.setRing i x).log = s.log := rfl
@[simp] theorem State.setRing_work (i : Nat) (x : EventRing) : (s.setRing i x).work = s.work := rfl
@[simp] theorem State.setRing_time (i : Nat) (x : EventRing) : (s.setRing i x).time = s.time := rfl
@[simp] theorem State.setRing_power (i : Nat) (x : EventRing) : (s.setRing i x).power = s.power := rfl
@[simp] theorem State.setRing_twin (i : Nat) (x : EventRing) : (s.setRing i x).twin = s.twin := rfl
@[simp] theorem State.setRing_host (i : Nat) (x : EventRing) : (s.setRing i x).host = s.host := rfl
@[simp] theorem State.setRing_fw (i : Nat) (x : EventRing) : (s.setRing i x).fw = s.fw := rfl
@[simp] theorem State.setRing_sys (i : Nat) (x : EventRing) : (s.setRing i x).sys = s.sys := rfl
@[simp] theorem State.setRing_out (i : Nat) (x : EventRing) : (s.setRing i x).out = s.out := rfl
theorem State.ring_setRing (i : Nat) (x : EventRing) (j : Nat) : (s.setRing i x).ring j = if i = j then x else s.ring j := SMap.get_set _ _ _ _ _
@[simp] theorem State.ring_setRing_self (i : Nat) (x : EventRing) : (s.setRing i x).ring i = x := SMap.get_set_self _ _ _ _
@[simp] theorem State.setBundle_pending (i : Nat) (x : Bundle) : (s.setBundle i x).pending = s.pending := rfl
@[simp] theorem State.setBundle_free (i : Nat) (x : Bundle) : (s.setBundle i x).free = s.free := rfl
@[simp] theorem State.setBundle_rd (i : Nat) (x : Bundle) : (s.setBundle i x).rd = s.rd := rfl
@[simp] theorem State.setBundle_rects (i : Nat) (x : Bundle) : (s.setBundle i x).rects = s.rects := rfl
@[simp] theorem State.setBundle_cores (i : Nat) (x : Bundle) : (s.setBundle i x).cores = s.cores := rfl
@[simp] theorem State.setBundle_fab (i : Nat) (x : Bundle) : (s.setBundle i x).fab = s.fab := rfl
@[simp] theorem State.setBundle_xlat (i : Nat) (x : Bundle) : (s.setBundle i x).xlat = s.xlat := rfl
@[simp] theorem State.setBundle_store (i : Nat) (x : Bundle) : (s.setBundle i x).store = s.store := rfl
@[simp] theorem State.setBundle_valac (i : Nat) (x : Bundle) : (s.setBundle i x).valac = s.valac := rfl
@[simp] theorem State.setBundle_log (i : Nat) (x : Bundle) : (s.setBundle i x).log = s.log := rfl
@[simp] theorem State.setBundle_work (i : Nat) (x : Bundle) : (s.setBundle i x).work = s.work := rfl
@[simp] theorem State.setBundle_time (i : Nat) (x : Bundle) : (s.setBundle i x).time = s.time := rfl
@[simp] theorem State.setBundle_power (i : Nat) (x : Bundle) : (s.setBundle i x).power = s.power := rfl
@[simp] theorem State.setBundle_twin (i : Nat) (x : Bundle) : (s.setBundle i x).twin = s.twin := rfl
@[simp] theorem State.setBundle_host (i : Nat) (x : Bundle) : (s.setBundle i x).host = s.host := rfl
@[simp] theorem State.setBundle_fw (i : Nat) (x : Bundle) : (s.setBundle i x).fw = s.fw := rfl
@[simp] theorem State.setBundle_sys (i : Nat) (x : Bundle) : (s.setBundle i x).sys = s.sys := rfl
@[simp] theorem State.setBundle_out (i : Nat) (x : Bundle) : (s.setBundle i x).out = s.out := rfl
theorem State.bundle_setBundle (i : Nat) (x : Bundle) (j : Nat) : (s.setBundle i x).bundle j = if i = j then x else s.bundle j := SMap.get_set _ _ _ _ _
@[simp] theorem State.bundle_setBundle_self (i : Nat) (x : Bundle) : (s.setBundle i x).bundle i = x := SMap.get_set_self _ _ _ _
@[simp] theorem State.setArb_pending (i : Nat) (x : Arb) : (s.setArb i x).pending = s.pending := rfl
@[simp] theorem State.setArb_free (i : Nat) (x : Arb) : (s.setArb i x).free = s.free := rfl
@[simp] theorem State.setArb_rd (i : Nat) (x : Arb) : (s.setArb i x).rd = s.rd := rfl
@[simp] theorem State.setArb_rects (i : Nat) (x : Arb) : (s.setArb i x).rects = s.rects := rfl
@[simp] theorem State.setArb_cores (i : Nat) (x : Arb) : (s.setArb i x).cores = s.cores := rfl
@[simp] theorem State.setArb_fab (i : Nat) (x : Arb) : (s.setArb i x).fab = s.fab := rfl
@[simp] theorem State.setArb_xlat (i : Nat) (x : Arb) : (s.setArb i x).xlat = s.xlat := rfl
@[simp] theorem State.setArb_store (i : Nat) (x : Arb) : (s.setArb i x).store = s.store := rfl
@[simp] theorem State.setArb_valac (i : Nat) (x : Arb) : (s.setArb i x).valac = s.valac := rfl
@[simp] theorem State.setArb_log (i : Nat) (x : Arb) : (s.setArb i x).log = s.log := rfl
@[simp] theorem State.setArb_work (i : Nat) (x : Arb) : (s.setArb i x).work = s.work := rfl
@[simp] theorem State.setArb_time (i : Nat) (x : Arb) : (s.setArb i x).time = s.time := rfl
@[simp] theorem State.setArb_power (i : Nat) (x : Arb) : (s.setArb i x).power = s.power := rfl
@[simp] theorem State.setArb_twin (i : Nat) (x : Arb) : (s.setArb i x).twin = s.twin := rfl
@[simp] theorem State.setArb_host (i : Nat) (x : Arb) : (s.setArb i x).host = s.host := rfl
@[simp] theorem State.setArb_fw (i : Nat) (x : Arb) : (s.setArb i x).fw = s.fw := rfl
@[simp] theorem State.setArb_sys (i : Nat) (x : Arb) : (s.setArb i x).sys = s.sys := rfl
@[simp] theorem State.setArb_out (i : Nat) (x : Arb) : (s.setArb i x).out = s.out := rfl
theorem State.arb_setArb (i : Nat) (x : Arb) (j : Nat) : (s.setArb i x).arb j = if i = j then x else s.arb j := SMap.get_set _ _ _ _ _
@[simp] theorem State.arb_setArb_self (i : Nat) (x : Arb) : (s.setArb i x).arb i = x := SMap.get_set_self _ _ _ _
@[simp] theorem State.setSteward_pending (i : Nat) (x : Steward) : (s.setSteward i x).pending = s.pending := rfl
@[simp] theorem State.setSteward_free (i : Nat) (x : Steward) : (s.setSteward i x).free = s.free := rfl
@[simp] theorem State.setSteward_rd (i : Nat) (x : Steward) : (s.setSteward i x).rd = s.rd := rfl
@[simp] theorem State.setSteward_rects (i : Nat) (x : Steward) : (s.setSteward i x).rects = s.rects := rfl
@[simp] theorem State.setSteward_cores (i : Nat) (x : Steward) : (s.setSteward i x).cores = s.cores := rfl
@[simp] theorem State.setSteward_fab (i : Nat) (x : Steward) : (s.setSteward i x).fab = s.fab := rfl
@[simp] theorem State.setSteward_xlat (i : Nat) (x : Steward) : (s.setSteward i x).xlat = s.xlat := rfl
@[simp] theorem State.setSteward_store (i : Nat) (x : Steward) : (s.setSteward i x).store = s.store := rfl
@[simp] theorem State.setSteward_links (i : Nat) (x : Steward) : (s.setSteward i x).links = s.links := rfl
@[simp] theorem State.setSteward_valac (i : Nat) (x : Steward) : (s.setSteward i x).valac = s.valac := rfl
@[simp] theorem State.setSteward_log (i : Nat) (x : Steward) : (s.setSteward i x).log = s.log := rfl
@[simp] theorem State.setSteward_work (i : Nat) (x : Steward) : (s.setSteward i x).work = s.work := rfl
@[simp] theorem State.setSteward_time (i : Nat) (x : Steward) : (s.setSteward i x).time = s.time := rfl
@[simp] theorem State.setSteward_twin (i : Nat) (x : Steward) : (s.setSteward i x).twin = s.twin := rfl
@[simp] theorem State.setSteward_host (i : Nat) (x : Steward) : (s.setSteward i x).host = s.host := rfl
@[simp] theorem State.setSteward_fw (i : Nat) (x : Steward) : (s.setSteward i x).fw = s.fw := rfl
@[simp] theorem State.setSteward_sys (i : Nat) (x : Steward) : (s.setSteward i x).sys = s.sys := rfl
@[simp] theorem State.setSteward_out (i : Nat) (x : Steward) : (s.setSteward i x).out = s.out := rfl
theorem State.steward_setSteward (i : Nat) (x : Steward) (j : Nat) : (s.setSteward i x).steward j = if i = j then x else s.steward j := SMap.get_set _ _ _ _ _
@[simp] theorem State.steward_setSteward_self (i : Nat) (x : Steward) : (s.setSteward i x).steward i = x := SMap.get_set_self _ _ _ _
@[simp] theorem State.setWin_pending (i : Nat) (x : MirWin) : (s.setWin i x).pending = s.pending := rfl
@[simp] theorem State.setWin_free (i : Nat) (x : MirWin) : (s.setWin i x).free = s.free := rfl
@[simp] theorem State.setWin_rd (i : Nat) (x : MirWin) : (s.setWin i x).rd = s.rd := rfl
@[simp] theorem State.setWin_rects (i : Nat) (x : MirWin) : (s.setWin i x).rects = s.rects := rfl
@[simp] theorem State.setWin_cores (i : Nat) (x : MirWin) : (s.setWin i x).cores = s.cores := rfl
@[simp] theorem State.setWin_fab (i : Nat) (x : MirWin) : (s.setWin i x).fab = s.fab := rfl
@[simp] theorem State.setWin_xlat (i : Nat) (x : MirWin) : (s.setWin i x).xlat = s.xlat := rfl
@[simp] theorem State.setWin_store (i : Nat) (x : MirWin) : (s.setWin i x).store = s.store := rfl
@[simp] theorem State.setWin_links (i : Nat) (x : MirWin) : (s.setWin i x).links = s.links := rfl
@[simp] theorem State.setWin_valac (i : Nat) (x : MirWin) : (s.setWin i x).valac = s.valac := rfl
@[simp] theorem State.setWin_log (i : Nat) (x : MirWin) : (s.setWin i x).log = s.log := rfl
@[simp] theorem State.setWin_work (i : Nat) (x : MirWin) : (s.setWin i x).work = s.work := rfl
@[simp] theorem State.setWin_time (i : Nat) (x : MirWin) : (s.setWin i x).time = s.time := rfl
@[simp] theorem State.setWin_power (i : Nat) (x : MirWin) : (s.setWin i x).power = s.power := rfl
@[simp] theorem State.setWin_host (i : Nat) (x : MirWin) : (s.setWin i x).host = s.host := rfl
@[simp] theorem State.setWin_fw (i : Nat) (x : MirWin) : (s.setWin i x).fw = s.fw := rfl
@[simp] theorem State.setWin_sys (i : Nat) (x : MirWin) : (s.setWin i x).sys = s.sys := rfl
@[simp] theorem State.setWin_out (i : Nat) (x : MirWin) : (s.setWin i x).out = s.out := rfl
theorem State.win_setWin (i : Nat) (x : MirWin) (j : Nat) : (s.setWin i x).win j = if i = j then x else s.win j := SMap.get_set _ _ _ _ _
@[simp] theorem State.win_setWin_self (i : Nat) (x : MirWin) : (s.setWin i x).win i = x := SMap.get_set_self _ _ _ _
@[simp] theorem State.emit_pending (o : Out) : (s.emit o).pending = s.pending := rfl
@[simp] theorem State.emit_free (o : Out) : (s.emit o).free = s.free := rfl
@[simp] theorem State.emit_rd (o : Out) : (s.emit o).rd = s.rd := rfl
@[simp] theorem State.emit_rects (o : Out) : (s.emit o).rects = s.rects := rfl
@[simp] theorem State.emit_cores (o : Out) : (s.emit o).cores = s.cores := rfl
@[simp] theorem State.emit_fab (o : Out) : (s.emit o).fab = s.fab := rfl
@[simp] theorem State.emit_xlat (o : Out) : (s.emit o).xlat = s.xlat := rfl
@[simp] theorem State.emit_store (o : Out) : (s.emit o).store = s.store := rfl
@[simp] theorem State.emit_links (o : Out) : (s.emit o).links = s.links := rfl
@[simp] theorem State.emit_valac (o : Out) : (s.emit o).valac = s.valac := rfl
@[simp] theorem State.emit_log (o : Out) : (s.emit o).log = s.log := rfl
@[simp] theorem State.emit_work (o : Out) : (s.emit o).work = s.work := rfl
@[simp] theorem State.emit_time (o : Out) : (s.emit o).time = s.time := rfl
@[simp] theorem State.emit_power (o : Out) : (s.emit o).power = s.power := rfl
@[simp] theorem State.emit_twin (o : Out) : (s.emit o).twin = s.twin := rfl
@[simp] theorem State.emit_host (o : Out) : (s.emit o).host = s.host := rfl
@[simp] theorem State.emit_fw (o : Out) : (s.emit o).fw = s.fw := rfl
@[simp] theorem State.emit_sys (o : Out) : (s.emit o).sys = s.sys := rfl
@[simp] theorem State.setRect_pending (i : Nat) (x : Option Rect) : (s.setRect i x).pending = s.pending := rfl
@[simp] theorem State.setRect_free (i : Nat) (x : Option Rect) : (s.setRect i x).free = s.free := rfl
@[simp] theorem State.setRect_rd (i : Nat) (x : Option Rect) : (s.setRect i x).rd = s.rd := rfl
@[simp] theorem State.setRect_cores (i : Nat) (x : Option Rect) : (s.setRect i x).cores = s.cores := rfl
@[simp] theorem State.setRect_fab (i : Nat) (x : Option Rect) : (s.setRect i x).fab = s.fab := rfl
@[simp] theorem State.setRect_xlat (i : Nat) (x : Option Rect) : (s.setRect i x).xlat = s.xlat := rfl
@[simp] theorem State.setRect_store (i : Nat) (x : Option Rect) : (s.setRect i x).store = s.store := rfl
@[simp] theorem State.setRect_links (i : Nat) (x : Option Rect) : (s.setRect i x).links = s.links := rfl
@[simp] theorem State.setRect_valac (i : Nat) (x : Option Rect) : (s.setRect i x).valac = s.valac := rfl
@[simp] theorem State.setRect_log (i : Nat) (x : Option Rect) : (s.setRect i x).log = s.log := rfl
@[simp] theorem State.setRect_work (i : Nat) (x : Option Rect) : (s.setRect i x).work = s.work := rfl
@[simp] theorem State.setRect_time (i : Nat) (x : Option Rect) : (s.setRect i x).time = s.time := rfl
@[simp] theorem State.setRect_power (i : Nat) (x : Option Rect) : (s.setRect i x).power = s.power := rfl
@[simp] theorem State.setRect_twin (i : Nat) (x : Option Rect) : (s.setRect i x).twin = s.twin := rfl
@[simp] theorem State.setRect_host (i : Nat) (x : Option Rect) : (s.setRect i x).host = s.host := rfl
@[simp] theorem State.setRect_fw (i : Nat) (x : Option Rect) : (s.setRect i x).fw = s.fw := rfl
@[simp] theorem State.setRect_sys (i : Nat) (x : Option Rect) : (s.setRect i x).sys = s.sys := rfl
@[simp] theorem State.setRect_out (i : Nat) (x : Option Rect) : (s.setRect i x).out = s.out := rfl
theorem State.rect_setRect (i : Nat) (x : Option Rect) (j : Nat) : (s.setRect i x).rect j = if i = j then x else s.rect j := SMap.get_set _ _ _ _ _
@[simp] theorem State.rect_setRect_self (i : Nat) (x : Option Rect) : (s.setRect i x).rect i = x := SMap.get_set_self _ _ _ _
@[simp] theorem State.ctrl_setHalf (h : Nat) (x : Half) (j : Nat) : (s.setHalf h x).ctrl j = s.ctrl j := rfl
@[simp] theorem State.flashCtrl_setHalf (h : Nat) (x : Half) (j : Nat) : (s.setHalf h x).flashCtrl j = s.flashCtrl j := rfl
@[simp] theorem State.half_setCtrl (m : Nat) (x : MemCtrl) (j : Nat) : (s.setCtrl m x).half j = s.half j := rfl
@[simp] theorem State.flashCtrl_setCtrl (m : Nat) (x : MemCtrl) (j : Nat) : (s.setCtrl m x).flashCtrl j = s.flashCtrl j := rfl
@[simp] theorem State.half_setFlashCtrl (m : Nat) (x : FlashCtrl) (j : Nat) : (s.setFlashCtrl m x).half j = s.half j := rfl
@[simp] theorem State.ctrl_setFlashCtrl (m : Nat) (x : FlashCtrl) (j : Nat) : (s.setFlashCtrl m x).ctrl j = s.ctrl j := rfl
@[simp] theorem State.pri_setCtx (i : Nat) (x : Ctx) (j : Nat) : (s.setCtx i x).pri j = s.pri j := rfl
@[simp] theorem State.row_setCtx (i : Nat) (x : Ctx) (j : Nat) : (s.setCtx i x).row j = s.row j := rfl
@[simp] theorem State.ctx_setPri (i : Nat) (x : PriState) (j : Nat) : (s.setPri i x).ctx j = s.ctx j := rfl
@[simp] theorem State.row_setPri (i : Nat) (x : PriState) (j : Nat) : (s.setPri i x).row j = s.row j := rfl
@[simp] theorem State.ctx_setRow (i : Nat) (x : Option XRow) (j : Nat) : (s.setRow i x).ctx j = s.ctx j := rfl
@[simp] theorem State.pri_setRow (i : Nat) (x : Option XRow) (j : Nat) : (s.setRow i x).pri j = s.pri j := rfl
@[simp] theorem State.queue_setPart (i : Nat) (x : Option Part) (j : Nat) : (s.setPart i x).queue j = s.queue j := rfl
@[simp] theorem State.cring_setPart (i : Nat) (x : Option Part) (j : Nat) : (s.setPart i x).cring j = s.cring j := rfl
@[simp] theorem State.kernel_setPart (i : Nat) (x : Option Part) (j : Nat) : (s.setPart i x).kernel j = s.kernel j := rfl
@[simp] theorem State.graph_setPart (i : Nat) (x : Option Part) (j : Nat) : (s.setPart i x).graph j = s.graph j := rfl
@[simp] theorem State.part_setQueue (i : Nat) (x : Option Queue) (j : Nat) : (s.setQueue i x).part j = s.part j := rfl
@[simp] theorem State.cring_setQueue (i : Nat) (x : Option Queue) (j : Nat) : (s.setQueue i x).cring j = s.cring j := rfl
@[simp] theorem State.kernel_setQueue (i : Nat) (x : Option Queue) (j : Nat) : (s.setQueue i x).kernel j = s.kernel j := rfl
@[simp] theorem State.graph_setQueue (i : Nat) (x : Option Queue) (j : Nat) : (s.setQueue i x).graph j = s.graph j := rfl
@[simp] theorem State.part_setCring (i : Nat) (x : Option CRing) (j : Nat) : (s.setCring i x).part j = s.part j := rfl
@[simp] theorem State.queue_setCring (i : Nat) (x : Option CRing) (j : Nat) : (s.setCring i x).queue j = s.queue j := rfl
@[simp] theorem State.kernel_setCring (i : Nat) (x : Option CRing) (j : Nat) : (s.setCring i x).kernel j = s.kernel j := rfl
@[simp] theorem State.graph_setCring (i : Nat) (x : Option CRing) (j : Nat) : (s.setCring i x).graph j = s.graph j := rfl
@[simp] theorem State.part_setKernel (i : Nat) (x : Option Kernel) (j : Nat) : (s.setKernel i x).part j = s.part j := rfl
@[simp] theorem State.queue_setKernel (i : Nat) (x : Option Kernel) (j : Nat) : (s.setKernel i x).queue j = s.queue j := rfl
@[simp] theorem State.cring_setKernel (i : Nat) (x : Option Kernel) (j : Nat) : (s.setKernel i x).cring j = s.cring j := rfl
@[simp] theorem State.graph_setKernel (i : Nat) (x : Option Kernel) (j : Nat) : (s.setKernel i x).graph j = s.graph j := rfl
@[simp] theorem State.part_setGraph (i : Nat) (x : Option Graph) (j : Nat) : (s.setGraph i x).part j = s.part j := rfl
@[simp] theorem State.queue_setGraph (i : Nat) (x : Option Graph) (j : Nat) : (s.setGraph i x).queue j = s.queue j := rfl
@[simp] theorem State.cring_setGraph (i : Nat) (x : Option Graph) (j : Nat) : (s.setGraph i x).cring j = s.cring j := rfl
@[simp] theorem State.kernel_setGraph (i : Nat) (x : Option Graph) (j : Nat) : (s.setGraph i x).kernel j = s.kernel j := rfl
@[simp] theorem State.ring_setMbx (i : Nat) (x : Mailbox) (j : Nat) : (s.setMbx i x).ring j = s.ring j := rfl
@[simp] theorem State.mbx_setRing (i : Nat) (x : EventRing) (j : Nat) : (s.setRing i x).mbx j = s.mbx j := rfl
@[simp] theorem State.arb_setBundle (i : Nat) (x : Bundle) (j : Nat) : (s.setBundle i x).arb j = s.arb j := rfl
@[simp] theorem State.bundle_setArb (i : Nat) (x : Arb) (j : Nat) : (s.setArb i x).bundle j = s.bundle j := rfl

@[simp] theorem State.emit_out (o : Out) : (s.emit o).out = o :: s.out := rfl
@[simp] theorem State.updCore_eq (c : Nat) (f : Core → Core) : s.updCore c f = s.setCore c (f (s.core c)) := rfl

/-! Groups of a core. -/

theorem Core.group_setGroup (k : Core) (i : Nat) (g : Group) (j : Nat) : (k.setGroup i g).group j = if i = j then g else k.group j :=
  SMap.get_set _ _ _ _ _
@[simp] theorem Core.group_setGroup_self (k : Core) (i : Nat) (g : Group) : (k.setGroup i g).group i = g := SMap.get_set_self _ _ _ _
theorem Core.setGroup_eq (k : Core) (i : Nat) (g : Group) : k.setGroup i g = { k with groups := (k.setGroup i g).groups } := rfl
@[simp] theorem Core.group_count (k : Core) (off n j : Nat) : (k.count off n).group j = k.group j := rfl

/-! Free values. -/

@[simp] theorem State.draw_state (w : Nat) : (s.draw w).2 = { s with free := s.free + 1 } := rfl

end Sys2Proof.Machine
end

