-- ==== Sys2Proof/Laws/Issue.lean ====
section
/-!
SUPPORT. What the issue of an instruction does: under `executes` its effect, then the count and the advance of its group.
-/
namespace Sys2Proof.Machine

variable (s : State) (i : Inst)

@[simp] theorem Group.getU_setU (g : Group) (n k : Nat) (v : DWord) : (g.setU n v).getU k = if n = k then v else g.getU k :=
  SMap.get_set _ _ _ _ _

theorem State.issue_executes {f : Form} {act : State → Effect} (h : s.executes i f) :
    s.issue i f act = match act s with
    | .next s1 => (s1.countIssue i).advance i
    | .jump s1 => s1.countIssue i
    | .fault s1 r => (s1.countIssue i).takeFault r
    | .stall => s := by
  obtain ⟨h1, h2, h3, h4, h5, h6⟩ := h
  simp only [State.issue, h1, h2, h3, h4, h5, h6]
  rfl

/-- Settling the paths of a group moves only its place in the program. -/
theorem Group.settlePath_placed (n : Nat) (g h : Group) : h.placed (g.settlePath n) = h.placed g := by
  induction n generalizing g with
  | zero => rfl
  | succ n ih =>
    simp only [Group.settlePath]
    split
    · split
      · split
        · rw [ih]; rfl
        · rfl
      · rfl
    · split
      · rw [ih]; rfl
      · split
        · split
          · rw [ih]; rfl
          · rw [ih]; rfl
        · rfl

theorem Group.settle_placed (g h : Group) : h.placed g.settle = h.placed g := g.settlePath_placed _ h

/-- Equal but for their place in the program: every other field agrees. -/
theorem Group.placed_ext {g h : Group} (e : g.placed h = g) :
    h.occupied = g.occupied ∧ h.index = g.index ∧ h.live = g.live ∧ h.t = g.t ∧ h.u = g.u ∧ h.p = g.p ∧ h.tokens = g.tokens ∧
    h.sets = g.sets ∧ h.tokWaits = g.tokWaits ∧ h.arrivals = g.arrivals ∧ h.fence = g.fence ∧ h.mesh = g.mesh ∧
    h.resv = g.resv ∧ h.waits = g.waits := by
  cases g; cases h; simp [Group.placed] at e; simp_all

@[simp] theorem State.grp_setGrp (g : Group) : (s.setGrp i g).grp i = g := by
  simp [State.grp, State.setGrp, Core.group, Core.setGroup]

@[simp] theorem State.core_setGrp (g : Group) (d : Nat) :
    (s.setGrp i g).core d = if i.c = d then (s.core i.c).setGroup i.slot g else s.core d := State.core_setCore _ _ _ _

theorem SMap.get_bump (m : SMap DWord) (off n k : Nat) :
    SMap.get 0 (bump m off n) k = SMap.get 0 m k + if k = off then BitVec.ofNat 64 n else 0 := by
  unfold bump; rw [SMap.get_set]
  by_cases h : off = k
  · subst h; simp
  · simp [h, Ne.symm h]

/-- Only the group of the instruction differs. -/
def State.touches (s t : State) (i : Inst) : Prop :=
  { t with cores := s.cores } = s ∧ (∀ d, d ≠ i.c → t.core d = s.core d) ∧
  { t.core i.c with groups := (s.core i.c).groups } = s.core i.c ∧
  ∀ j, j ≠ i.slot → (t.core i.c).group j = (s.core i.c).group j

theorem State.touches_refl : s.touches s i := ⟨rfl, fun _ _ => rfl, rfl, fun _ _ => rfl⟩

theorem State.touches_setGrp {s t : State} {i : Inst} (h : s.touches t i) (g : Group) : s.touches (t.setGrp i g) i := by
  obtain ⟨h1, h2, h3, h4⟩ := h
  refine ⟨h1, fun d hd => by rw [State.core_setGrp, if_neg (Ne.symm hd), h2 d hd], ?_, fun j hj => ?_⟩
  · rw [State.core_setGrp, if_pos rfl]; exact h3
  · rw [State.core_setGrp, if_pos rfl, Core.group_setGroup, if_neg (Ne.symm hj), h4 j hj]

theorem State.onlyGroup_count {s t : State} {i : Inst} (h : s.touches t i) : s.onlyGroup (t.countIssue i) i := by
  obtain ⟨h1, h2, h3, h4⟩ := h
  have hc : (t.countIssue i).core i.c = (t.core i.c).count 0x108 1 := by simp [State.countIssue]
  refine ⟨⟨h1, fun d hd => ?_⟩, ?_, fun off => ?_, fun j hj => ?_⟩
  · rw [← h2 d hd]; simp [State.countIssue, State.core_setCore, Ne.symm hd]
  · rw [hc, ← h3]; rfl
  · rw [hc, Core.count, SMap.get_bump, ← h3]; rfl
  · rw [hc, Core.group_count, h4 j hj]

@[simp] theorem State.grp_countIssue : (s.countIssue i).grp i = s.grp i := by simp [State.countIssue, State.grp]

theorem State.onlyGroup_advance {s t : State} {i : Inst} (h : s.onlyGroup t i) : s.onlyGroup (t.advance i) i := by
  unfold State.advance
  dsimp only
  split
  · obtain ⟨⟨h1, h2⟩, h3, h4, h5⟩ := h
    refine ⟨⟨h1, fun d hd => by rw [State.core_setGrp, if_neg (Ne.symm hd), h2 d hd]⟩, ?_, fun off => ?_, fun j hj => ?_⟩
    · rw [State.core_setGrp, if_pos rfl]; exact h3
    · rw [State.core_setGrp, if_pos rfl]; exact h4 off
    · rw [State.core_setGrp, if_pos rfl, Core.group_setGroup, if_neg (Ne.symm hj), h5 j hj]
  · exact h

theorem State.advance_placed (h : Group) : h.placed ((s.advance i).grp i) = h.placed (s.grp i) := by
  unfold State.advance
  dsimp only
  split
  · rw [State.grp_setGrp, Group.settle_placed]; rfl
  · rfl

/-- An instruction that executes and goes on after its effect: the frame, and the registers its effect left. -/
theorem State.issue_next {s t : State} {i : Inst} {f : Form} {act : State → Effect} (h : s.executes i f) (ha : act s = .next t)
    (ht : s.touches t i) :
    s.onlyGroup (s.issue i f act) i ∧ (s.grp i).placed ((s.issue i f act).grp i) = (s.grp i).placed (t.grp i) := by
  rw [State.issue_executes s i h, ha]
  exact ⟨State.onlyGroup_advance (State.onlyGroup_count ht), by rw [State.advance_placed, State.grp_countIssue]⟩

/-- An instruction that executes and sets the program counter. -/
theorem State.issue_jump {s t : State} {i : Inst} {f : Form} {act : State → Effect} (h : s.executes i f) (ha : act s = .jump t)
    (ht : s.touches t i) :
    s.onlyGroup (s.issue i f act) i ∧ (s.issue i f act).grp i = t.grp i := by
  rw [State.issue_executes s i h, ha]
  exact ⟨State.onlyGroup_count ht, by simp⟩

/-- Equal images under `placed` agree in every field outside the place in the program. -/
theorem Group.placed_inj {g h k : Group} (e : g.placed h = g.placed k) :
    h.t = k.t ∧ h.u = k.u ∧ h.p = k.p := by
  simp only [Group.placed, Group.mk.injEq] at e
  exact ⟨e.2.2.2.2.2.2.2.1, e.2.2.2.2.2.2.2.2.1, e.2.2.2.2.2.2.2.2.2.1⟩

theorem Group.writesU_of {g h : Group} {d : Nat} {v : DWord} (e : g.placed h = g.placed (g.setU d v)) : g.writesU h d v := by
  have hu := (Group.placed_inj e).2.1
  refine ⟨by rw [e, hu]; rfl, fun n => ?_⟩
  rw [Group.getU, hu, ← Group.getU, Group.getU_setU]
  by_cases hn : n = d
  · simp [hn]
  · rw [if_neg hn, if_neg (Ne.symm hn)]

theorem Group.putT_t (l : List Nat) (d : Nat) (v : Nat → Word) (g : Group) :
    l.foldl (fun g x => g.setT x d (v x)) g = { g with t := (l.foldl (fun g x => g.setT x d (v x)) g).t } := by
  induction l generalizing g with
  | nil => rfl
  | cons x l ih => simp only [List.foldl]; rw [ih]; rfl

theorem Group.putT_get (l : List Nat) (hd : l.Nodup) (d : Nat) (v : Nat → Word) (g : Group) (lane n : Nat)
    (hn : n < 256) (hdd : d < 256) :
    (l.foldl (fun g x => g.setT x d (v x)) g).getT lane n = if n = d ∧ lane ∈ l then v lane else g.getT lane n := by
  induction l generalizing g with
  | nil => simp
  | cons x l ih =>
    simp only [List.foldl]
    rw [ih (List.nodup_cons.1 hd).2]
    have hx := (List.nodup_cons.1 hd).1
    have hs : (g.setT x d (v x)).getT lane n = if n = d ∧ lane = x then v lane else g.getT lane n := by
      rw [Group.getT, Group.setT, SMap.get_set]
      by_cases h1 : n = d ∧ lane = x
      · obtain ⟨rfl, rfl⟩ := h1; simp
      · rw [if_neg h1, if_neg (by intro h2; apply h1; constructor <;> omega)]; rfl
    rw [hs]
    by_cases h1 : n = d <;> by_cases h2 : lane = x
    · subst h1; subst h2; simp [hx]
    · simp [h1, h2]
    · simp [h1]
    · simp [h1]

theorem mem_lanesOf {m : Mask} {lane : Nat} : lane ∈ lanesOf m ↔ lane < 64 ∧ m.getLsbD lane = true := by
  simp [lanesOf]
theorem nodup_lanesOf (m : Mask) : (lanesOf m).Nodup := List.Nodup.filter _ List.nodup_range

theorem Group.writesT_of {g h : Group} {m : Mask} {d : Nat} {v : Nat → Word} (hd : d < 256)
    (e : g.placed h = g.placed ((lanesOf m).foldl (fun g l => g.setT l d (v l)) g)) : g.writesT h m d v := by
  have ht := (Group.placed_inj e).1
  refine ⟨by rw [e, Group.putT_t, ht]; rfl, fun lane n hl hn => ?_⟩
  rw [Group.getT, ht, ← Group.getT, Group.putT_get _ (nodup_lanesOf m) _ _ _ _ _ hn hd]
  simp only [mem_lanesOf, hl, true_and]

theorem getLsbD_pow2 (l k : Nat) (hk : k < 64) : (BitVec.ofNat 64 (2 ^ l)).getLsbD k = decide (l = k) := by
  rw [BitVec.getLsbD_ofNat, Nat.testBit_two_pow]; simp [hk]

theorem maskWhere_fold (f : Nat → Bool) (l : List Nat) (x : Mask) (k : Nat) (hk : k < 64) :
    (l.foldl (fun x l => if f l then x ||| BitVec.ofNat 64 (2 ^ l) else x) x).getLsbD k = (x.getLsbD k || (decide (k ∈ l) && f k)) := by
  induction l generalizing x with
  | nil => simp
  | cons a l ih =>
    simp only [List.foldl]
    rw [ih]
    by_cases h1 : f a
    · simp only [h1, if_true, BitVec.getLsbD_or, getLsbD_pow2 a k hk, List.mem_cons]
      by_cases h2 : a = k
      · subst h2; simp [h1]
      · have : ¬ k = a := fun h => h2 h.symm
        simp [h2, this]
    · simp only [h1, List.mem_cons]
      by_cases h2 : k = a
      · subst h2; simp [h1]
      · simp [h2]

theorem getLsbD_maskWhere (m : Mask) (f : Nat → Bool) (k : Nat) (hk : k < 64) :
    (maskWhere m f).getLsbD k = (m.getLsbD k && f k) := by
  rw [maskWhere, maskWhere_fold f _ _ _ hk]; simp [mem_lanesOf, hk]

theorem Group.writesP_of {g h : Group} {m : Mask} {d : Nat} {v : Nat → Bool}
    (e : g.placed h = g.placed (g.setP d m (maskWhere m v))) : g.writesP h m d v := by
  have hp := (Group.placed_inj e).2.2
  refine ⟨by rw [e, hp]; unfold Group.setP; split <;> rfl, fun lane n hl _ => ?_⟩
  rw [Group.getP, hp, ← Group.getP]
  unfold Group.setP
  split
  · next hd => simp [hd]
  · next hd =>
    by_cases h0 : n = 0
    · subst h0; simp [Group.getP]; intro h; exact absurd h.symm hd
    · simp only [Group.getP, h0, if_false, SMap.get_set]
      by_cases h1 : n = d
      · subst h1
        simp only [if_true, BitVec.getLsbD_or, BitVec.getLsbD_and, BitVec.getLsbD_not, getLsbD_maskWhere _ _ _ hl]
        cases h2 : m.getLsbD lane
        · simp only [hl, decide_true, Bool.not_false, Bool.and_true, Bool.false_and, Bool.or_false,
            Bool.false_eq_true, and_false, if_false]
        · simp only [Bool.not_true, Bool.and_false, Bool.true_and, Bool.and_true, Bool.false_or]
          rw [if_pos ⟨trivial, hd, trivial⟩]
      · simp [h1, Ne.symm h1]

/-- An instruction that executes and has no effect: its registers stay. -/
theorem State.issue_idle {s : State} {i : Inst} {f : Form} {act : State → Effect} (h : s.executes i f) (ha : act s = .next s) :
    s.onlyGroup (s.issue i f act) i ∧ (s.grp i).placed ((s.issue i f act).grp i) = s.grp i :=
  State.issue_next h ha (State.touches_refl s i)

/-- An instruction that executes and writes t[d] retires so. -/
theorem State.issue_putT {s : State} {i : Inst} {f : Form} {act : State → Effect} {m : Mask} {v : Nat → Word}
    (h : s.executes i f) (ha : act s = .next (s.putT i m i.u.d.toNat v)) : s.retiresT (s.issue i f act) i m v := by
  have := State.issue_next h ha (State.touches_setGrp (State.touches_refl s i) _)
  refine ⟨this.1, Group.writesT_of (by simpa using i.u.d.isLt) (this.2.trans ?_)⟩
  rw [State.putT, State.grp_setGrp]

theorem State.issue_putP {s : State} {i : Inst} {f : Form} {act : State → Effect} {m : Mask} {v : Nat → Bool}
    (h : s.executes i f) (ha : act s = .next (s.putP i m i.u.d.toNat v)) : s.retiresP (s.issue i f act) i m v := by
  have := State.issue_next h ha (State.touches_setGrp (State.touches_refl s i) _)
  refine ⟨this.1, Group.writesP_of (this.2.trans ?_)⟩
  rw [State.putP, State.grp_setGrp]

/-- No lane of the empty mask is written. -/
theorem Group.writesP_none {g h : Group} (d : Nat) (v : Nat → Bool) (e : g.placed h = g) : g.writesP h 0 d v := by
  have hp : h.p = g.p := by have := congrArg Group.p e; exact this
  refine ⟨by rw [e, hp], fun lane n _ _ => ?_⟩
  rw [Group.getP, hp, ← Group.getP]; simp

/-- An instruction that executes once per group and writes u[d] retires so. -/
theorem State.onceIssue_putU {s : State} {i : Inst} {f : Form} {act : State → Effect} {v : DWord} (h : s.executes i f)
    (ha : act s = .next (s.putU i i.u.d.toNat v)) : s.retiresU (s.onceIssue i f act) i v := by
  unfold State.retiresU
  by_cases hp : (s.grp i).passing i.u = 0
  · rw [if_pos hp]
    exact State.issue_idle h (by simp only [if_pos hp])
  · rw [if_neg hp]
    have := State.issue_next (act := fun s => if (s.grp i).passing i.u = 0 then .next s else act s) h
      ((if_neg hp).trans ha) (State.touches_setGrp (State.touches_refl s i) _)
    refine ⟨this.1, Group.writesU_of (this.2.trans ?_)⟩
    rw [State.putU, State.grp_setGrp]

end Sys2Proof.Machine
end

