-- ==== Sys2Proof/Laws/Mailbox.lean ====
section
/-!
SUPPORT. What raising an event changes, and that a response answers its command.
-/
namespace Sys2Proof.Machine

variable (s x : State)

/-! Events: only rings, messages, pending vectors and the counts of the management session change. -/

theorem State.raised_refl : x.raised x := ⟨rfl, rfl⟩

theorem State.raised_trans {x y z : State} (h : x.raised y) (g : y.raised z) : x.raised z := by
  obtain ⟨h1, h2⟩ := h
  obtain ⟨g1, g2⟩ := g
  refine ⟨?_, ?_⟩
  · rw [← h1, ← g1]
  · rw [← h2, ← g2]

theorem State.raised_emit (o : Out) : s.raised (s.emit o) := ⟨rfl, rfl⟩
theorem State.raised_setRing (fn : Nat) (r : EventRing) : s.raised (s.setRing fn r) := ⟨rfl, rfl⟩
theorem State.raised_setVector (fn v : Nat) (y : Vector) : s.raised (s.setVector fn v y) := ⟨rfl, rfl⟩

theorem State.raised_signal (fn v : Nat) : s.raised (s.signal fn v) := by
  unfold State.signal
  split
  · exact s.raised_refl
  · split
    · exact s.raised_setVector _ _ _
    · exact s.raised_emit _

theorem State.raised_evrWrite (fn : Nat) (e : Event) : s.raised (s.evrWrite fn e) :=
  State.raised_trans (State.raised_trans (s.raised_emit _) (State.raised_setRing _ _ _)) (State.raised_signal _ _ _)

theorem State.raised_evrPut (fn : Nat) (e : Event) : s.raised (s.evrPut fn e) := by
  unfold State.evrPut
  dsimp only
  split
  · exact s.raised_evrWrite _ _
  · split
    · exact s.raised_setRing _ _
    · exact s.raised_setRing _ _

theorem State.raised_post (type p : Nat) (payload : List Byte) : s.raised (s.post type p payload) := s.raised_evrPut _ _

/-- A partition event, and its copy for the PF. -/
theorem State.raised_both (fn : Nat) (e e' : Event) : s.raised (if fn = 0 then s.evrPut 0 e else (s.evrPut fn e).evrPut 0 e') := by
  split
  · exact s.raised_evrPut _ _
  · exact State.raised_trans (s.raised_evrPut _ _) (State.raised_evrPut _ _ _)

theorem State.raised_postPart (type p : Nat) (payload : List Byte) : s.raised (s.postPart type p payload) := s.raised_both _ _ _

theorem State.raised_consoleEvent (type : Nat) (payload : List Byte) : s.raised (s.consoleEvent type payload) := by
  unfold State.consoleEvent
  split
  · split
    · exact s.raised_refl
    · exact ⟨rfl, rfl⟩
  · exact s.raised_refl

theorem State.raised_mbxEvent (m type : Nat) (payload : List Byte) : s.raised (s.mbxEvent m type payload) := by
  unfold State.mbxEvent
  split
  · exact s.raised_consoleEvent _ _
  · exact s.raised_both _ _ _

theorem State.raised_responseFrame (body : List Byte) : s.raised (s.responseFrame body) := by
  unfold State.responseFrame
  split
  · split
    · exact s.raised_refl
    · exact ⟨rfl, rfl⟩
  · exact s.raised_refl

theorem State.raised_mbx {x t : State} (h : x.raised t) (m : Nat) : t.mbx m = x.mbx m := by
  unfold State.mbx
  rw [← h.1]

/-! Responses. -/

/-- Bytes written at the front of a buffer read back. -/
theorem SMap.getBytes_putBytes (m : SMap Byte) (bs : List Byte) (n : Nat) (h : n = bs.length) :
    SMap.getBytes (SMap.putBytes m 0 bs) 0 n = bs := by
  subst h
  apply List.ext_getElem (by simp)
  intro i h1 h2
  have e := SMap.getD_getBytes (SMap.putBytes m 0 bs) 0 bs.length i h2
  rw [List.getD_eq_getElem _ _ h1, SMap.get_putBytes, if_pos (by omega), Nat.zero_add, Nat.sub_zero, List.getD_eq_getElem _ _ h2] at e
  exact e

@[simp] theorem length_leBytes (n v : Nat) : (leBytes n v).length = n := by
  induction n generalizing v with
  | zero => rfl
  | succ n ih => simp [leBytes, ih]

theorem State.length_responseBytes (c : Cmd) (status detail : Nat) (payload : List Byte) :
    (s.responseBytes c status detail payload).length = 32 + payload.length := by
  simp only [State.responseBytes, List.length_append, length_leBytes]

/-- The state in which the mailbox of `c` holds the response, before the events of the response. -/
def State.responded (s : State) (c : Cmd) (status detail : Nat) (payload : List Byte) : State :=
  let s0 := { s with valac := { s.valac with cur := none, lastServed := if c.mbx = 1 then s.valac.lastServed else c.mbx } }
  s0.setMbx c.mbx { s.mbx c.mbx with
    buffer := SMap.putBytes (s.mbx c.mbx).buffer 0 (s.responseBytes c status detail payload), state := 2, lastSeq := c.seq }

theorem State.responded_rest (c : Cmd) (status detail : Nat) (payload : List Byte) :
    { s.responded c status detail payload with valac := s.valac } = s := by
  cases s
  rfl

theorem State.raised_respond (c : Cmd) (status detail : Nat) (payload : List Byte) (h : c.discard = false) :
    (s.responded c status detail payload).raised (s.respond c status detail payload) := by
  unfold State.respond
  simp only [h]
  have e : (s.responded c status detail payload).raised (if c.mbx = 66 then
      (s.responded c status detail payload).responseFrame (s.responseBytes c status detail payload) else s.responded c status detail payload) := by
    split
    · exact State.raised_responseFrame _ _
    · exact State.raised_refl _
  cases c.notify
  · exact e
  · exact State.raised_trans e (State.raised_mbxEvent _ _ _ _)

/-- A state that differs from `s` in the command in progress and the mailbox of its response alone, and then in events. -/
theorem State.answered_of {s u t : State} {c : Cmd} {status : Nat} {payload : List Byte} (h : u.raised t) (hc : u.valac.cur = none)
    (hb : (u.mbx c.mbx).state = 2 ∧ (u.mbx c.mbx).lastSeq = c.seq ∧
      SMap.getBytes (u.mbx c.mbx).buffer 0 (32 + payload.length) = s.responseBytes c status 0 payload)
    (hn : ∀ m, m ≠ c.mbx → u.mbx m = s.mbx m)
    (hv : { u.valac with mailboxes := s.valac.mailboxes, lastServed := s.valac.lastServed, cur := s.valac.cur } = s.valac)
    (hx : { u with valac := s.valac } = s) : s.answered t c status payload := by
  have hm := fun m => State.raised_mbx h m
  obtain ⟨h1, h2⟩ := h
  refine ⟨(congrArg Valac.cur h1).trans hc, ?_, ?_, ?_, ?_, ?_, ?_⟩
  · rw [hm]; exact hb.1
  · rw [hm]; exact hb.2.1
  · rw [hm]; exact hb.2.2
  · intro m hne
    rw [hm, hn m hne]
  · rw [← hv, ← h1]
  · rw [← hx, ← h2]

/-- A response whose mailbox was not reset meanwhile answers its command. -/
theorem State.answered_respond (c : Cmd) (status : Nat) (payload : List Byte) (h : c.discard = false) :
    s.answered (s.respond c status 0 payload) c status payload := by
  refine State.answered_of (s.raised_respond c status 0 payload h) rfl ?_ (fun m hne => SMap.get_set_ne _ _ (Ne.symm hne) _) rfl
    (State.responded_rest s c status 0 payload)
  have hs : (s.responded c status 0 payload).mbx c.mbx = { s.mbx c.mbx with
      buffer := SMap.putBytes (s.mbx c.mbx).buffer 0 (s.responseBytes c status 0 payload), state := 2, lastSeq := c.seq } :=
    SMap.get_set_self _ _ _ _
  have hl := s.length_responseBytes c status 0 payload
  rw [hs]
  generalize s.responseBytes c status 0 payload = bs at hl
  exact ⟨rfl, rfl, SMap.getBytes_putBytes (s.mbx c.mbx).buffer bs _ hl.symm⟩

/-- A command in progress is performed and answered. -/
theorem State.run_doing {c : Cmd} {opcode len : Nat} {zero : List (Nat × Nat)} (h : s.doing c opcode len zero) (f : Cmd → Reply) :
    s.run opcode f = match f c with
      | .err status detail => s.respond c status detail []
      | .ok payload s1 => s1.respond c stSuccess 0 payload := by
  obtain ⟨h1, _, h3, _⟩ := h
  cases hf : f c <;> simp only [State.run, h1, h3, hf, ne_eq, not_true_eq_false, if_false]

end Sys2Proof.Machine
end

