-- ==== Sys2Proof/Laws/Memory.lean ====
section
/-!
SUPPORT. Every operation on the bytes behind the memory controllers and in flash keeps their canonical form, and what a read answers after a write.
-/
namespace Sys2Proof.Machine

variable (s : State)

theorem Memory.wf_iff (x : Store) : Memory.wf x = true ↔ SMap.wf 0 x.mem = true ∧ SMap.wf 0 x.flash = true := by
  simp [Memory.wf]

theorem State.reset_memory_wf : Memory.wf State.reset.store = true := rfl

/-! Reads after a write. -/

theorem State.locOf_putMemByte (a b : Nat) (v : Byte) : (s.putMemByte a v).locOf b = s.locOf b := by
  unfold State.putMemByte
  split <;> rfl

theorem State.memByte_putMemByte (a b : Nat) (v : Byte) (l : Nat) (h : s.locOf a = some l) :
    (s.putMemByte a v).memByte b = if s.locOf b = some l then v else s.memByte b := by
  have e : (s.putMemByte a v).store.mem = SMap.set 0 s.store.mem l v := by simp [State.putMemByte, h]
  simp only [State.memByte, State.locOf_putMemByte, e]
  cases hb : s.locOf b with
  | none => simp
  | some k => simp [SMap.get_set, eq_comm]

/-! The canonical form is kept. -/

theorem State.putMemByte_wf (a : Nat) (v : Byte) (h : Memory.wf s.store = true) : Memory.wf (s.putMemByte a v).store = true := by
  unfold State.putMemByte
  split
  · rw [Memory.wf_iff] at h ⊢
    exact ⟨SMap.wf_set 0 _ v h.1, h.2⟩
  · exact h

theorem State.putMem_wf (a : Nat) (bs : List Byte) (h : Memory.wf s.store = true) : Memory.wf (s.putMem a bs).store = true := by
  induction bs generalizing s a with
  | nil => exact h
  | cons b bs ih => exact ih _ _ (s.putMemByte_wf a b h)

theorem State.setPoison_wf (a : Nat) (on : Bool) (h : Memory.wf s.store = true) : Memory.wf (s.setPoison a on).store = true := by
  unfold State.setPoison
  split
  · exact h
  · exact h

theorem State.foldl_wf {α : Type} (f : State → α → State) (l : List α)
    (hf : ∀ s a, Memory.wf s.store = true → Memory.wf (f s a).store = true) (h : Memory.wf s.store = true) :
    Memory.wf (l.foldl f s).store = true := by
  induction l generalizing s with
  | nil => exact h
  | cons a l ih => exact ih _ (hf s a h)

theorem State.writeSome_wf (a : Nat) (bytes : List (Nat × Byte)) (h : Memory.wf s.store = true) :
    Memory.wf (s.writeSome a bytes).store = true :=
  State.foldl_wf _ _ _ (fun s _ => s.setPoison_wf _ _) (State.foldl_wf _ _ _ (fun s _ => s.putMemByte_wf _ _) h)

theorem State.putFlash_wf (a : Nat) (bs : List Byte) (h : Memory.wf s.store = true) : Memory.wf (s.putFlash a bs).store = true := by
  rw [Memory.wf_iff] at h ⊢
  exact ⟨h.1, SMap.wf_putBytes _ _ h.2⟩

/-- One byte of a page that a flash controller accepts. -/
theorem State.flashByte_wf (a : Nat) (v : Byte) (h : Memory.wf s.store = true) :
    Memory.wf { s.store with flash := SMap.set 0 s.store.flash a v } = true := by
  rw [Memory.wf_iff] at h ⊢
  exact ⟨h.1, SMap.wf_set 0 _ v h.2⟩

theorem State.scrubGranule_wf (g : Nat) (h : Memory.wf s.store = true) : Memory.wf (s.scrubGranule g).store = true := by
  rw [Memory.wf_iff] at h ⊢
  exact ⟨SMap.wf_keep 0 _ h.1, SMap.wf_keep 0 _ h.2⟩

/-- Tags are no bytes of memory. -/
theorem Memory.tags_wf (x : Store) (tags : SMap Half16) (h : Memory.wf x = true) : Memory.wf { x with tags } = true := h

theorem State.tagGranule_wf (t : Half16) (g : Nat) (h : Memory.wf s.store = true) : Memory.wf (s.tagGranule t g).store = true := by
  refine Memory.tags_wf _ _ ?_
  split
  · exact h
  · exact s.scrubGranule_wf g h

theorem State.stepSeed_wf (h : Memory.wf s.store = true) : Memory.wf s.stepSeed.store = true := by
  rw [Memory.wf_iff] at h ⊢
  exact ⟨rfl, h.2⟩

/-- A tier that is seeded keeps the bytes of the other (R537). -/
theorem Memory.filter_wf (x : Store) (p : Nat × Byte → Bool) (h : Memory.wf x = true) :
    Memory.wf { x with mem := x.mem.filter p } = true := by
  rw [Memory.wf_iff] at h ⊢
  exact ⟨SMap.wfFrom_filter 0 p _ none h.1, h.2⟩

/-- Pages that are trimmed (R271). -/
theorem Memory.trim_wf (x : Store) (p : Nat → Byte → Bool) (h : Memory.wf x = true) :
    Memory.wf { x with flash := SMap.keep x.flash p } = true := by
  rw [Memory.wf_iff] at h ⊢
  exact ⟨h.1, SMap.wf_keep 0 p h.2⟩

/-- Loss of power leaves flash alone (R535). -/
theorem Memory.unpowered_wf (x : Store) (h : Memory.wf x = true) : Memory.wf { flash := x.flash } = true := by
  rw [Memory.wf_iff] at h ⊢
  exact ⟨rfl, h.2⟩

end Sys2Proof.Machine
end

