-- ==== Sys2Proof/Tests/Slice0.lean ====
section
/-!
SUPPORT. Tests of the model on small states, and for every statement with hypotheses a witness that meets them, clause by clause.
-/
namespace Sys2Proof.Tests

open Sys2Proof.Machine

/-! Small states. -/

/-- Slot 0 of core 0. -/
def g0 : GroupRef := ⟨0, 0⟩

/-- A unit with its operand fields and modifiers, predicated on p0. -/
def unitOf (d a b c : Nat) (mod : Nat := 0) : Fields :=
  { d := BitVec.ofNat 8 d, a := BitVec.ofNat 8 a, b := BitVec.ofNat 8 b, c := BitVec.ofNat 8 c, pred := 0, neg := false, ext := none,
    mod := BitVec.ofNat 15 mod }

/-- A group of 16 threads, four of them active. -/
def group4 : Group := { occupied := true, active := 0xF, live := 0xF }

/-- A running core of context 0x400 and partition 0, with 16 registers a thread, one page of tile memory and one group. -/
def core4 : Core :=
  { mode := .running, kernel := { codeBytes := 4096 }, groups := [(0, group4)], context := 0x400, partition := 0, tilePages := 1 }

/-- Core 0 is `k`. -/
def withCore (k : Core) : State := { cores := [(0, k)] }

def s4 : State := withCore core4

/-! Commands that no link can carry (WellFormed). -/

theorem test_wellFormed_refuses :
    (([.registerWrite .ics 0 [], .registerWrite .ics 0 (List.replicate 513 0), .registerWrite .ics (2 ^ 40) [0], .bar4Read 0 0 0,
       .bar4Read 0 0 4097, .bar4Write 0 0 [] false false, .bar4Write 0 0 (List.replicate 513 0) false false,
       .bundleCredit 0 false (List.replicate 49 0), .epochWriteRecord 0 1 [], .epochWriteRecord 0 (2 ^ 48) [], .syncWriteRecord 0 0 0 [(128, 0)],
       .reloadData 0 (some []), .launchConsume 0 (.data []), .semaphorePoll 0 (.data []), .completionRingRecheck 0 (.data []),
       .launchCommit 0 (.data []) (.fail 1 1), .launchCommit 0 (.fail 1 1) (.data []), .hostCompletion 0 (.data (List.replicate 4097 0)),
       .hostCompletion 0 (.poisoned (List.replicate 4097 0)), .walkComplete 0 (List.replicate 6 0) true, .thermalSample (.half 0) [],
       .thermalSample (.hub 0) []] : List Instr).all fun c => !c.wellFormed) = true := by
  simp only [List.all_cons, List.all_nil, Instr.wellFormed, wfPayload, wfLine, ReadResult.len, CplStatus.wf, List.length_replicate]
  decide

theorem witness_CommandsComplete :
    (Instr.bar4Read 0 0 4096).wellFormed = true ∧ (Instr.bar4Read 0 0 4097).wellFormed = false := by decide

/-! The block. -/

theorem witness_EmptyQueueTicks :
    s4.pending = [] ∧ SMap.wf ({} : Core) s4.cores = true ∧ (s4.core 0).wb = [] ∧ (s4.core 0).mode = .running ∧
    ((withCore { core4 with mode := .clearing }).core 0).mode = .clearing ∧
    SMap.wf ({} : Group) (s4.core 0).groups = true ∧ ((s4.core 0).group 0).occupied = true ∧
    (((withCore { core4 with groups := [(0, { group4 with resv := some ⟨0, 0, 128, 0⟩ })] }).core 0).group 0).resv = some ⟨0, 0, 128, 0⟩ := by decide

theorem witness_RectanglesStayApart : State.reset.rectsApart ∧ ∃ t, step State.reset = .next t := by
  refine ⟨?_, _, rfl⟩
  intro p q a b _ h
  have hn : State.reset.rect p = none := rfl
  rw [hn] at h
  cases h

theorem witness_MemoryStaysCanonical :
    Memory.wf ({ mem := [(5, 1)] } : Store) = true ∧ Memory.wf ({ mem := [(5, 0)] } : Store) = false ∧
    ∃ t, step ({ store := { mem := [(5, 1)] } } : State) = .next t := ⟨by decide, by decide, _, rfl⟩

theorem witness_ThermTripHolds :
    (∃ t, exec (.nop g0 (unitOf 0 0 0 0)) ({ sys := { tripped := true } } : State) = .next t) ∧
    ({ sys := { pwrEn := true, ignored := true } } : State).sys.mainOn = false ∧
    ({ sys := { tripped := true, standby := true } } : State).allCool = true ∧
    ({ power := { hubTemps := [(0, 1440)] } } : State).allCool = false := ⟨⟨_, rfl⟩, by decide, by decide, by decide⟩
/-! Rules stated whole. -/

theorem witness_ComparisonCodes :
    s4.executes (inst g0 (unitOf 1 7 7 0 9)) (scalarForm (unitOf 1 7 7 0 9) (.p 1) true) ∧
    s4.executes (inst g0 (unitOf 7 15 15 0 9)) (vecForm (unitOf 7 15 15 0 9) .any .any .unused (dstP (unitOf 7 15 15 0 9)) true false) ∧
    s4.ready (inst g0 (unitOf 1 0 0 0 10)) = true ∧ (s4.grp (inst g0 (unitOf 1 0 0 0 10))).fenced .none = false ∧
    s4.scoreFree (inst g0 (unitOf 1 0 0 0 10)) (scalarForm (unitOf 1 0 0 0 10) (.p 1) false).slots = true ∧
    s4.engineHeld (inst g0 (unitOf 1 0 0 0 10)) .s = false ∧ s4.engineHeld (inst g0 (unitOf 1 0 0 0 10)) .v = false := by
  unfold State.executes; decide

/-- A group whose stack is full and which would push lane 0. -/
def deep (n : Nat) : State :=
  withCore { core4 with groups := [(0, { group4 with stack := List.replicate n ⟨0x100, 0xF, true⟩, p := [(1, 1)] })] }

theorem witness_StackLimits :
    (deep 32).executes (inst g0 { unitOf 0 0 0 4 2 with pred := 1 }) (braForm { unitOf 0 0 0 4 2 with pred := 1 }) ∧
    ((deep 32).grp (inst g0 { unitOf 0 0 0 4 2 with pred := 1 })).active &&&
      ~~~((deep 32).grp (inst g0 { unitOf 0 0 0 4 2 with pred := 1 })).passing { unitOf 0 0 0 4 2 with pred := 1 } ≠ 0 ∧
    32 ≤ ((deep 32).grp (inst g0 { unitOf 0 0 0 4 2 with pred := 1 })).stack.length ∧
    branchReconv 0 { unitOf 0 0 0 4 2 with pred := 1 } = 32 ∧
    s4.executes (inst g0 (unitOf 0 0 0 0)) (noOperands (unitOf 0 0 0 0)) ∧ (s4.grp (inst g0 (unitOf 0 0 0 0))).stack = [] ∧
    (s4.grp (inst g0 (unitOf 0 0 0 0))).passing (unitOf 0 0 0 0) ≠ 0 := by
  unfold State.executes; decide

/-- A core whose group has ended, with a token left, and another group to come. -/
def ending : State := withCore { core4 with groups := [(0, { occupied := true, tokens := [(3, 63)] })], share := { groups := 2, placed := 1 } }

theorem witness_TokensDiscarded : ending.groupDone 0 0 = true ∧ ((ending.core 0).group 0).token 3 = 63 := by decide

/-- A queue of 16 entries. -/
def queue16 (state : QueueState) : Queue :=
  { part := 0, be := false, log2 := 4, tier1 := true, ctx := 0x400, ring := 0, index := 0, tail := 7, head := 7, retired := 7, state, reason := 0,
    lastLaunch := 0, holdFrom := none, waitAlmanac := false, haltOp := none, abortSeqs := [] }

def withQueue (state : QueueState) : State := { work := { queues := [(0, some (queue16 state))] }, sys := { state := 2 } }

theorem witness_QueueTailWrites :
    (withQueue .active).queue 0 = some (queue16 .active) ∧ (withQueue .active).sys.state = 2 ∧
    ((23 : Word) - (queue16 .active).head).toNat = 2 ^ (queue16 .active).log2 ∧
    2 ^ (queue16 .halted).log2 < ((24 : Word) - (queue16 .halted).head).toNat ∧ (queue16 .halted).state ≠ .active ∧
    (queue16 .active).head = (queue16 .active).tail := by decide
/-! Registers. -/

theorem witness_ScalarInstructions :
    s4.executes (inst g0 (unitOf 7 0x85 0 0)) (scalarForm (unitOf 7 0x85 0 0) (.uDst 7) true) ∧
    s4.executes (inst g0 (unitOf 7 0 0 0)) (movForm (unitOf 7 0 0 0)) ∧
    s4.executes (inst g0 (unitOf 7 0 0 0 0x7FFF)) (moviForm (unitOf 7 0 0 0 0x7FFF)) ∧
    s4.executes (inst g0 (unitOf 7 15 0 15)) (t2uForm (unitOf 7 15 0 15) 16) := by
  unfold State.executes; decide

theorem witness_VectorIntegerLanes :
    s4.executes (inst g0 (unitOf 15 0 15 0)) (vecForm (unitOf 15 0 15 0) .any .any .unused (.t 15 1) true false) ∧
    s4.executes (inst g0 (unitOf 15 0 0 0)) (vecForm (unitOf 15 0 0 0) .any .unused .unused (.t 15 1) true false) ∧
    s4.executes (inst g0 (unitOf 15 0 0 15)) (vecForm (unitOf 15 0 0 15) .any .any .any (.t 15 1) true false) ∧
    s4.executes (inst g0 (unitOf 15 0 0 7)) (vecForm (unitOf 15 0 0 7) .any .any .pOnly (.t 15 1) true false) := by
  unfold State.executes; decide

theorem witness_VectorFloat :
    s4.executes (inst g0 (unitOf 15 0 15 0 0x30)) (vecForm (unitOf 15 0 15 0 0x30) .any .any .unused (.t 15 1) true false) ∧
    s4.executes (inst g0 (unitOf 15 0 15 1 0x20)) (vecForm (unitOf 15 0 15 1 0x20) .any .any .any (.t 15 1) true false) ∧
    s4.executes (inst g0 (unitOf 15 0 0 0)) (vecForm (unitOf 15 0 0 0) .any .unused .unused (.t 15 1) true false) ∧
    s4.executes (inst g0 (unitOf 15 0 0 0 0x40)) (vecForm (unitOf 15 0 0 0 0x40) .any .any .unused (.t 15 1) true false) ∧
    (unitOf 15 0 15 0 0x30).onlyBits 0x7830 = true ∧ (unitOf 15 0 0 0 0x40).onlyBits 0x7840 = true ∧
    s4.executes (inst g0 (unitOf 7 0 0 0 7)) (vecForm (unitOf 7 0 0 0 7) .any .any .unused (dstP (unitOf 7 0 0 0 7)) true false) := by
  unfold State.executes; decide

theorem witness_ConversionLanes :
    s4.executes (inst g0 (unitOf 15 0 0 0 0x99)) (vecForm (unitOf 15 0 0 0 0x99) .any .unused .unused (.t 15 1) true false) ∧
    (cvtTypes (unitOf 15 0 0 0 0x99) && cvtPos (unitOf 15 0 0 0 0x99) == 0) = true ∧
    s4.executes (inst g0 (unitOf 15 0 0 0 0x01)) (vecForm (unitOf 15 0 0 0 0x01) .any .any .unused (.t 15 1) true false) ∧
    typeBits (cvtTo (unitOf 15 0 0 0 0x01)) = 16 ∧
    s4.executes (inst g0 (unitOf 15 0 0 0 0x303)) (vecForm (unitOf 15 0 0 0 0x303) .any .unused .unused (.t 15 1) true false) ∧
    typeBits (cvtTo (unitOf 15 0 0 0 0x303)) = 8 ∧ typeBits (cvtFrom (unitOf 15 0 0 0 0x330)) = 8 ∧
    typeBits (cvtFrom (unitOf 15 0 0 0 0x110)) = 16 ∧ cvtPos (unitOf 15 0 0 0 0x110) = 1 := by
  unfold State.executes; decide

theorem witness_Collectives :
    (s4.grp (inst g0 (unitOf 15 0 0 0))).passing (unitOf 15 0 0 0) = (s4.grp (inst g0 (unitOf 15 0 0 0))).live ∧
    s4.executes (inst g0 (unitOf 15 0 0 0)) (vecForm (unitOf 15 0 0 0) .tOnly .any .unused (.t 15 1) true true) ∧
    s4.executes (inst g0 (unitOf 15 0 0 0 15)) (vecForm (unitOf 15 0 0 0 15) .tOnly .unused .unused (.t 15 1) true true) ∧
    s4.executes (inst g0 (unitOf 7 7 0 0 1)) (vecForm (unitOf 7 7 0 0 1) .pOnly .unused .unused (dstP (unitOf 7 7 0 0 1)) true true) ∧
    s4.executes (inst g0 (unitOf 14 7 0 0 2)) (vecForm (unitOf 14 7 0 0 2) .pOnly .unused .unused (.t 14 2) true true) ∧
    (unitOf 14 7 0 0 0x802).bit 11 = true ∧ (unitOf 14 7 0 0 0x802).opmod = 2 ∧
    s4.executes (inst g0 (unitOf 15 0 0 0 6)) (vecForm (unitOf 15 0 0 0 6) .tOnly .unused .unused (.t 15 1) true true) := by
  unfold State.executes; decide

/-! Control and faults. -/

/-- Lane 0 takes a branch. -/
def uP1 (a b c : Nat) (mod : Nat := 0) : Fields := { unitOf 0 a b c mod with pred := 1 }

theorem witness_ControlFlow :
    (deep 31).executes (inst g0 (uP1 0 0 4 2)) (braForm (uP1 0 0 4 2)) ∧
    ((deep 31).grp (inst g0 (uP1 0 0 4 2))).passing (uP1 0 0 4 2) = 1 ∧
    ((deep 31).grp (inst g0 (uP1 0 0 4 2))).stack.length < 32 ∧
    branchTarget 0 (uP1 0 0 32 32) = 0x100 ∧ branchReconv 0 (uP1 0 0 32 32) = 0x100 ∧
    ((deep 1).grp (inst g0 (uP1 0 0 32 32))).top = some ⟨0x100, 0xF, true⟩ ∧
    s4.executes (inst g0 (unitOf 0 0 0 4 2)) (braForm (unitOf 0 0 0 4 2)) ∧
    s4.executes (inst g0 (unitOf 0 7 0 0)) (briForm (unitOf 0 7 0 0)) ∧
    (s4.uVal (inst g0 (unitOf 0 7 0 0)) 7).toNat % 8 = 0 ∧
    (deep 31).executes (inst g0 (unitOf 0 0 0 0 0x7FFF)) (callForm (unitOf 0 0 0 0 0x7FFF)) ∧
    (deep 1).executes (inst g0 (uP1 0 0 0)) (noOperands (uP1 0 0 0)) ∧
    (∃ e ∈ ((deep 1).grp (inst g0 (uP1 0 0 0))).stack, e.isCall = true ∧ e.mask &&& 1 ≠ 0) ∧
    s4.executes (inst g0 (uP1 0 0 0)) (noOperands (uP1 0 0 0)) ∧ (s4.grp (inst g0 (uP1 0 0 0))).passing (uP1 0 0 0) = 0 := by
  unfold State.executes; decide

/-- A group that waits on the mesh and at a barrier as long as the watchdog allows. -/
def waiting : State :=
  let w : MeshWait := { isSend := true, tile := false, stream := 15, dreg := 0, lanes := 0xF, flits := [List.replicate 64 1], red := false, bf16 := false,
                        addr := 0, left := 0, waited := 1024, site := ⟨0, 8, 0xF, 0xF⟩ }
  withCore { core4 with watchdog := 1, groups := [(0, { group4 with mesh := some w, waits := [(waitKey .barGroup, 1024)],
                                                                     arrivals := [⟨none, 1, 16⟩] })] }

theorem witness_Traps :
    s4.ready (inst g0 (unitOf 0 0 0 0)) = true ∧ (waiting.core 0).live = true ∧
    (∃ w, ((waiting.core 0).group 0).mesh = some w ∧ (waiting.core 0).watchLimit ≤ w.waited) ∧
    (waiting.core 0).watchLimit ≤ SMap.get 0 ((waiting.core 0).group 0).waits (waitKey .barGroup) ∧
    (∃ x, (waiting.core 0).openWait 0 .barGroup = some x) ∧
    ((s4.core 0).mode = .running ∧ s4.ctxById 0x400 = none) := by
  refine ⟨by decide, by decide, ⟨_, rfl, by decide⟩, by decide, ⟨_, rfl⟩, by decide⟩
/-! Memory. -/

/-- Pages 0, 1 and 2 of context 0x400 lie in Tier 1, of the types Normal, Device and Replicable. -/
def leaf (n : Nat) : TlbEntry :=
  { ctx := 0x400, va := 4096 * n, size := 4096, out := 4096 * n, kind := .module, writable := true, attr := n, pinned := true }

def ctx4 : Ctx :=
  { gen := 1, state := 1, attrMap := 0x010200,
    windows := [{ va := 0, len := 12288, writable := true, stale := false, leaves := [leaf 0, leaf 1, leaf 2] }] }

/-- Partition 0 owns the first granule of Tier 1, whose region is strand 0. -/
def store0 : Store := { regions := [(0, some { base := 0, strands := [0], bays := 1, firstBay := 0 })], tags := [(0, 0x4000)] }

def memState (k : Core) : State := { cores := [(0, k)], xlat := { ctxs := [(0, ctx4)] }, store := store0 }

/-- The group of `core4` with u[1] at page 1, u[2] at page 2, u[3] = 128. -/
def mem4 : State := memState { core4 with groups := [(0, { group4 with u := [(1, 4096), (2, 8192), (3, 128)] })] }

/-- The L1 of the core holds line 0. -/
def mem4L1 : State :=
  memState { core4 with groups := [(0, group4)], l1 := [{ line := l1Key .module 0, bytes := [] }] }

theorem witness_TileLoadsAndStores :
    (∀ l ∈ lanesOf ((s4.grp (inst g0 (unitOf 15 0 0 0 0x2000))).passing (unitOf 15 0 0 0 0x2000)),
      s4.laneTile (inst g0 (unitOf 15 0 0 0 0x2000)) l % 4 = 0 ∧ s4.laneTile (inst g0 (unitOf 15 0 0 0 0x2000)) l < (s4.core 0).T) ∧
    s4.executes (inst g0 (unitOf 15 0 0 0 0x2000)) (ldtForm (unitOf 15 0 0 0 0x2000)) ∧ 15 + sizeRegs 2 ≤ 256 ∧
    s4.executes (inst g0 (unitOf 0 0 0 12 0x4000)) (sttForm (unitOf 0 0 0 12 0x4000)) := by
  unfold State.executes; decide

theorem witness_Loads :
    mem4.executes (inst g0 (unitOf 15 0 1 0 0x2000)) (ldForm (unitOf 15 0 1 0 0x2000)) ∧
    (∃ as s1, mem4.accesses (inst g0 (unitOf 15 0 1 0 0x2000)) .load 4 0xF = (.inr as, s1) ∧ as.all (fun a => a.target.type == .device) = true ∧
      as.length = 4) ∧
    (∃ as s1, mem4.accesses (inst g0 (unitOf 15 0 2 0 0x2000)) .load 4 0xF = (.inr as, s1) ∧
      as.all (fun a => a.target.type == .replicable) = true ∧ as.length = 1) ∧
    (∃ as s1, mem4L1.accesses (inst g0 (unitOf 15 0 0 0 0x2400)) .load 4 0xF = (.inr as, s1) ∧
      as.map (fun a => l1Key a.target.kind a.target.addr) = (mem4L1.core 0).l1.map (·.line)) ∧
    mem4.executes (inst g0 (unitOf 7 0 0 0 0x3000)) (ldresForm (unitOf 7 0 0 0 0x3000)) ∧
    (∃ x s1, mem4.uniformAccess (inst g0 (unitOf 7 0 0 0 0x3000)) .ldres 3 = (.inr x, s1)) ∧
    mem4.executes (inst g0 (unitOf 7 0 0 7 0x3000)) (stcondForm (unitOf 7 0 0 7 0x3000)) ∧
    (∃ x s1, mem4.uniformAccess (inst g0 (unitOf 7 0 0 7 0x3000)) .stcond 3 = (.inr x, s1)) ∧
    (withCore { core4 with kernel := { codeBytes := 4096, poolOff := 4352, poolBytes := 8 } }).executes (inst g0 (unitOf 7 7 0 0))
      (ldkForm (unitOf 7 7 0 0)) := by
  refine ⟨by unfold State.executes; decide, ⟨_, _, rfl, by decide, by decide⟩, ⟨_, _, rfl, by decide, by decide⟩, ⟨_, _, rfl, by decide⟩,
    by unfold State.executes; decide, ⟨_, _, rfl⟩, by unfold State.executes; decide, ⟨_, _, rfl⟩, by unfold State.executes; decide⟩

/-- A buffered store of group 0 to line 0. -/
def entry0 : WbEntry :=
  { line := 0, bytes := [(127, some 1)], groups := [0], part := 0, ctx := 0x400, tag := 0, site := ⟨0, 0, 0xF, 0xF⟩, kind := .module, age := 4096, va := 0 }

theorem witness_StoresAndReservations :
    mem4.executes (inst g0 (unitOf 0 0 1 15 0x2000)) (stForm (unitOf 0 0 1 15 0x2000)) ∧
    (∃ as a s1, mem4.accesses (inst g0 (unitOf 0 0 1 15 0x2000)) .store 4 0xF = (.inr (as ++ [a]), s1) ∧ a.target.type = .device) ∧
    (∃ as a s1, mem4.accesses (inst g0 (unitOf 0 0 0 15 0x2000)) .store 4 0xF = (.inr (as ++ [a]), s1) ∧ a.target.type = .normal) ∧
    (mem4.deviceQueue 0).length < 16 ∧ ((withCore { core4 with wb := [entry0] }).core 0).wb[0]? = some entry0 ∧
    (∃ x, (((withCore { core4 with groups := [(0, { group4 with resv := some ⟨0, 0, 128, 65536⟩ })] }).core 0).group 0).resv = some x ∧
      65536 ≤ x.age) :=
  ⟨by unfold State.executes; decide, ⟨[_, _, _], _, _, rfl, by decide⟩, ⟨[], _, _, rfl, by decide⟩, by decide, rfl, _, rfl, by decide⟩

theorem witness_AtomicsSendRequests :
    mem4.executes (inst g0 (unitOf 14 0 0 14 0x3000)) (atomCasForm (unitOf 14 0 0 14 0x3000)) ∧
    mem4.executes (inst g0 (unitOf 15 0 0 15 0x2090)) (atomForm (unitOf 15 0 0 15 0x2090)) ∧
    (∃ as s1, mem4.accesses (inst g0 (unitOf 15 0 0 15 0x2090)) (.atomic false) 4 0xF = (.inr as, s1) ∧
      as.all (fun a => a.target.kind == .module) = true ∧ as.length = 1) ∧
    (∃ as s1, mem4.accesses (inst g0 (unitOf 14 0 0 14 0x3000)) (.atomic true) 8 0xF = (.inr as, s1)) ∧
    mem4.executes (inst g0 (unitOf 0 0 0 15 0x10)) (redForm (unitOf 0 0 0 15 0x10) .add) ∧
    mem4.executes (inst g0 (unitOf 0 0 0 15 0x20)) (redForm (unitOf 0 0 0 15 0x20) .min) ∧
    (∃ as s1, mem4.accesses (inst g0 (unitOf 0 0 0 15 0x20)) .reduce 4 0xF = (.inr as, s1)) := by
  refine ⟨by unfold State.executes; decide, by unfold State.executes; decide, ⟨_, _, rfl, by decide, by decide⟩, ⟨_, _, rfl⟩,
    by unfold State.executes; decide, by unfold State.executes; decide, ⟨_, _, rfl⟩⟩

theorem witness_CacheOperationsSendRequests :
    mem4.executes (inst g0 (unitOf 0 0 3 0)) (cacheOpForm (unitOf 0 0 3 0) .write) ∧
    (mem4.uVal (inst g0 (unitOf 0 0 3 0)) 3).toNat = 128 ∧ (mem4.uVal (inst g0 (unitOf 0 0 7 0)) 7).toNat = 0 ∧
    (∃ ts s1, mem4.checkLines 0 .discard 1 ((rangeLines 0 128).map fun va => (0, va)) ((rangeLines 0 128).map (· / 128)) = (.inr ts, s1) ∧
      ts.map (fun x => x.2.kind) = [.module]) ∧
    mem4.executes (inst g0 (unitOf 0 0 3 0)) (cacheOpForm (unitOf 0 0 3 0) .read) ∧ rangeLines 0 128 = [0] ∧
    (∃ x s1, mem4.compute 0 0 .load = (.inl x, s1) ∧ x.type ≠ .device ∧ x.kind = .module) := by
  refine ⟨by unfold State.executes; decide, by decide, by decide, ⟨_, _, rfl, by decide⟩, by unfold State.executes; decide,
    by decide, ⟨_, _, rfl, by decide, by decide⟩⟩
/-! The engines, tokens and the mesh. -/

/-- A core of a kernel that uses the matrix engine, with its queue. -/
def mtxCore (q : List MtxEntry) : Core := { core4 with kernel := { codeBytes := 4096, usesMatrix := true }, mtxQ := q, plane0 := { loaded := true } }

def mtxEntry (uid : Nat) (op : MtxOp) (started : Bool) : MtxEntry := { uid, op, started, cols := [], slot := 0, pc := 0, active := 0xF, live := 0xF }

theorem witness_MatrixInstructionsEnterQueue :
    (withCore (mtxCore [])).executes (inst g0 (unitOf 0 7 0 0 0x4000)) (mloadpForm (unitOf 0 7 0 0 0x4000) (mtxCore [])) ∧
    (withCore (mtxCore [])).executes (inst g0 (unitOf 0 7 7 7 0x4048)) (mtxForm (unitOf 0 7 7 7 0x4048) (mtxCore []) 0x7FFC
      (drainModsOk (unitOf 0 7 7 7 0x4048))) ∧
    (withCore (mtxCore [])).executes (inst g0 (unitOf 0 7 7 7 0x848)) (mtxForm (unitOf 0 7 7 7 0x848) (mtxCore []) 0x87C
      (drainModsOk (unitOf 0 7 7 7 0x848))) ∧
    strideOperandOk 0 = true ∧ weightOperandOk 0 = true ∧ accOperandOk 0 = true ∧ countOperandOk 0xFFFF = true ∧
    ((withCore (mtxCore [])).grp (inst g0 (unitOf 0 7 0 0))).passing (unitOf 0 7 0 0) = 0xF ∧
    ((withCore (mtxCore (List.replicate 15 (mtxEntry 0 (.tokSet 0) false)))).core 0).mtxQ.length < 16 := by
  unfold State.executes; decide

theorem witness_MatrixLoadsAndCompletions :
    (mtxCore [mtxEntry 1 (.load 0 true 4) false]).mtxNext [] [mtxEntry 1 (.load 0 true 4) false] = some ([], mtxEntry 1 (.load 0 true 4) false) ∧
    (mtxCore []).live = true ∧ 63 * 0 + kindRowBytes 4 ≤ (mtxCore []).T ∧
    ((mtxCore [mtxEntry 1 (.load 0 true 4) true]).mtxQ.find? fun x => x.started && (match x.op with | .load _ _ _ => true | _ => false)) =
      some (mtxEntry 1 (.load 0 true 4) true) ∧
    ((mtxCore [mtxEntry 1 (.drain 1 0 0 0) true]).mtxQ.find? fun x =>
      x.started && (match x.op with | .stream _ _ _ _ => true | .drain _ _ _ _ => true | _ => false)) = some (mtxEntry 1 (.drain 1 0 0 0) true) ∧
    (∃ k1, (mtxCore []).drainCols 0 0 [(0, List.replicate 64 0)] = (k1, .ok)) :=
  ⟨by decide, by decide, by decide, by decide, by decide, _, rfl⟩

theorem witness_MatrixStreams :
    (mtxCore []).mtxNext [] [mtxEntry 1 (.stream 0x0001000000000000 0 0 0x100) false] = some ([], mtxEntry 1 (.stream 0x0001000000000000 0 0 0x100) false) ∧
    pairOk (bitsOf 0x100 7 4) ((mtxCore []).plane false).kind = true ∧ (∃ f, streamFmt (bitsOf 0x100 7 4) = some f ∧ f.recordBytes 0 = 64) ∧
    bitsOf 0x0001000000000000 48 16 = 1 ∧ 1 ≤ bitsOf 0 16 11 + 1 ∧ 0 + (1 - 1) * 64 + 64 ≤ (mtxCore []).T := by
  refine ⟨by decide, by decide, ⟨_, rfl, by decide⟩, by decide, by decide, by decide⟩

/-- A descriptor that fills 64 bytes of tile memory. -/
def fillDesc : DmaDesc :=
  { op := 2, srcTile := false, dstTile := true, ro := false, tag := 0, rowBytes := 64, src := 0, dst := 0, rows := 1, srcStride := 0, dstStride := 0,
    fill := 0 }

def dmaEntry (uid taken : Nat) (work : DmaWork) : DmaEntry := { uid, work, taken, stall := none, slot := 0, pc := 0, active := 0xF, live := 0xF }

/-- The bytes of `fillDesc`, at offset 0 of tile memory. -/
def fillTile : SMap Byte := [(0, 2), (1, 2), (4, 64), (24, 1)]

theorem witness_DmaDescriptors :
    (withCore { core4 with tile := fillTile }).executes (inst g0 (unitOf 0 7 0 0)) (dmaIssueForm (unitOf 0 7 0 0)) ∧
    dmaDesc (SMap.getBytes fillTile 0 64) = some fillDesc ∧ 4032 + 64 ≤ core4.T ∧
    ({ core4 with dmaQ := [dmaEntry 1 64 (.desc fillDesc)] } : Core).dmaQ[0]? = some (dmaEntry 1 64 (.desc fillDesc)) ∧
    fillDesc.total = 64 ∧ core4.dmaOpen [] = true ∧ s4.dmaBusy 0 1 = false ∧
    (∃ s1, State.dmaRun (fun s k => s.dmaPiece 0 (dmaEntry 1 0 (.desc fillDesc)) fillDesc k) 64 64
      (withCore { core4 with dmaQ := [dmaEntry 1 0 (.desc fillDesc)] }) 0 = (64, .no, s1)) ∧
    (∃ n s1, State.dmaRun (fun s k => s.dmaRangePiece 0 (dmaEntry 1 0 (.desc { fillDesc with op := 4, dstTile := false }))
      { fillDesc with op := 4, dstTile := false } .flush k) 64 64 mem4 0 = (n, .no, s1)) := by
  refine ⟨by unfold State.executes; decide, by decide, by decide, by decide, by decide, by decide, by decide, ⟨_, rfl⟩, ⟨_, _, rfl⟩⟩

theorem witness_FencesAndBarriers :
    s4.executes (inst g0 (unitOf 0 0 0 0 0xE)) (fenceForm (unitOf 0 0 0 0 0xE)) ∧ (s4.grp (inst g0 (unitOf 0 0 0 0))).fence = none ∧
    2 ≤ (unitOf 0 0 0 0 0xE).bits 2 2 ∧ (unitOf 0 0 0 0 0xE).bits 0 2 ≠ 0 ∧
    s4.fenceDone 0 { scope := 3, kind := 2, reqs := [1], entries := [1] } = true ∧
    s4.coreFenced (inst g0 (unitOf 0 0 0 0)) = true ∧ (s4.core 0).groups = [(0, group4)] ∧ group4.arrivals = [] ∧
    s4.executes (inst g0 (unitOf 0 0 0 0)) (noOperands (unitOf 0 0 0 0)) ∧
    (deep 1).executes (inst g0 (uP1 0 0 0)) (noOperands (uP1 0 0 0)) ∧ (1 : Mask) &&& 0xF ≠ 0xF ∧
    s4.executes (inst g0 (unitOf 0 0 0 0 15)) (barCoreForm (unitOf 0 0 0 0 15)) ∧
    (let k : Core := { core4 with groups := [(0, group4), (1, group4)] }
     (withCore k).executes (inst g0 (unitOf 0 0 0 0 15)) (barCoreForm (unitOf 0 0 0 0 15)) ∧ (k.group 1).occupied = true ∧ (k.group 1).live ≠ 0) := by
  unfold State.executes; decide

theorem witness_Tokens :
    s4.executes (inst g0 (unitOf 0 0 0 0 0x2F)) (tokForm (unitOf 0 0 0 0 0x2F)) ∧ engineOf ((unitOf 0 0 0 0 0x2F).bits 4 2) = .m ∧
    s4.executes (inst g0 (unitOf 0 0 0 0 0x3F)) (tokForm (unitOf 0 0 0 0 0x3F)) ∧ engineOf ((unitOf 0 0 0 0 0x3F).bits 4 2) = .d ∧
    s4.executes (inst g0 (unitOf 0 0 0 0 0x0F)) (tokForm (unitOf 0 0 0 0 0x0F)) ∧ engineOf ((unitOf 0 0 0 0 0x0F).bits 4 2) = .s ∧
    core4.mtxSetReady 0 [] [mtxEntry 1 (.tokSet 15) false] = some (mtxEntry 1 (.tokSet 15) false, 15) ∧
    core4.dmaSetReady 0 [] [dmaEntry 1 0 (.tokSet 15)] = some (dmaEntry 1 0 (.tokSet 15), 15) ∧
    core4.mtxWaiting [] [mtxEntry 1 (.tokWait 15) false] = some (mtxEntry 1 (.tokWait 15) false, 15) ∧
    core4.dmaWaiting [] [dmaEntry 1 0 (.tokWait 15)] = some (dmaEntry 1 0 (.tokWait 15), 15) ∧
    (let x : Group := { group4 with tokens := [(15, 62)], sets := [⟨.v, 15, []⟩], tokWaits := [(.s, 15, 8)] }
     (x.sets.find? fun t => t.engine == .v) = some ⟨.v, 15, []⟩ ∧ SMap.get 0 x.tokens 15 ≠ 63 ∧ 1 ≤ SMap.get 0 x.tokens 15 ∧
       (x.tokWaits.find? fun w => w.1 == .s) = some (.s, 15, 8)) := by
  unfold State.executes; decide
/-! The mesh, system instructions, cores and registers. -/

/-- Router table entries of stream `n`: output E takes it from L, and L takes it from E. -/
def schedOf (n : Nat) : List Byte := leBytes 8 ((256 * n + 5) * 2 ^ 12 + (256 * n + 2) * 2 ^ 48)

/-- Core 0 of a kernel that uses the mesh, with its table at address 0, and its queues for stream 15. -/
def meshCore (send recv : List Flit) : Core :=
  { core4 with kernel := { codeBytes := 4096, usesMesh := true },
               router := { run := true, running := true, edge := 0, sendQ := [(15, send)], recvQ := [(15, recv)] } }

def flit15 : Flit := { red := false, bf16 := false, stream := 15, bytes := List.replicate 64 7 }

def meshState (k : Core) : State :=
  ({ cores := [(0, { k with groups := [(0, { group4 with u := [(1, 64), (2, 128)] })] })], store := store0 } : State).putMem 0 (schedOf 15)

def meshWait (isSend : Bool) (flits : List (List Byte)) : MeshWait :=
  { isSend, tile := false, stream := 15, dreg := 0, lanes := 0xF, flits, red := false, bf16 := false, addr := 0, left := 0, waited := 5, site := ⟨0, 0, 0xF, 0xF⟩ }

/-- Core 80 of die 1 lies east of core 44 of die 0, and its West crossing queue of VC 3 holds a flit. -/
def crossState : State :=
  { cores := [(44, { router := { edge := 0 } }), (80, { router := { crossQ := [(15, [flit15])] } })] }

theorem witness_Mesh :
    (meshState (meshCore [] [])).executes (inst g0 (unitOf 0 15 0 0 15)) (sendForm (unitOf 0 15 0 0 15) (meshCore [] [])) ∧
    ((meshState (meshCore [] [])).grp (inst g0 (unitOf 0 15 0 0 15))).passing (unitOf 0 15 0 0 15) = 0xF ∧
    (meshState (meshCore [] [])).streamNamed 0 15 true = true ∧ (meshState (meshCore [] [])).streamNamed 0 15 false = true ∧
    (meshState (meshCore [] [])).executes (inst g0 (unitOf 15 0 0 0 15)) (recvForm (unitOf 15 0 0 0 15) (meshCore [] [])) ∧
    ((meshCore (List.replicate 8 flit15) []).router.sending 15).length = 8 ∧ 1 ≤ ((meshCore [] [flit15]).router.recv 15).length ∧
    (meshState (meshCore [] [])).executes (inst g0 (unitOf 0 1 2 0 0x200F)) (sendForm (unitOf 0 1 2 0 0x200F) (meshCore [] [])) ∧
    (meshState (meshCore [] [])).executes (inst g0 (unitOf 0 1 2 0 0x200F)) (recvForm (unitOf 0 1 2 0 0x200F) (meshCore [] [])) ∧
    ((meshState (meshCore [] [])).uVal (inst g0 (unitOf 0 1 2 0)) 1).toNat + ((meshState (meshCore [] [])).uVal (inst g0 (unitOf 0 1 2 0)) 2).toNat ≤
      (meshCore [] []).T ∧
    (meshCore [] []).router.length = 1 ∧ (meshState (meshCore [flit15] [])).slotReady 0 = true ∧
    (∃ s1, (meshState (meshCore [flit15] [])).slotOutputs 0 0 (meshCore [flit15] []) [0, 1, 2, 3, 4] = .inr s1) ∧
    (meshCore [flit15] []).router.inputs = [] ∧ neighbour 44 1 = some 80 ∧ crossing 44 1 = true ∧
    SMap.get [] (crossState.core 80).router.crossQ (4 * opposite 1 + 3) = [flit15] ∧
    (SMap.get [] (crossState.core 44).router.crossB (4 * 1 + 3)).length < 8 := by
  refine ⟨by unfold State.executes; decide, by decide, by decide, by decide, by unfold State.executes; decide, by decide, by decide,
    by unfold State.executes; decide, by unfold State.executes; decide, by decide, by decide, by decide, ⟨_, rfl⟩, by decide, by decide, by decide,
    by decide, by decide⟩
/-- A core whose kernel is privileged, with u[1] = 64. -/
def privState : State :=
  withCore { core4 with kernel := { codeBytes := 4096, priv := true }, groups := [(0, { group4 with u := [(1, 64)] })] }

theorem witness_SystemInstructions :
    s4.executes (inst g0 (unitOf 7 0 0 0 0x150)) (cntrForm (unitOf 7 0 0 0 0x150)) ∧
    s4.executes (inst g0 (unitOf 7 0 0 0)) (merrForm (unitOf 7 0 0 0)) ∧
    (privState.grp (inst g0 (unitOf 0 1 0 0))).passing (unitOf 0 1 0 0) ≠ 0 ∧
    privState.executes (inst g0 (unitOf 0 1 0 0)) (rinseSetForm (unitOf 0 1 0 0) (privState.core 0)) ∧
    (privState.uVal (inst g0 (unitOf 0 1 0 0)) 1).toNat = 64 ∧
    privState.executes (inst g0 (unitOf 0 0 0 0)) (rinseClrForm (unitOf 0 0 0 0) (privState.core 0)) := by
  unfold State.executes; decide

/-- A core of context 0x400 and partition 0 that was given a share of two groups. -/
def sharer (mode : CoreMode) : Core :=
  { mode, context := 0x400, tilePages := 512, uniforms := 64, width := 2, regsDiv8 := 32, clearCount := 8192, share := { groups := 2, placed := 1 } }

theorem witness_CoresAndGroups :
    (sharer .idle).cfgOk = true ∧ (sharer .idle).share.groups ≠ 0 ∧ { sharer .idle with lastCtx := some (0x400, 0) }.lastCtx = some (0x400, 0) ∧
    (sharer .idle).lastCtx ≠ some (0x400, 0) ∧ (sharer .running).mode ≠ .idle ∧ (sharer .running).wb = [] ∧
    8192 ≤ (sharer .clearing).clearCount ∧ (sharer .draining).mtxQ = [] ∧ (sharer .draining).dmaQ = [] ∧
    (withCore (sharer .draining)).coreRequests 0 = false ∧ ending.groupDone 0 0 = true ∧ (ending.core 0).mode = .running ∧
    (ending.core 0).share.placed < (ending.core 0).share.groups := by decide

theorem witness_ClearingAccesses : (0xFFFFFFFE : Word).getLsbD 0 = false ∧ (1 : Word).getLsbD 0 = true := by decide

/-- A half in a change of its replica ways and a sweep of partition 3, with a line in way 0. -/
def sweeping : Half :=
  { cfgBusy := true, nReplica := 0, nNext := 8, sweepBusy := true, sweepPart := 3, sweepWays := 0xFFFF,
    lines := [(0, { state := .clean }), (8, {})] }

theorem witness_RegistersAndCacheControls :
    icsBlock 0x0107DF0010 = (.reserved, 0) ∧ icsBlock 0x01075F0010 = (.core 639, 0x10) ∧ icsBlock 0x01001000F8 = (.core 0, 0xF8) ∧
    icsBlock 0x0100100400 = (.core 0, 0x400) ∧ icsBlock 0x0107900004 = (.half 15, 0x04) ∧ icsBlock 0x0100C00020 = (.memc 0, 0x20) ∧
    icsBlock 0x010010F004 = (.arb (.tile 0), 0x004) ∧ sweeping.cfgBusy = true ∧
    (∀ e ∈ sweeping.lines, roleChanges sweeping.nReplica sweeping.nNext (keyWay e.1) = true → e.2.state = .invalid) ∧
    ({} : Half).sweepBusy = false ∧ sweeping.sweepBusy = true ∧
    (∀ e ∈ sweeping.lines, (if sweeping.sweepMode then e.2.ctx = sweeping.sweepCtx else sweepTakes sweeping.sweepPart sweeping.sweepWays e.1 e.2 = true) →
      e.2.state = .invalid) := by
  decide
/-! Homes, lines, memory. -/

/-- Request 1 for the line at address 0, of group 0 of core 0. -/
def reqOf (op : ReqOp) (type : MemType := .normal) (place : Place := .home) : Req :=
  { id := 1, agent := .vec 0 0, tag := 0, part := 0, ctx := 0x400, type, kind := .module, addr := 0, op, place, lc := false, waited := 0,
    site := ⟨0, 0, 0xF, 0xF⟩ }

def cleanLine : CLine := { state := .clean, valid := 0xF }

/-- The request stands there, and way 15 of its home holds `l`. -/
def homeState (r : Req) (l : CLine) : State :=
  { cores := [(0, core4)], xlat := { ctxs := [(0, ctx4)] }, store := store0,
    fab := { reqs := [r], nextReq := 2, halves := [(0, { lines := [(15, l)] })] } }

def loadOp : ReqOp := .load 15 2 false false [(3, 124)] []

theorem witness_HomeReads :
    (homeState (reqOf loadOp) cleanLine).homeHit 1 (reqOf loadOp) 15 cleanLine ∧ (reqOf loadOp).type ≠ .device ∧
    (((homeState (reqOf loadOp) cleanLine).core 0).group 0).occupied = true ∧
    (homeState (reqOf (.ldres 3 7 120 0)) cleanLine).homeHit 1 (reqOf (.ldres 3 7 120 0)) 15 cleanLine ∧ (reqOf loadOp).addr % 128 = 0 ∧
    (homeState (reqOf loadOp .device) {}).presents 1 (reqOf loadOp .device) ∧
    ((homeState (reqOf loadOp .device) {}).half 0).homeWay 0 = none ∧
    (homeState (reqOf (.write [(0, 7)]) .device) {}).presents 1 (reqOf (.write [(0, 7)]) .device) := by
  and_intros <;> decide

theorem witness_HomeWrites :
    (homeState (reqOf (.write [(127, 7)])) cleanLine).homeHit 1 (reqOf (.write [(127, 7)])) 15 cleanLine ∧
    (homeState (reqOf (.atomic true 0 3 14 [(3, 120, 0, 1)])) cleanLine).homeHit 1 (reqOf (.atomic true 0 3 14 [(3, 120, 0, 1)])) 15 cleanLine ∧
    (homeState (reqOf (.reduce .add .bf16 [(126, 1)])) cleanLine).homeHit 1 (reqOf (.reduce .add .bf16 [(126, 1)])) 15 cleanLine ∧
    (let k : Core := { core4 with groups := [(0, { group4 with resv := some ⟨120, 0, 128, 65535⟩ })] }
     ({ homeState (reqOf (.stcond 3 120 7 1)) cleanLine with cores := [(0, k)] } : State).homeHit 1 (reqOf (.stcond 3 120 7 1)) 15 cleanLine) ∧
    (homeState (reqOf (.range .discard)) cleanLine).homeHit 1 (reqOf (.range .discard)) 15 cleanLine ∧ cleanLine.addr = (reqOf loadOp).addr ∧
    cleanLine.pair = none := by
  and_intros <;> decide
/-- Half 0 holds `home` in way 15 for line 0, and half 2 (of die 1) holds `replica` in its way 15. -/
def linesState (rs : List Req) (home replica : CLine) : State :=
  { homeState (reqOf loadOp) home with
    fab := { reqs := rs, nextReq := 2, halves := [(0, { lines := [(15, home)] }), (2, { lines := [(15, replica)] })],
             ctrls := [(0, { done := [(0, 0x8, [], 0x8)] })] } }

def fillLine : CLine := { state := .fill, valid := 0x7, fetch := 0x8, waiters := [1] }
def holdFor (why : HoldWhy) : CLine := { state := .hold, valid := 0xF, sharers := 0x82, why }
def replicaLine : CLine := { state := .replica, valid := 0xF }
def rfillLine : CLine := { state := .rfill, valid := 0xF, waiters := [1] }

/-- The load of group 0 of core 80, on die 1. -/
def load1 (place : Place) : Req := { reqOf loadOp .replicable place with agent := .vec 80 0 }

def replicaState (place : Place) (l : CLine) : State :=
  { linesState [load1 place] (holdFor (.invalidate 0x82)) l with cores := [(80, core4)] }

theorem witness_LinesAndReplicas :
    (let s := linesState [reqOf loadOp .normal .waiting] fillLine {}
     (s.half (s.homeOf 0)).homeWay 0 = some 15 ∧ ((s.ctrl (s.ctrlOf 0)).done.find? fun y => y.1 == 0) = some (0, 0x8, [], 0x8) ∧
     fillLine.merging = false ∧ s.reloadAt 0 = none) ∧
    (let s := linesState [reqOf loadOp .normal .missed] (holdFor (.forward 1)) {}
     s.req 1 = some (reqOf loadOp .normal .missed) ∧ (s.half (s.homeOf 0)).homeWay 0 = some 15) ∧
    (let s := linesState [] (holdFor (.invalidate 0x82)) {}
     (s.half (s.homeOf 0)).homeWay 0 = some 15 ∧ (0x82 : BitVec 8).getLsbD 1 = true ∧ (0x82 : BitVec 8).getLsbD 7 = true ∧
     s.noReplica 1 0 = true ∧ s.noReplica 7 0 = true ∧ (holdFor .none).sharers.getLsbD 7 = true) ∧
    (let s := linesState [] (holdFor (.forward 1)) replicaLine
     (s.half (s.homeOf 0)).homeWay 0 = some 15 ∧ (s.half (s.replicaHalf 1 0)).replicaWay 0 = some 15 ∧
     ((s.half (s.replicaHalf 1 0)).line 15).state = .replica) ∧
    (let s := replicaState .replica replicaLine
     (s.half (s.replicaHalf 1 0)).replicaWay 0 = some 15 ∧ s.req 1 = some (load1 .replica) ∧ ((s.core 80).group 0).occupied = true ∧
     (load1 .replica).die = 1 ∧ s.turnOf (load1 .replica) = true ∧ s.homeCheck (load1 .replica) = none ∧
     ((s.half 0).line 15).state = .hold ∧ ((s.half 0).line 15).why = .invalidate 0x82) ∧
    (let s := replicaState (.forwarded 1) replicaLine
     s.req 1 = some (load1 (.forwarded 1)) ∧ s.fillingReplica (load1 (.forwarded 1)) = none) ∧
    (let s := replicaState .waiting rfillLine
     (s.half (s.replicaHalf 1 0)).replicaWay 0 = some 15 ∧ s.req 1 = some (load1 .waiting) ∧ rfillLine.valid = 0xF ∧ rfillLine.doomed = false ∧
     rfillLine.waiters = [1]) := by
  and_intros <;> decide

/-- Controller 0 holds the operations and buckets; the request stands there. -/
def memcState (rs : List Req) (q : List MemOp) (b : SMap (List Nat)) : State :=
  { homeState (reqOf loadOp) {} with fab := { reqs := rs, ctrls := [(0, { queue := q, buckets := b })] } }

/-- A DMA read of `len` bytes for queue entry 1 of core 0, at `place`. -/
def dmaRead (len addr : Nat) (place : Place) : Req :=
  { reqOf (.dmaRead 0 len (.tile 0) true) .normal place with agent := .dma 0 1, addr }

def pageBytes : List (Nat × Byte) := (List.range 16384).map fun j => (j, 7)

def flashState (r : Req) : State :=
  { memcState [r] [] [] with store := { store0 with tags := [(tier3Base / 2097152, 0x4000)] } }

theorem witness_MemoryAndFlash :
    nextMemOp [] [.mend 128 .add .fp32 1 [], .write 0 [] true] = some (.write 0 [] true) ∧
    nextMemOp [] [.fetch 0 0xF] = some (.fetch 0 0xF) ∧ nextMend [] [.fetch 128 1, .mend 0 .max .bf16 (1#4 <<< 3) []] = some (.mend 0 .max .bf16 (1#4 <<< 3) []) ∧
    (let r := dmaRead 32 0 .needle
     let s := memcState [r] [] [(0, List.replicate 15 2)]
     s.req 1 = some r ∧ s.ctrlOf 0 = 0 ∧ (s.ctrl 0).bucketed 1 = false ∧ (SMap.get [] (s.ctrl 0).buckets (s.dramBank 0)).length < 16 ∧
     s.ctrlCheck r = none ∧ sectorsOf r.op.offsets &&& s.poisonMask 0 = 0 ∧ r.agent.core = some 0 ∧
     SMap.get [] ((memcState [r] [.fetch 0 1] [(5, [1])]).ctrl 0).buckets 5 = [1]) ∧
    (let r := dmaRead 64 tier3Base .flash
     let s := flashState r
     s.req 1 = some r ∧ s.turnOf r = true ∧ s.flashCheck r = none) ∧
    (let s := memcState [] [] []
     (s.locOf 96).isSome ∧ s.homeOf 96 = 0 ∧ s.reloadAt 96 = none) ∧
    (let x : Repair := { stripe := 0, len := 64, source := 0, copy := 0, tag := 0, left := [], data := [], failed := false }
     let src : ReloadSource := { base := 0, len := 2097152, copies := [(false, tier3Base)] }
     x.copyAddr src = some (false, tier3Base)) := by
  and_intros <;> decide

theorem witness_MemoryAndFlash_write : (let r : Req := { reqOf (.write pageBytes) .normal .flash with agent := .dma 0 1, addr := tier3Base }
     let s := flashState r
     s.req 1 = some r ∧ pageBytes.length = 16384 ∧ s.turnOf r = true ∧ s.flashCheck r = none) := by
  refine ⟨rfl, by simp [pageBytes], rfl, rfl⟩
/-! Bundles and translation. -/

def bundleState (y z : BundleDir) (x : Bundle := { trained := true }) : State :=
  { links := { bundles := [(20, { x with d0 := y, d1 := z })] } }

theorem witness_Links :
    (let s := bundleState { expected := 511, nextSeq := 511, oldest := 256 } {}
     let y := (s.bundle 20).dir false
     (s.bundle 20).trained = true ∧ (s.bundle 20).retraining = false ∧ y.width ≠ 2 ∧ (511 : BitVec 9).toNat = y.expected ∧ y.expected = y.nextSeq ∧
     y.unacked = 255 ∧ y.oldest < 512) ∧
    (List.replicate 48 (0xFF : Byte)).length ≤ 48 ∧
    (let s := bundleState { replays := 8 } {}
     8 ≤ (s.bundle 20).d0.replays ∧ (s.bundle 20).d0.width ≠ 2) ∧
    (let s := bundleState {} {} { trained := true, retraining := true }
     (s.bundle 20).retraining = true ∧ s.links.darnMap = []) ∧
    (let p : ArbId := .tile 639
     (3 : Fin 64).val < (arbInfo (arbKey p)).2.1 ∧ (s4.arb (arbKey p)).cutoff.getLsbD 3 = false ∧ SMap.get 0 (s4.arb (arbKey p)).lastCut 3 = 0) := by
  and_intros <;> decide

/-- A format of one level, and a context that uses it or translates by ATS. -/
def format1 : FormatDesc := { valid := true, levels := 1, index := [(12, 9)], writable := 1, user := 0xFF, accessed := 0xFF, dirty := 0xFF, nx := 0xFF, paLow := 12, paHigh := 51 }

def row1 (state : RowState) (dma : Option (Nat × Nat)) (pin : Option PinWalk) : XRow :=
  { dma, pin, ctx := 0x400, va := 0x1FFFFF, write := true, state, asked := false, skip := 0 }

def pin1 : PinWalk := { op := 1, start := 0, last := 0x1FF000, leaves := [], failed := none }

def xlatState (ats : Bool) (r : XRow) (p : PriState) : State :=
  { cores := [(0, { core4 with dmaQ := [dmaEntry 1 0 (.desc fillDesc)] })],
    xlat := { ctxs := [(0, { gen := 1, state := 1, ats, root := 0 })], formats := [(0, format1)], rows := [(0, some r)], nextRow := 1, pri := [(0, p)] } }

def req7 (cancelled : Bool) : PageReq := { idx := 7, row := 0, ctx := 0x400, cancelled }

theorem witness_TranslationsAndPages :
    (let r := row1 .translate (some (0, 1)) none
     let s := xlatState false r {}
     s.row 0 = some r ∧ (s.ctxById 0x400).isSome ∧ s.canonical 0x400 r.va = true ∧ format1 = SMap.get {} s.xlat.formats 0 ∧
     s.ownWindow (8 * bitsOf r.va 12 9) = none ∧ (7 : DWord).getLsbD format1.present = true ∧ format1.userOpen 7 = true ∧
     format1.allowsWrite 7 = true ∧ s.meetsWindow 0 4096 = false) ∧
    (let r := row1 .translate (some (0, 1)) none
     let s := xlatState true r { enabled := true, alloc := 1 }
     s.row 0 = some r ∧ (s.ctxById 0x400).map (·.ats) = some true ∧ r.skip = 0 ∧ r.asked = false ∧ (s.pri 0).enabled = true ∧ (s.pri 0).stopped = false) ∧
    (let r := row1 .waitSlot (some (0, 1)) none
     let s := xlatState true r { enabled := true, alloc := 1 }
     s.row 0 = some r ∧ (s.ctxById 0x400).map (·.fn) = some 0 ∧ (s.pri 0).busy.length < (s.pri 0).alloc) ∧
    (let r := row1 .waitPri none (some pin1)
     let s := xlatState true r { enabled := true, alloc := 1, busy := [req7 false] }
     s.row 0 = some r ∧ ((s.pri 0).busy.find? fun y => y.idx == 7) = some (req7 false) ∧ (req7 false).row = 0) ∧
    (let r := row1 .waitPri (some (0, 1)) none
     let s := xlatState true r { enabled := true, alloc := 1, busy := [req7 false] }
     s.row 0 = some r ∧ ((s.core 0).dmaQ.find? fun y => y.uid == 1) = some (dmaEntry 1 0 (.desc fillDesc))) := by
  and_intros <;> decide

theorem witness_InvalidationsAndTimeouts :
    (let s := xlatState true (row1 .done none none) { inval := [{ pasid := 0, every := false, addr := 0, size := 4096, upto := 1 }] }
     0x400 ∈ s.invalTargets 0 0 false ∧ 0x400 ∈ s.invalTargets 0 0xFFFFF true ∧
     (s.pri 0).inval = [{ pasid := 0, every := false, addr := 0, size := 4096, upto := 1 }] ∧ s.invalDrained (s.invalTargets 0 0 false) 1 = true) ∧
    (homeState (reqOf loadOp .normal .host) {}).req 1 = some (reqOf loadOp .normal .host) := by
  and_intros <;> decide
/-! Commands of the mailboxes. -/

/-- Bytes of fields: (width, value). -/
def fieldsOf (l : List (Nat × Nat)) : List Byte := l.flatMap fun e => leBytes e.1 e.2

def cmdOf (opcode : Nat) (payload : List Byte) (role : Nat := 0) (mbx : Nat := 0) : Cmd :=
  { mbx, opcode, seq := 1, notify := false, token := 0, role, payload }

/-- The command is in progress. -/
def during (s : State) (c : Cmd) : State := { s with valac := { s.valac with cur := some c } }

/-- Mailbox 0 is BUSY with a command of sequence number 1 and no payload. -/
def posted (opcode : Nat) (s : State) : State :=
  { s with sys := { s.sys with state := 2, valacUp := true },
           valac := { s.valac with mailboxes := [(0, { state := 1, doorbell := 1, buffer := SMap.putBytes [] 0 (leBytes 2 opcode ++ leBytes 2 1) })] } }

theorem witness_DoorbellsAndAcceptance :
    (let s : State := { sys := { valacUp := true }, host := { vfEnable := true, numVfs := 64 } }
     mbxFn 0 = some 0 ∧ mbxFn 65 = some 64 ∧ s.fnEnabled 64 = true ∧ (s.mbx 65).state = 0) ∧
    (let s := posted 0x0FFF {}
     s.sys.valacUp = true ∧ s.valac.cur = none ∧ s.nextMbx = some 0 ∧ (s.readCmd 0).seq = (s.mbx 0).doorbell ∧ cmdInfo (s.readCmd 0).opcode = none) ∧
    (let s := posted 0x0806 {}
     s.nextMbx = some 0 ∧ (cmdInfo (s.readCmd 0).opcode).map (fun i => s.notPermitted (s.readCmd 0) i 0) = some true) ∧
    (let s := { posted 0x0600 {} with fw := { recovery := true } }
     s.nextMbx = some 0 ∧ (cmdInfo (s.readCmd 0).opcode).map (fun i => (s.notPermitted (s.readCmd 0) i 0, s.notReady (s.readCmd 0) i)) = some (false, true)) ∧
    (let s := posted 0x0001 {}
     let h := SMap.getBytes (s.mbx 0).buffer 0 32
     fieldAt h 4 4 ≤ 4064 ∧ fieldAt h 9 1 ≤ 1 ∧ zeroAt h 10 6 = true ∧ zeroAt h 24 8 = true ∧ s.nextMbx = some 0 ∧
     (cmdInfo (s.readCmd 0).opcode).map (fun i => (s.notPermitted (s.readCmd 0) i 0, s.notReady (s.readCmd 0) i)) = some (false, false)) := by
  and_intros <;> decide

/-- Partition 63 with the last core of the grid, bound to VF 64. -/
def part63 (state : PartState := .running) : Part :=
  { state, be := false, fn := 64, slice := 2000, mask := 0xFFFF, pstepMin := 0, resize := none, op := none, destroying := false, refused := 0,
    overruns := 0, lastLc := 0, turn := none, turnFrom := none, undeliverable := [List.replicate 32 7] }

def withPart (x : Part) : State :=
  { rects := [(63, some ⟨39, 15, 1, 1⟩)], work := { parts := [(63, some x)], queues := [(0, some { queue16 .active with part := 63 })] },
    sys := { state := 2, valacUp := true } }

theorem witness_QueriesAnswer :
    (during {} (cmdOf 0x0000 [])).doing (cmdOf 0x0000 []) 0x0000 0 [] ∧ (during {} (cmdOf 0x0001 [])).doing (cmdOf 0x0001 []) 0x0001 0 [] ∧
    (during {} (cmdOf 0x0002 [1, 2, 3])).doing (cmdOf 0x0002 [1, 2, 3]) 0x0002 3 [] ∧
    (during {} (cmdOf 0x0501 [])).doing (cmdOf 0x0501 []) 0x0501 0 [] ∧ (during {} (cmdOf 0x0502 [])).doing (cmdOf 0x0502 []) 0x0502 0 [] ∧
    (during {} (cmdOf 0x0603 [])).doing (cmdOf 0x0603 []) 0x0603 0 [] ∧ (during {} (cmdOf 0x0704 [])).doing (cmdOf 0x0704 []) 0x0704 0 [] ∧
    (let c := cmdOf 0x0106 [63, 0, 0, 0]
     let s := during (withPart (part63)) c
     s.doing c 0x0106 4 [(1, 3)] ∧ s.part (c.arg 0 1) = some part63 ∧ s.rect (c.arg 0 1) = some ⟨39, 15, 1, 1⟩ ∧ s.foreignTo c (c.arg 0 1) = false ∧
     s.partBusy (c.arg 0 1) = false) ∧
    (let c := cmdOf 0x0305 [0, 0, 0, 0] 1 65
     let s := during (withPart (part63)) c
     s.doing c 0x0305 4 [(2, 2)] ∧ (s.queue (c.arg 0 2)).isSome ∧ s.foreignTo c 63 = false ∧ s.locked (.queue (c.arg 0 2)) = false) ∧
    (during {} (cmdOf 0x0807 [])).doing (cmdOf 0x0807 []) 0x0807 0 [] ∧ (during {} (cmdOf 0x0808 (leBytes 8 0))).doing (cmdOf 0x0808 (leBytes 8 0)) 0x0808 8 [] ∧
    (let c := cmdOf 0x0902 (fieldsOf [(8, 0), (2, 63), (6, 0)])
     (during {} c).doing c 0x0902 16 [(10, 6)]) ∧
    (during {} (cmdOf 0x0903 [])).doing (cmdOf 0x0903 []) 0x0903 0 [] ∧
    (let c := cmdOf 0x0900 (fieldsOf [(8, 0x01079010FC), (1, 4), (1, 0), (2, 1), (4, 0)])
     (during {} c).doing c 0x0900 16 [(9, 1), (12, 4)] ∧ c.arg 0 8 < 2 ^ 40 ∧ c.arg 0 8 % 4 = 0 ∧ c.arg 8 1 = 4 ∧ c.arg 10 2 = 1 ∧
     icsBlock (c.arg 0 8) = (.half 15, 0x1000 + 4 * 63)) ∧
    (let c := cmdOf 0x0901 (fieldsOf [(8, 0x01008000F8), (1, 4), (1, 0), (2, 1), (4, 0), (8, 1)])
     (during {} c).doing c 0x0901 24 [(9, 1), (12, 4)] ∧ icsBlock (c.arg 0 8) = (.half 0, 0xF8) ∧ c.arg 16 8 = 1) := by
  and_intros <;> decide
/-- A format of four levels with granules of 4 KiB. -/
def format4 : List Byte :=
  fieldsOf [(1, 4), (1, 0), (1, 0), (1, 0), (1, 39), (1, 9), (1, 30), (1, 9), (1, 21), (1, 9), (1, 12), (1, 9), (2, 0), (1, 0), (1, 1), (1, 2), (1, 5),
    (1, 6), (1, 63), (1, 12), (1, 51), (1, 0xFF), (1, 0xFF), (1, 0xFF), (1, 0xFF), (38, 0)]

def setC (opcode : Nat) (l : List (Nat × Nat)) (role : Nat := 0) (mbx : Nat := 0) : Cmd := cmdOf opcode (fieldsOf l) role mbx

theorem witness_Settings_values :
    (let c := setC 0x0500 [(1, 2), (1, 127), (2, 0)]
     let s := during {} c
     s.doing c 0x0500 4 [(2, 2)] ∧ c.arg 0 1 ≤ 2 ∧ c.arg 1 1 ≤ 127 ∧ s.twin.state ≠ .paired ∧ s.committing = false) ∧
    (let c := setC 0x0600 [(4, 1500)]
     (during {} c).doing c 0x0600 4 [] ∧ 1500 ≤ c.arg 0 4 ∧ c.arg 0 4 ≤ 6800) ∧
    (let c := setC 0x0601 [(2, 200), (2, 0)] 2 66
     (during {} c).doing c 0x0601 4 [(2, 2)] ∧ 5 ≤ c.arg 0 2 ∧ c.arg 0 2 ≤ 200 ∧ c.role = 2) ∧
    (let c := setC 0x0602 [(1, 63), (1, 15), (2, 0)]
     let s := during (withPart part63) c
     s.doing c 0x0602 4 [(2, 2)] ∧ s.part (c.arg 0 1) = some part63 ∧ c.arg 1 1 ≤ 15 ∧ s.partBusy (c.arg 0 1) = false) ∧
    (let c := setC 0x0240 [(2, 1000), (2, 0), (4, 60000)]
     (during {} c).doing c 0x0240 8 [(2, 2)] ∧ c.arg 0 2 ≤ 1000 ∧ c.arg 4 4 ≤ 60000) ∧
    (let c := setC 0x0242 [(1, 168), (3, 0)]
     (during {} c).doing c 0x0242 4 [(1, 3)] ∧ 2 ≤ c.arg 0 1 ∧ c.arg 0 1 ≤ 168) ∧
    (let c := setC 0x0112 [(2, 0x400), (2, 0), (4, 0)]
     let s := during s4 c
     let s1 : State := { s with xlat := { ctxs := [(0, ctx4)] } }
     s1.doing c 0x0112 8 [(2, 2)] ∧ s1.ctxById (c.arg 0 2) = some ctx4 ∧ s1.foreignTo c 0 = false ∧ s1.locked (.ctx (c.arg 0 2)) = false) ∧
    (let c := setC 0x0202 [(1, 15), (1, 63), (6, 0), (8, 1)]
     let s := during (withPart part63) c
     s.doing c 0x0202 16 [(2, 6)] ∧ c.arg 0 1 ≤ 15 ∧ (s.part (c.arg 1 1)).isSome ∧ (∀ l ∈ s.work.launches, l.running = false)) ∧
    (let c := setC 0x0221 [(1, 63), (3, 0)]
     let x : ReloadSource := { base := 0, len := 2097152, copies := [(false, tier3Base)] }
     let s := { during {} c with store := { store0 with reloads := [(63, some x)] } }
     s.doing c 0x0221 4 [(1, 3)] ∧ SMap.get none s.store.reloads (c.arg 0 1) = some x) ∧
    (let c := setC 0x0220 [(1, 63), (7, 0), (8, 0), (8, 2097152), (1, 1), (1, 0), (6, 0), (8, tier3Base), (8, 0)]
     let s := { during {} c with store := store0 }
     s.doing c 0x0220 48 [(1, 7), (0x1A, 6)] ∧ c.arg 0 1 ≤ 63 ∧ c.arg 8 8 % 2097152 = 0 ∧ c.arg 0x10 8 % 2097152 = 0 ∧ addrClass (c.arg 8 8) ≠ .tier3 ∧
     inOneTier (c.arg 8 8) (c.arg 0x10 8) = true ∧ s.allMapped (c.arg 8 8) (c.arg 0x10 8) = true ∧ inOneTier (c.arg 8 8) 2097152 = true ∧
     s.allMapped (c.arg 8 8) 2097152 = true ∧ c.arg 0x18 1 = 1 ∧ c.arg 0x19 1 = 0 ∧ c.arg 0x20 8 % 16384 = 0 ∧ addrClass (c.arg 0x20 8) = .tier3 ∧
     inOneTier (c.arg 0x20 8) (c.arg 0x10 8) = true ∧ SMap.get none s.store.reloads (c.arg 0 1) = none) ∧
    (let c := cmdOf 0x0210 (fieldsOf [(1, 7), (1, 0), (6, 0)] ++ format4)
     let s := during {} c
     s.doing c 0x0210 72 [(2, 6)] ∧ c.arg 0 1 ≤ 7 ∧ c.arg 1 1 = 0 ∧ firstBad (badFormat ((c.payload.drop 8).take 64)) = none ∧ s.xlat.ctxs = []) := by
  and_intros <;> decide

theorem witness_Settings_idle (q : Nat) : (during (withPart part63) (setC 0x0202 [(1, 15), (1, 63), (6, 0), (8, 1)])).partBusy q = false := by
  by_cases h : q = 63
  · subst h; decide
  · simp [State.partBusy, State.locked, State.part, during, withPart, SMap.get, Ne.symm h]

theorem witness_Settings_bounded :
    (let c := setC 0x0802 [(1, 5), (3, 0)]
     let s := { during {} c with fw := { running := { secver := 5 }, floor := 5 } }
     s.doing c 0x0802 4 [(1, 3)] ∧ s.fw.floor ≤ c.arg 0 1 ∧ c.arg 0 1 ≤ s.fw.running.secver ∧ c.arg 0 1 = s.fw.floor) ∧
    (let c := setC 0x0802 [(1, 5), (3, 0)]
     let s := { during {} c with fw := { running := { secver := 5 }, floor := 4, used := [(0, 255)] } }
     s.doing c 0x0802 4 [(1, 3)] ∧ s.fw.floor ≤ c.arg 0 1 ∧ c.arg 0 1 ≠ s.fw.floor ∧ 255 ≤ SMap.get 0 s.fw.used 0) ∧
    (let c := setC 0x0803 [(64, 7)]
     let s := during {} c
     s.doing c 0x0803 64 [] ∧ s.fw.pairId ≠ some c.payload ∧ SMap.get 0 s.fw.used 1 < 64) ∧
    (let c := setC 0x0806 [(16, 7), (1, 128), (15, 0), (32, 0)] 2 66
     let s := during {} c
     s.doing c 0x0806 64 [(0x11, 15)] ∧ c.arg 0x10 1 ≤ 128 ∧ (zeroAt c.payload 0 16 = true → c.arg 0x10 1 = 0) ∧ SMap.get 0 s.fw.used 4 < 8) := by
  and_intros <;> decide

theorem witness_Settings_amended :
    (let c := setC 0x0804 [(2, 1), (2, 0), (4, 2734559232)]
     let s := { during {} c with fw := { used := [(2, 31)] } }
     s.doing c 0x0804 8 [(2, 2)] ∧ c.arg 0 2 = 1 ∧ bitsOf (c.arg 4 4) 27 5 ≤ 20 ∧ bitsOf (c.arg 4 4) 18 8 ≤ 191 ∧ bitsOf (c.arg 4 4) 13 5 ≤ 16 ∧
     c.arg 4 4 % 8192 = 4096 ∧ s.fw.darn = [] ∧ SMap.get 0 s.fw.used 2 < 32) ∧
    (let c := setC 0x0805 [(2, 1), (1, 39), (1, 15)]
     let s := { during {} c with fw := { used := [(3, 15)] } }
     s.doing c 0x0805 4 [] ∧ c.arg 0 2 = 1 ∧ c.arg 2 1 ≤ 39 ∧ c.arg 3 1 ≤ 15 ∧ (coreAt (c.arg 2 1) (c.arg 3 1)).map (·.val) = some 639 ∧
     639 ∉ s.fw.patch ∧ SMap.get 0 s.fw.used 3 < 16) ∧
    (let c := setC 0x0800 [(4, 67108863), (4, 1), (1, 7)]
     let s := { during {} c with fw := { claim := some 0, claimIdle := 0 }, time := { beats := 60000000 } }
     s.doing c 0x0800 9 [] ∧ 1 = c.arg 4 4 ∧ c.arg 0 4 + 1 ≤ 67108864 ∧ s.fw.claim = some c.mbx ∧ c.arg 0 4 ≠ 0 ∧ s.fw.claim.isSome ∧
     s.fw.claimIdle + 60000000 ≤ s.time.beats ∧ s.fw.recovery = false ∧ s.log.dropped = 0 ∧ s.log.flash.length + s.log.held.length ≤ 262144) := by
  and_intros <;> decide
/-! Partitions, contexts, memory ownership, queues. -/

def ctxOf63 : Ctx := { gen := 1, state := 1, partition := 63, fn := 64, pasid := 7 }

/-- Partition 63, which command `c` names, with context 0x400. -/
def partState (x : Part) (c : Cmd) : State := { during (withPart x) c with xlat := { ctxs := [(0, ctxOf63)] } }

def resize0 : Resize := { rect := ⟨38, 15, 1, 1⟩, slice := 2000, mask := 1, op := 0, inForce := false, removed := [], ways := 0 }

theorem witness_Partitions :
    (let c := setC 0x0100 [(1, 63), (1, 64), (1, 39), (1, 15), (1, 1), (1, 1), (1, 1), (1, 0), (4, 100000), (2, 0x8000), (2, 0)]
     let s := during {} c
     s.doing c 0x0100 16 [(7, 1), (14, 2)] ∧ c.arg 0 1 = 63 ∧ c.arg 1 1 ≤ 64 ∧ s.rectFits c ∧ s.part 63 = none ∧ s.rectTaken 63 c.rect = false ∧
     s.work.parts = [] ∧ s.locked (.part 63) = false) ∧
    (let c := setC 0x0101 [(1, 63), (1, 64), (1, 38), (1, 15), (1, 1), (1, 1), (1, 0), (1, 0), (4, 0), (2, 1), (2, 0)]
     let s := { partState part63 c with cores := [(639, { core4 with partition := 63 })] }
     s.doing c 0x0101 16 [(7, 1), (14, 2)] ∧ s.part 63 = some part63 ∧ s.rect 63 = some ⟨39, 15, 1, 1⟩ ∧ s.partBusy 63 = false ∧ s.opsFull c = false ∧
     c.arg 1 1 = part63.fn ∧ c.arg 6 1 = bit part63.be ∧ s.rectFits c ∧ s.rectTaken 63 c.rect = false ∧ s.kernelRuns 63 = true ∧
     ∃ k ∈ (Rect.mk 39 15 1 1).cores, k ∉ c.rect.cores) ∧
    (let c := setC 0x0102 [(1, 63), (3, 0)]
     (partState part63 c).doing c 0x0102 4 [(1, 3)] ∧ part63.state = .running) ∧
    (let s := { partState { part63 with resize := some resize0 } (cmdOf 0 []) with valac := {} }
     s.part 63 = some { part63 with resize := some resize0 } ∧ s.rect 63 = some ⟨39, 15, 1, 1⟩ ∧ s.kernelRuns 63 = false ∧ s.rects.length = 1) ∧
    (let s := partState (part63 .quiescing) (cmdOf 0 [])
     s.part 63 = some (part63 .quiescing) ∧ s.partQuiet 63 = true) ∧
    (let c := setC 0x0103 [(1, 63), (3, 0)]
     let s := partState (part63 .quiesced) c
     s.doing c 0x0103 4 [(1, 3)] ∧ s.part 63 = some (part63 .quiesced) ∧ s.partBusy 63 = false ∧ s.committing = false) := by
  and_intros <;> decide

theorem witness_PartitionResets :
    (let c := setC 0x0104 [(1, 63), (3, 0)]
     let s := partState (part63 .quiesced) c
     s.doing c 0x0104 4 [(1, 3)] ∧ s.part (c.arg 0 1) = some (part63 .quiesced) ∧ s.partBusy 63 = false ∧ s.opsFull c = false) ∧
    (let c := setC 0x0105 [(1, 63), (3, 0)]
     (partState (part63 .quiesced) c).doing c 0x0105 4 [(1, 3)]) ∧
    (let s := partState (part63 .resetting) (setC 0x0104 [(1, 63), (3, 0)])
     s.part 63 = some (part63 .resetting) ∧ s.resetReady 63 = true) ∧
    (let x := { part63 .resetting with destroying := true }
     let s := partState x (setC 0x0105 [(1, 63), (3, 0)])
     s.part 63 = some x ∧ s.resetReady 63 = true) ∧
    (let s := { partState part63 (setC 0x0104 [(1, 63), (3, 0)]) with host := { vfEnable := true, numVfs := 64 } }
     s.partOfFn 63 = none ∧ s.part 63 = some part63 ∧ s.host.vfEnable = true) := by
  and_intros <;> decide

theorem witness_PartitionResets_swept :
    let s := partState { part63 .resetting with destroying := true } (setC 0x0105 [(1, 63), (3, 0)])
    ((s.emptyPart 63).sweepWaysAll 63 0xFFFF).waysSwept 63 0xFFFF = true := by decide +kernel

/-- A leaf of context 0x400. -/
def leaf63 : TlbEntry := { leaf 0 with ctx := 0x400, size := 4096 }
def window63 : Window := { va := 0, len := 4096, writable := false, stale := false, leaves := [leaf63] }

def pinOp (failed : Option (Nat × Nat)) : State :=
  let s := partState part63 (cmdOf 0 [])
  { s with xlat := { s.xlat with rows := [(0, some (row1 .done none (some { pin1 with op := 5, failed })))], nextRow := 1 },
           valac := { ops := [⟨5, setC 0x0211 [(2, 0x400), (1, 0), (5, 0), (8, 0), (8, 4096)], 0⟩] } }

theorem witness_ContextsAndWindows :
    (let c := setC 0x0110 [(1, 63), (1, 64), (1, 1), (1, 0), (4, 0xFFFFF), (8, 0), (8, 0x0201), (1, 2), (3, 0), (4, 0)] 1 65
     let s := partState part63 c
     s.doing c 0x0110 32 [(0x19, 3)] ∧ s.part (c.arg 0 1) = some part63 ∧ s.foreignTo c 63 = false ∧ s.partBusy 63 = false ∧ c.arg 1 1 = part63.fn ∧
     c.arg 1 1 = c.mbx - 1 ∧ c.arg 2 1 = 1 ∧ c.arg 4 4 < 2 ^ 20 ∧ (∀ e ∈ s.xlat.ctxs, e.2.state ≠ 0 → e.2.fn = 64 → e.2.pasid ≠ c.arg 4 4) ∧
     c.arg 0x18 1 ≤ 2 ∧ (∀ k, k < 8 → c.arg (0x10 + k) 1 ≤ 2) ∧ s.slotFree 1 = true ∧ ∀ j, j < 1 → s.slotFree j = false) ∧
    (let c := setC 0x0110 [(1, 63), (1, 0), (1, 0), (1, 7), (4, 0), (8, 0), (8, 0), (1, 0), (3, 0), (4, 0)]
     let s0 := partState part63 c
     let s := { s0 with xlat := { s0.xlat with formats := [(7, format1)] } }
     s.doing c 0x0110 32 [(0x19, 3)] ∧ c.arg 2 1 = 0 ∧ c.arg 3 1 ≤ 7 ∧ (s.format (c.arg 3 1)).valid = true ∧ s.slotFree 1 = true) ∧
    (let c := setC 0x0111 [(2, 0x400), (2, 0)]
     let s := { partState part63 c with work := { parts := [(63, some part63)] } }
     s.doing c 0x0111 4 [(2, 2)] ∧ s.ctxById (c.arg 0 2) = some ctxOf63 ∧ s.foreignTo c 63 = false ∧ s.locked (.ctx 0x400) = false ∧
     s.work.launches = [] ∧ s.queuesOf 0x400 = [] ∧ s.coresOf 0x400 = []) ∧
    (let c := setC 0x0211 [(2, 0x400), (1, 1), (5, 0), (8, 0xFFFFFFFFFFFFF000), (8, 4096)]
     let s := partState part63 c
     s.doing c 0x0211 24 [(3, 5)] ∧ c.arg 2 1 ≤ 1 ∧ c.arg 8 8 % s.granuleOf ctxOf63 = 0 ∧ c.arg 0x10 8 % s.granuleOf ctxOf63 = 0 ∧ c.arg 0x10 8 ≠ 0 ∧
     c.arg 8 8 + c.arg 0x10 8 ≤ 2 ^ 64 ∧ ctxOf63.windows = [] ∧ s.windowsFull 0x400 = false ∧ s.opsFull c = false) ∧
    (let c := setC 0x0212 [(2, 0x400), (6, 0), (8, 0)]
     let s0 := during (withPart part63) c
     let x := { ctxOf63 with windows := [window63] }
     let s : State := { s0 with xlat := { ctxs := [(0, x)] } }
     s.doing c 0x0212 16 [(2, 6)] ∧ s.ctxById (c.arg 0 2) = some x ∧ x.windows.find? (fun y => y.va == c.arg 8 8) = some window63 ∧
     s.ctxRuns 0x400 = false) := by
  and_intros <;> decide

theorem witness_ContextsAndWindows_more :
    (let c := setC 0x0213 [(2, 0x400), (6, 0), (8, 0), (8, 4096)]
     let s := partState part63 c
     s.doing c 0x0213 24 [(2, 6)] ∧ c.arg 8 8 + c.arg 0x10 8 ≤ 2 ^ 64 ∧ c.begun = none ∧
     (s.countInval.invalidateCtx 0x400 0 4096).invalDrained [0x400] (s.countInval.invalidateCtx 0x400 0 4096).fab.nextReq = true ∧
     s.invalDrained [0x400] 9 = true) ∧
    (let c := setC 0x0213 [(2, 0x400), (6, 0), (8, 0), (8, 4096)]
     let s := { partState part63 c with cores := [(0, { core4 with wb := [entry0] })] }
     (s.countInval.invalidateCtx 0x400 0 4096).invalDrained [0x400] (s.countInval.invalidateCtx 0x400 0 4096).fab.nextReq = false) ∧
    ((pinOp none).pinEnded.isSome ∧ (pinOp (some (3, 0))).pinEnded.isSome ∧ (pinOp none).windowsFull 0x400 = false ∧
     (pinOp none).pinnedLeaves + pin1.leaves.length ≤ 1048576) := by
  and_intros <;> decide
theorem witness_RegionsAndTags :
    (let c := setC 0x0200 [(1, 1), (1, 63), (1, 2), (1, 0), (2, 8191), (2, 0), (4, 1), (4, 0), (8, 0x010000000000), (8, 0x1001), (8, 0)]
     let s := partState (part63 .quiesced) c
     s.doing c 0x0200 40 [(3, 1), (6, 2)] ∧ firstBad (s.regionBad c) = none ∧ s.regionRule c.regionNo c.region = 0 ∧
     s.locked (.region c.regionNo) = false ∧ c.arg 0 1 = 1 ∧ s.partBusy (c.arg 1 1) = false ∧ s.opsFull c = false) ∧
    (let c := setC 0x0201 [(8, tier3Base), (4, 1), (2, 0x403F), (2, 0)]
     let s := partState (part63 .quiesced) c
     s.doing c 0x0201 16 [(14, 2)] ∧ firstBad (s.tagBad c) = none ∧ s.tagRule c = 0 ∧ bitsOf (c.arg 12 2) 14 2 = 1 ∧ s.partBusy (c.arg 12 1) = false) ∧
    (let c := setC 0x0230 [(8, tier3Base), (8, 16384)]
     let s := partState part63 c
     s.doing c 0x0230 16 [] ∧ c.arg 0 8 % 16384 = 0 ∧ addrClass (c.arg 0 8) = .tier3 ∧ s.trimForeign c (c.arg 0 8) (c.arg 8 8) = false ∧
     c.arg 8 8 % 16384 = 0 ∧ c.arg 0 8 + c.arg 8 8 ≤ tier3Top ∧ s.store.reloads = []) ∧
    (let c := setC 0x0241 [(1, 8), (3, 0)]
     let s := during {} c
     s.doing c 0x0241 4 [(1, 3)] ∧ c.arg 0 1 ≤ 8 ∧ s.opOf 0x0241 = none ∧ s.work.parts = []) ∧
    (let c := setC 0x0A00 [(1, 39), (1, 15), (1, 1), (1, 1)]
     let s := during {} c
     s.doing c 0x0A00 4 [] ∧ c.arg 0 1 + c.arg 2 1 ≤ 40 ∧ c.arg 1 1 + c.arg 3 1 ≤ 16 ∧ c.arg 2 1 ≠ 0 ∧ c.arg 3 1 ≠ 0 ∧ s.rects = []) ∧
    (let c := setC 0x0801 [(4, 0)]
     let s := { during {} c with fw := { claim := some 0 } }
     s.doing c 0x0801 4 [] ∧ c.arg 0 4 = stagedAt s.fw.staged 0xC 4 ∧ s.fw.claim = some c.mbx ∧ s.committing = false ∧ s.work.parts = []) ∧
    (∀ e ∈ [(0x0200, [(1, 1), (1, 63), (1, 1), (1, 0), (2, 0), (2, 0), (4, 0), (4, 0), (8, 0), (8, 0), (8, 0)]), (0x0230, [(8, tier3Base), (8, 16384)]),
        (0x0A00, [(1, 0), (1, 0), (1, 1), (1, 1)])],
      ({ valac := { ops := [⟨5, setC e.1 e.2, 0⟩] } } : State).opOf e.1 = some ⟨5, setC e.1 e.2, 0⟩) := by
  and_intros <;> decide

/-- A launch of queue 0, consumed, at its place. -/
def launch1 (desc : List Byte) (phase : Phase) : Launch :=
  { id := 0, queue := 0, part := 63, ctx := 0x400, desc, phase, kernel := 1, graph := none, eligibleAt := some 0, admittedEnd := none, start := 0,
    energyStart := 0, semOk := false, cores := [639], busy := [], nodes := [], late := false, overlap := false, lost := false, recordsLost := false,
    stop := none, verdict := none, signalled := false, record := none, preramp := none, stamp := 0, admitNo := 0, work0 := 0, peak := 0 }

theorem witness_Queues :
    (let c := setC 0x0300 [(1, 63), (1, 1), (1, 16), (1, 1), (2, 0x400), (2, 0), (8, 4096)] 1 65
     let s := partState part63 c
     s.doing c 0x0300 16 [(6, 2)] ∧ s.part (c.arg 0 1) = some part63 ∧ s.foreignTo c 63 = false ∧ s.partBusy 63 = false ∧ c.arg 1 1 ≤ 1 ∧
     c.arg 2 1 = 16 ∧ c.arg 3 1 ≤ 1 ∧ c.arg 8 8 % 4096 = 0 ∧ s.ctxById (c.arg 4 2) = some ctxOf63 ∧ ctxOf63.partition = 63 ∧
     s.locked (.ctx (c.arg 4 2)) = false ∧ s.queue 1 = none ∧ (∀ k, k < 1 → (s.queue k).isSome) ∧ s.freeIndex 63 = some 1) ∧
    (let c := setC 0x0306 [(1, 63), (1, 0), (1, 4), (1, 0), (2, 31), (2, 0), (8, 4096)] 1 65
     let s := partState part63 c
     s.doing c 0x0306 16 [(1, 1), (6, 2)] ∧ 4 ≤ c.arg 2 1 ∧ c.arg 4 2 < tableSize (c.mbx - 1) ∧ s.cring 0 = none) ∧
    (let c := setC 0x0304 [(1, 63), (1, 0), (2, 63)]
     let s := partState part63 c
     s.doing c 0x0304 4 [(1, 1)] ∧ Nat.min part63.undeliverable.length (c.arg 2 2) = 1 ∧ 1 ≤ c.arg 2 2 ∧ c.arg 2 2 ≤ 63) ∧
    (let c := setC 0x0301 [(2, 0), (2, 0)]
     let s := partState part63 c
     s.doing c 0x0301 4 [(2, 2)] ∧ (s.queue (c.arg 0 2)).isSome ∧ s.foreignTo c 63 = false ∧ s.locked (.queue 0) = false ∧ s.unretired 0 = 0) ∧
    (let c := setC 0x0302 [(2, 0), (2, 0)]
     let s := partState part63 c
     let s1 : State := { s with work := { s.work with launches := [launch1 [] .running] } }
     s.doing c 0x0302 4 [(2, 2)] ∧ s.opsFull c = false ∧ s.queueRuns 0 = false ∧ s1.queueRuns 0 = true ∧ (queue16 .active).state = .active) ∧
    (let c := setC 0x0303 [(2, 0), (2, 0)]
     (during (withQueue .haltedError) c).doing c 0x0303 4 [(2, 2)]) ∧
    (let c := setC 0x0420 [(8, 0)]
     let s := partState part63 c
     let s1 : State := { s with work := { s.work with launches := [launch1 [] .running] } }
     s1.doing c 0x0420 8 [] ∧ (s1.queue (c.arg 0 8 / 2 ^ 52)).isSome ∧ s1.foreignTo c 63 = false ∧ c.arg 0 8 % 2 ^ 20 = 0 ∧
     s1.launch (BitVec.ofNat 64 (c.arg 0 8)) = some (launch1 [] .running)) ∧
    (let c := setC 0x0420 [(8, 7 * 2 ^ 20)]
     let x : Queue := { queue16 .active with tail := 8 }
     let s := during { work := { queues := [(0, some x)] } } c
     s.doing c 0x0420 8 [] ∧ s.launch (BitVec.ofNat 64 (c.arg 0 8)) = none ∧ s.abortCase x (BitVec.ofNat 64 (c.arg 0 8)) = .later) ∧
    (({} : State).ring 64).backlog = [] ∧ (({} : State).ring 64).lost = 0 := by
  and_intros <;> decide
/-! Kernels, graphs and launches. -/

/-- SHAKE256 of 256 zero bytes, 64 bytes of it (FIPS 202; value of an independent implementation). -/
def zeroDigest : List Byte :=
  [250, 209, 176, 202, 41, 96, 251, 21, 62, 249, 231, 231, 116, 129, 121, 134, 73, 108, 240, 77, 246, 15, 65, 152, 251, 209, 121, 200, 134, 52, 211, 232,
   119, 108, 169, 181, 163, 208, 144, 69, 134, 197, 234, 233, 11, 2, 231, 90, 163, 193, 145, 203, 219, 207, 220, 100, 235, 238, 86, 134, 219, 92, 147, 80]

/-- An image of one unit. -/
def image1 : List Byte :=
  fieldsOf [(4, 0x494B3841), (2, 1), (2, 0), (2, 16), (1, 0), (1, 8), (4, 0), (2, 0), (2, 0), (4, 0), (4, 0x100), (4, 8), (4, 0), (4, 0), (4, 0), (4, 0),
    (4, 512), (76, 0)] ++ zeroDigest ++ List.replicate 320 0

theorem test_image_verified : imageStatus image1 512 = 0 := by decide +kernel

/-- The image lies in Tier 1 at address 0. -/
def imageStore : Store := { store0 with mem := image1.zipIdx.filterMap fun e => if e.1 = 0 then none else some (e.2, e.1) }

def registering : Cmd := setC 0x0400 [(2, 0x400), (1, 0), (5, 0), (8, 0), (4, 512), (4, 0)]

def registerState (x : Store) : State :=
  let s := partState part63 (cmdOf 0 [])
  { s with store := x, valac := { ops := [⟨5, registering, 0⟩] } }

theorem witness_image : (registerState imageStore).physBytes 0 512 = image1 := by decide +kernel

/-- A descriptor with fields: offset, width, value. -/
def descOf (l : List (Nat × Nat × Nat)) : List Byte :=
  SMap.getBytes (l.foldl (fun (m : SMap Byte) e => SMap.putBytes m e.1 (leBytes e.2.1 e.2.2)) []) 0 512

/-- Kernel 1 over 16 threads, without a completion ring; of a graph, a node of it. -/
def desc1 (l : List (Nat × Nat × Nat) := []) : List Byte := descOf ([(0, 4, 1), (4, 2, 0xFFFF), (8, 8, 16)] ++ l)

def kernel1 : Kernel :=
  { part := 63, ctx := 0x400, addr := 0, bytes := 512, flags := 0, regs := 16, width := 0, uniforms := 8, tileBytes := 0, meshSlots := 0, entry := 0,
    codeBytes := 8, poolOff := 0, poolBytes := 0, meshOff := 0, rectW := 0, rectH := 0, stride := 0, cycleBound := 0, verified := true, rise := none }

def graph1 (versions : List GraphVersion) : Graph := { part := 63, ctx := 0x400, newest := 1, versions, released := false }

def queue1 : Queue := { queue16 .active with part := 63, be := true, tail := 8 }

/-- A best-effort partition with kernel 1, graph 1 and these launches, while command `c` is in progress. -/
def workState (ls : List Launch) (vs : List GraphVersion := [newVersion 1 [desc1]]) (c : Cmd := cmdOf 0 []) : State :=
  { partState { part63 with be := true } c with
    work := { parts := [(63, some { part63 with be := true })], queues := [(0, some queue1)], kernels := [(1, some kernel1)],
              graphs := [(1, some (graph1 vs))], nextHandle := 2, nextGraph := 2, launches := ls,
              crings := [(0, some { part := 63, log2 := 4, tier1 := true, fn := 64, vector := 0, addr := 0, count := 16, seen := 0 })] },
    time := { state := .locked } }

def graphC (opcode first len : Nat) : Cmd := setC opcode [(4, first), (4, 0), (8, 0), (4, len), (4, 0)]
def graphOps (c : Cmd) (arg : Nat) : State := { workState [] with valac := { ops := [⟨5, c, arg⟩] } }
def storeImage : List Byte := fieldsOf [(4, 0x47504841), (2, 1), (58, 0)] ++ desc1
def patchBytes : List Byte := fieldsOf [(4, 0x47505441), (2, 1), (58, 0), (2, 0), (6, 0)] ++ desc1

theorem witness_KernelsAndGraphs :
    (let s := during (workState []) registering
     s.doing registering 0x0400 24 [(3, 5), (0x14, 4)] ∧ s.ctxById (registering.arg 0 2) = some ctxOf63 ∧ s.foreignTo registering 63 = false ∧
     s.locked (.ctx 0x400) = false ∧ s.opsFull registering = false ∧ registering.arg 2 1 = 0 ∧ registering.role ≠ 1 ∧ registering.arg 8 8 % 256 = 0 ∧
     registering.arg 0x10 4 % 256 = 0 ∧ registering.arg 0x10 4 ≠ 0 ∧ registering.arg 0x10 4 ≤ 2 ^ 26) ∧
    (let c := graphC 0x0410 0x400 576
     let s := during (workState []) c
     s.doing c 0x0410 24 [(2, 6), (0x14, 4)] ∧ 64 ≤ c.arg 0x10 4 ∧ s.graphCount < 1024) ∧
    (let s := registerState store0
     s.opOf 0x0400 = some ⟨5, registering, 0⟩ ∧ s.ctxById (registering.arg 0 2) = some ctxOf63 ∧ s.imagePlace registering 63 .broken = .range 0 ∧
     registering.arg 0x10 4 = 512 ∧ imageStatus [] 512 ≠ 0) ∧
    (let c := setC 0x0401 [(4, 1)]
     let s := during (workState []) c
     s.doing c 0x0401 4 [] ∧ s.kernel (c.arg 0 4) = some kernel1 ∧ s.foreignTo c 63 = false ∧ s.kernelUsed (c.arg 0 4) = false) ∧
    (let c := graphC 0x0411 1 584
     let s := during (workState []) c
     s.doing c 0x0411 24 [(4, 4), (0x14, 4)] ∧ s.graph 1 = some (graph1 [newVersion 1 [desc1]]) ∧ s.locked (.graph 1) = false ∧
     (graph1 [newVersion 1 [desc1]]).kept.length < 8) ∧
    (let c := setC 0x0412 [(4, 1)]
     (during (workState []) c).doing c 0x0412 4 []) := by
  and_intros <;> decide +kernel

theorem witness_KernelsAndGraphs_checked :
    (let s := graphOps (graphC 0x0411 1 584) 1
     (graphC 0x0411 1 584).opcode = 0x0411 ∧
     (s.valac.ops.find? fun y => y.cmd.opcode == 0x0410 || y.cmd.opcode == 0x0411) = some ⟨5, graphC 0x0411 1 584, 1⟩ ∧
     s.ctxById 0x400 = some ctxOf63 ∧ s.valacRead 0x400 63 0 584 (.data patchBytes) = .data patchBytes ∧ patchBytes.length = (graphC 0x0411 1 584).arg 0x10 4 ∧
     patchImage patchBytes = some [(0, desc1)] ∧ s.graphStatus 63 [desc1] s.nodeCount = 0) ∧
    (let s := graphOps (graphC 0x0410 0x400 576) 0
     s.valacRead 0x400 63 0 576 (.data storeImage) = .data storeImage ∧ storeImage.length = (graphC 0x0410 0x400 576).arg 0x10 4 ∧ graphImage storeImage = some [desc1] ∧
     s.graphStatus 63 [desc1] s.nodeCount = 0) := by
  and_intros <;> decide +kernel

/-- The image is verified: its bytes stand where the registration names them. -/
theorem witness_KernelsAndGraphs_image : imageStatus ((registerState imageStore).physBytes 0 512) 512 = 0 ∧
    (registerState imageStore).opOf 0x0400 = some ⟨5, registering, 0⟩ ∧ (registerState imageStore).imagePlace registering 63 .broken = .range 0 :=
  ⟨by rw [witness_image]; exact test_image_verified, by decide, by decide⟩
/-- A launch of kernel 1; one of flag bits `f`, at time `t`. -/
def plain (phase : Phase) : Launch := launch1 desc1 phase
def timed (f t : Nat) : Launch := launch1 (desc1 [(7, 1, f), (0x18, 8, t)]) .waiting
def graphLaunch : Launch :=
  { launch1 (descOf [(0, 4, 1), (4, 2, 0xFFFF), (7, 1, 1)]) .running with graph := some (1, 1), nodes := [newNode] }

theorem witness_LaunchesStart_consume :
    (let s := workState []
     (ReadResult.data desc1).len 512 = true ∧ s.queue 0 = some queue1 ∧ s.sys.state = 2 ∧ queue1.state = .active ∧ s.partRunning 63 = true ∧
     queue1.head ≠ queue1.tail ∧ s.unretired 0 < 2 ∧ s.valacRead 0x400 63 (512 * 7) 512 (.data desc1) = .data desc1 ∧
     s.valacRead 0x400 63 (512 * 7) 512 (.fail 1 3) = .fail 1 3 ∧ s.transitsOf desc1 = 0 ∧ queue1.head ∉ queue1.abortSeqs ∧
     s.refusal 63 desc1 false = none ∧ s.refusal 63 (desc1 [(0x15, 1, 1)]) false = some 7) := by
  and_intros <;> decide +kernel

theorem witness_LaunchesStart :
    (let l := launch1 (desc1 [(7, 1, 4), (0x20, 8, 64), (0x28, 8, 5)]) .waiting
     let s := workState [l]
     nodeOf 0 = 0 ∧ s.launch (wholeOf 0) = some l ∧ s.atHead l = true ∧ l.flag 2 = true ∧
     s.valacRead 0x400 63 (waitAddr l.desc) 8 (.data (leBytes 8 5)) = .data (leBytes 8 5)) ∧
    (let s1 := (workState [plain .waiting]).considerStart 0
     s1.launch 0 = some (plain .waiting) ∧ s1.mayStart (plain .waiting) = true ∧ (plain .waiting).flag 1 = false ∧
     s1.needsPreramp (plain .waiting) (s1.startRise (plain .waiting)) = false) ∧
    (let s := { workState [timed 2 1000] with time := { state := .locked, master := 1000, dies := [(7, 1000)] } }
     let s1 := s.considerStart (wholeOf 0)
     s1.launch (wholeOf 0) = some (timed 2 1000) ∧ s1.mayStart (timed 2 1000) = true ∧ (timed 2 1000).flag 1 = true ∧ s1.timeValid = true ∧
     transitOf (timed 2 1000).desc ≤ s1.latestDie (s1.launchCores (timed 2 1000))) ∧
    (let l := { plain .waiting with preramp := some 0 }
     let s := { workState [l] with power := { envelope := 106 } }
     s.launch (wholeOf 0) = some l ∧ s.mayStart l = true ∧ s.prerampDone l (s.startRise l) = true) ∧
    (let s := workState [graphLaunch]
     nodeOf 1 = 0 + 1 ∧ s.launch (wholeOf 1) = some graphLaunch ∧ (s.graphNodes (1, 1)).getD 0 [] = desc1 ∧
     s.nodeMayStart graphLaunch (s.graphNodes (1, 1)) 0 = true ∧ descFlag desc1 1 = false ∧ s.needsPreramp graphLaunch (s.layerRise graphLaunch 0) = false) ∧
    (let x := { part63 with be := true, turn := some 0, turnFrom := some 0 }
     let s := { withPart x with time := { master := 2000000 } }
     s.part 63 = some x ∧ 0 + 1000 * x.slice ≤ s.now) := by
  and_intros <;> decide +kernel

/-- An ended launch, with its outcome to come, and one whose record waits for room in ring 0. -/
def record1 : List Byte := List.replicate 64 0
def recorded : Launch :=
  { launch1 (descOf [(0, 4, 1), (4, 2, 0), (8, 8, 16)]) .committed with
    verdict := some { status := .ok, fault := 0, reason := 0, notRun := false }, signalled := true, record := some record1 }

theorem witness_LaunchesEnd :
    (let s := workState [plain .ended]
     s.launch (wholeOf 0) = some (plain .ended) ∧ s.mayCommit (plain .ended) = true) ∧
    (let s := workState [recorded]
     s.firstWaiting 0 = some (0, 0) ∧ s.launch 0 = some recorded ∧ recorded.cringNo ≠ 0xFFFF ∧ s.ringOk 63 recorded.desc = true ∧
     s.recordsAhead 63 0 0 = false ∧ (s.putRecord 0x400 63 0 record1 (.data (leBytes 8 1))).1 = .written ∧
     (s.putRecord 0x400 63 0 record1 (.data (leBytes 8 0))).1 = .waits) ∧
    (let l := launch1 (desc1 [(0x180, 4, 1)]) .waiting
     let s := workState [l]
     s.launch 0 = some l ∧ fieldAt l.desc 0x180 4 ≠ 0 ∧ l.stop = none ∧ s.atHead l = true ∧ l.running = false) ∧
    (let l := { launch1 (desc1 [(0x180, 4, 1)]) .running with busy := [639] }
     let s := workState [l]
     s.launch 0 = some l ∧ fieldAt l.desc 0x180 4 ≠ 0 ∧ s.atHead l = true ∧ l.running = true) ∧
    (let l := { plain .running with busy := [639], stop := some (verdictTimeout 0x41) }
     (workState [l]).launch 0 = some l ∧ l.busy ≠ []) := by
  and_intros <;> decide +kernel
/-! Time, power, the twin, the host, the management port, start-up. -/

theorem witness_MeridianTime :
    (let s : State := { sys := { valacUp := true }, time := { state := .locked, quiet := 2000000, good := 7 } }
     s.sys.valacUp = true ∧ s.time.source = 0 ∧ s.time.state = .locked ∧ 2000000 ≤ s.time.quiet) ∧
    (let s : State := { sys := { valacUp := true } }
     s.time.state = .unset ∧ s.time.stepped = false) ∧
    (let s : State := { sys := { valacUp := true }, time := { state := .holdover, good := 7 } }
     s.time.state = .holdover) := by
  and_intros <;> decide

/-- A steward of half 15. -/
def powerState (x : Steward) (p : Power := {}) : State := { sys := { mainOn := true }, power := { p with stewards := [(15, x)] } }

theorem witness_PowerControl :
    (let s := powerState {}
     s.sys.mainOn = true ∧ s.work.launches.flatMap s.risesDue = []) ∧
    (let p : Power := { samples := [6600, 6600], capQueue := [(15, true)] }
     p.samples ≠ [] ∧ meanOf p.samples ≤ p.limit ∧ p.limit ≤ meanOf p.samples + 200) ∧
    (let p : Power := { samples := [6801] }
     p.limit < meanOf p.samples) ∧
    (let p : Power := { samples := [6599] }
     meanOf p.samples + 200 < p.limit) ∧
    (let x := (powerState { moving := true }).steward 15
     x.moving = true ∧ x.frozen = false ∧ x.droop = false) ∧
    (let x := (powerState { frozen := true }).steward 15
     x.frozen = true ∧ x.droop = false) ∧
    ((powerState { droop := true }).steward 15).droop = true ∧ (List.replicate 8 (760 : BitVec 16)).length = 8 ∧ hotAt 95 760 = true ∧
    coolAt 92 736 = true ∧ (List.replicate 4 (760 : BitVec 16)).length = 4 ∧
    (let s := powerState { throttle := true, temps := [(7, 760)] }
     (s.steward 15).throttle = true ∧ (s.halfTemps 15).any (hotAt 95) = true) ∧
    (let s := powerState { thermStep := 1 }
     (s.steward 15).throttle = false ∧ 0 < (s.steward 15).thermStep) := by
  and_intros <;> decide

theorem witness_TwinLinkAndPairing :
    (let x : Twin := { rate := 1, expected := 65535, nextSeq := 3, oldest := 65535 }
     x.rate ≠ 0 ∧ (65535 : BitVec 16).toNat = x.expected ∧ (0 : BitVec 16).toNat ≠ x.expected ∧
     ((3 : BitVec 16).toNat + 65536 - x.oldest) % 65536 ≤ x.unacked) ∧
    18 - countBits ((0 : BitVec 18) ||| BitVec.ofNat 18 (2 ^ 17)) = 17 ∧ 18 - countBits (0x7 ||| BitVec.ofNat 18 (2 ^ 9)) = 14 ∧
    18 - countBits (0x3FF ||| BitVec.ofNat 18 (2 ^ 17)) = 7 ∧ ({} : State).time.source ≠ 1 ∧
    (let s : State := { twin := { state := .paired, lastBeat := 0 }, time := { beats := 100 } }
     s.twin.state = .paired ∧ s.twin.lastBeat + 100 ≤ s.time.beats) ∧
    ((1 : Fin 3).val ≠ 0 ∧ (2 : Fin 3).val ≠ 0) ∧
    (let s : State := { twin := { state := .attesting }, fw := { pairId := some [] } }
     s.twin.state = .attesting ∧ s.fw.pairId.isSome ∧ s.fw.floor ≤ (0 : Byte).toNat) ∧
    (let c := cmdOf 0x0700 []
     let s := { during {} c with fw := { pairId := some [] } }
     s.doing c 0x0700 0 [] ∧ s.opsFull c = false ∧ s.twin.state = .unpaired ∧ s.fw.pairId.isSome ∧ s.committing = false) ∧
    (let c := cmdOf 0x0701 []
     let s := { during {} c with twin := { state := .paired } }
     s.doing c 0x0701 0 [] ∧ s.twin.state = .paired) := by
  and_intros <;> decide

def win63 (state : WinState) (mode : Nat) : MirWin := { state, mode, lag := 50, start := 0, len := 2097152, staged := [(0, [(0, 1)])] }
def twinState (x : MirWin) : State := { twin := { state := .paired, rate := 2, windows := [(63, x)] } }

theorem witness_MirrorWindows :
    (let x := (twinState (win63 .active 2)).win 63
     x.state = .active ∧ (2, 51, 0, 2097152) ≠ (x.mode, x.lag, x.start, x.len) ∧ (2 : Fin 3).val ≠ 0) ∧
    (let s := twinState (win63 .waiting 2)
     (s.win 63).state = .waiting ∧ s.twin.state = .paired ∧ (2, 50, 0, 2097152) = ((s.win 63).mode, (s.win 63).lag, (s.win 63).start, (s.win 63).len)) ∧
    (let s := twinState (win63 .active 2)
     2097024 % 128 = 0 ∧ s.twin.rate ≠ 0 ∧ s.windowTakes 63 2 2097024 = true ∧ s.windowTakes 63 1 2097152 = false ∧ s.windowTakes 63 2 2097152 = false) ∧
    (twinState (win63 .active 1)).windowTakes 63 1 0 = true ∧
    (let o : SyncOut := { tag := 7, window := 63, rid := some 1, addr := 0 }
     let s : State := { twin := { syncs := [o] } }
     (s.twin.syncs.find? fun y => y.tag == 7 && !y.dead) = some o) ∧
    (let x := (twinState (win63 .active 2)).win 63
     x.mode = 2 ∧ x.closedHere = none ∧ x.staged ≠ [] ∧ { x with staged := [] }.staged = []) ∧
    ({ win63 .active 2 with closed := some (1, 0) }.closed = some (1, 0)) ∧
    (let r : Repair := { stripe := 0, len := 64, source := 0, copy := 0, tag := 0xFFFFFFFF, left := [0, 1], data := [], failed := false }
     let s : State := { fab := { halves := [(15, { repair := some r })] } }
     (s.half 15).repair = some r ∧ (∀ k, k < 16 → k ≠ 15 → (s.half k).repair = none) ∧ ((0 : Word).toNat + 2 ^ 32 - r.tag) % 2 ^ 32 = 1 ∧
     1 ∈ r.left ∧ r.left.erase 1 ≠ []) ∧
    (let c := setC 0x0702 [(1, 63), (1, 2), (2, 0), (4, 10000000), (8, 0), (8, 2097152)]
     let s := during {} c
     s.doing c 0x0702 24 [(2, 2)] ∧ s.twin.state ≠ .paired ∧ c.arg 0 1 = 63 ∧ c.arg 1 1 = 2 ∧ 50 ≤ c.arg 4 4 ∧ c.arg 4 4 ≤ 10000000 ∧
     c.arg 8 8 % granuleBytes = 0 ∧ s.windowMeets 63 (c.arg 8 8) (c.arg 0x10 8) = false ∧ c.arg 0x10 8 % granuleBytes = 0 ∧
     inOneTier (c.arg 8 8) (c.arg 0x10 8) = true ∧ addrClass (c.arg 8 8) ≠ .tier3 ∧ (s.win 63).state = .off) ∧
    (let c := setC 0x0703 [(1, 63), (3, 0)]
     let s := during (twinState (win63 .active 2)) c
     s.doing c 0x0703 4 [(1, 3)] ∧ c.arg 0 1 = 63 ∧ c.role ≠ 1 ∧ (s.win 63).state = .active ∧ (s.win 63).mode = 2 ∧ (s.win 63).closed = none) := by
  and_intros <;> decide
/-- The host's PF, and a partition that owns the first granule. -/
def hostState (rs : List Req) : State :=
  { store := { store0 with tags := [(0, 0x4000)] }, fab := { reqs := rs, nextReq := 2 }, xlat := { ctxs := [(0, ctx4)] }, cores := [(0, core4)],
    sys := { standby := true, step := 2, state := 2, mainOn := true } }

theorem witness_HostAttachment :
    (let s := hostState []
     s.bar4Holds 0 120 8 = true ∧ s.hostCause 0 120 8 false = none ∧ 120 % 128 + 8 ≤ 128 ∧ s.aperture 0 120 = some 120 ∧
     s.bar4Holds 0 (2 ^ 43 - 4096) 4096 = true ∧ (s.hostCause 0 tier2Base 8 false).isSome ∧ (s.hostCause 0 tier2Base 4 true).isSome ∧
     s.hostCause 0 127 1 true = none ∧ s.bar4Holds 0 127 1 = true ∧ s.bar4Holds 0 tier2Base 8 = true) ∧
    (let r := reqOf (.write [(127, 7)]) .normal .host
     (hostState [r]).req 1 = some r ∧ (hostState [r]).turnOf r = true ∧ r.id = 1) ∧
    (let r := reqOf (.atomic true 0 3 14 [(3, 120, 0, 1)]) .normal .host
     (hostState [r]).req 1 = some r ∧ (hostState [r]).turnOf r = true ∧ (List.replicate 8 (0 : Byte)).length = r.op.span.2 ∧
     (((hostState [r]).core 0).group 0).occupied = true) ∧
    (1 < (hostState []).sys.step ∧ (hostState []).host.vfEnable = false ∧ (hostState []).fnEnabled 0 = true ∧ (hostState []).sys.standby = true) ∧
    linkWidth 0x000F = 4 ∧ linkWidth 0x0007 = 0 ∧ (5 : Fin 8).val ≠ 0 ∧ 2047 < tableSize 0 ∧
    SMap.get false ({} : State).host.fnMask 0 = false := by
  and_intros <;> decide

def session1 : Session := { id := 1, proved := true, rxCount := 4, txCount := 0, keyDigest := [], idle := 0 }
def frameOf (counter : Nat) (body : List Byte) : MgmtFrame := { session := 1, counter := BitVec.ofNat 64 counter, tagOk := true, body }
def mgmtState (x : Firmware) : State :=
  { sys := { valacUp := true, standby := true }, host := { width := 16 }, time := { beats := 300000000 }, fw := { x with mgmtUp := true } }

theorem witness_ManagementPort :
    (let s := mgmtState { hello := some (1, []) }
     s.sys.valacUp = true ∧ 0 < s.host.width ∧ spdmStage 0x00 = none ∧ s.portServes = true ∧ s.fw.hello = some (1, []) ∧
     0 < (frameOf 1 []).counter.toNat) ∧
    (let s := mgmtState { session := some session1, events := [(7, [], 60)] }
     s.fw.session = some session1 ∧ session1.takes (frameOf 5 []) = true ∧ (s.mbx 66).state ≠ 1 ∧
     (s.fw.events.find? fun e => e.1 == 7) = some (7, [], 60) ∧ session1.idle + 300000000 ≤ s.time.beats ∧ s.sys.standby = true) ∧
    (let s := { mgmtState { session := some session1 } with valac := { mailboxes := [(66, { state := 1 })] } }
     (s.mbx 66).state = 1) := by
  and_intros <;> decide

theorem witness_ManagementPort_keys : (List.replicate 1600 (0 : Byte)).length = 1600 ∧ (List.replicate 3073 (0 : Byte)).length = 3073 ∧
    ∀ key, (mgmtState { hello := some (1, []) }).keyAccepted key = true :=
  ⟨List.length_replicate, List.length_replicate, fun _ => rfl⟩

theorem witness_StartUp :
    (({} : State).sys.standby = false ∧ ({} : State).sys.pwrEn = false ∧ ({} : State).fw.flashFails = 0) ∧
    (let s : State := { fw := { flash := { secver := 1 }, floor := 2 } }
     s.fw.flashFails ≠ 0) ∧
    (let s : State := { sys := { standby := true, valacUp := true } }
     s.sys.standby = true ∧ s.sys.quiescing = false ∧ s.sys.state = 0 ∧ s.sys.tripped = false ∧ s.sys.ignored = false ∧ s.sys.cutOff = false ∧
     s.allCool = true ∧ s.links.darnMap = [] ∧ s.fw.recovery = false) ∧
    (let s : State := { power := { hubTemps := [(0, 720)] } }
     s.allCool = false) ∧
    (let c := setC 0x0A01 [(1, 0), (3, 0)]
     let s := partState (part63 .quiesced) c
     s.doing c 0x0A01 4 [(1, 3)] ∧ c.arg 0 1 ≤ 1 ∧ s.committing = false ∧ s.unquiesced = 0) ∧
    (let c := setC 0x0A01 [(1, 1), (3, 0)]
     let s := partState part63 c
     s.doing c 0x0A01 4 [(1, 3)] ∧ c.arg 0 1 = 1 ∧ s.unquiesced = 1) ∧
    (let o : Op := ⟨5, setC 0x0801 [(4, 0)], 0⟩
     ({ valac := { ops := [o] } } : State).opOf 0x0801 = some o) := by
  and_intros <;> decide

theorem witness_PowerLoss :
    (let s : State := { sys := { standby := true, pwrEn := true, mainOn := true } }
     s.sys.pwrEn = true ∧ s.sys.mainOn = true ∧ s.sys.standby = true) ∧
    (let s : State := { sys := { standby := true, pwrEn := true } }
     s.sys.mainOn = false) ∧
    (let s : State := { sys := { standby := true, tripped := true } }
     s.sys.tripped = true ∧ s.sys.pwrEn = false ∧ s.allCool = true) ∧
    (44000 ≤ 47999 ∧ 47999 < 48000) ∧ hotAt 110 880 = true ∧
    (let s : State := { sys := { standby := true, mainOn := true, quiescing := true } }
     s.sys.mainOn = true ∧ s.sys.quiescing = true ∧ s.sys.pwrEn = false) := by
  and_intros <;> decide
/-! The worked examples of the spec. -/

def after (o : Host.Outcome State Fault Refusal) : State :=
  match o with
  | .next t => t
  | _ => {}

/-- Core (27, 11) and the arbiter of bank 3 of half D2.E in the internal control space (worked examples of chapters 1 and 11). -/
theorem test_ics_core : icsBlock 0x0106490000 = (.core 537, 0) := by decide
theorem test_ics_bank_arbiter : icsBlock 0x010293F004 = (.arb (.bank 5 3), 4) := by decide

/-- 96 registers and 32 lanes give 21 resident groups (worked example of chapter 2). -/
theorem test_resident_groups : residentGroups 96 32 = 21 := by decide

/-- 99,990 threads in groups of 32 on 158 cores: rank 122 takes 20 groups, and rank 123 takes 19 from group 2,460 on (worked example of chapter 12). -/
def attention : StartJob :=
  { id := 0, part := 0, ctx := 0, desc := desc1 [(8, 8, 99990)], kernel := { kernel1 with width := 1 }, cores := List.range 158, takers := List.range 158,
    lc := false, start := 0 }

theorem test_share_split : (attention.share 122).groups = 20 ∧ (attention.share 123).groups = 19 ∧ (attention.share 123).first = 2460 ∧
    (attention.share 0).gridGroups = 3125 := by decide +kernel

/-- Bad wires of bundle 1 leave track 9 bad and direction 0 at half width (worked example of chapter 10). -/
theorem test_lane_test : badTrackList [(1, false, 37, 3), (1, false, 37, 11), (1, false, 120, 16)] 1 false = [9] ∧ widthOf 1 [9] = 1 := by
  decide +kernel

/-- A core of the annotated listing of chapter 4: L0 = 0x1000, L2 = 3.0, L3 = 1.0, L4 = 2; thread n has n in t0 and 2.0 in t3. -/
def listing : State :=
  let g : Group := [(0, 0), (1, 1), (2, 2), (3, 3)].foldl (fun (g : Group) e => (g.setT e.1 0 e.2).setT e.1 3 0x40000000) group4
  withCore { core4 with uniforms := 16, regsDiv8 := 2, launchBlock := [(0, 0x1000), (2, 0x40400000), (3, 0x3F800000), (4, 2)], groups := [(0, g)] }

theorem test_mov_word : (((after (execMov g0 (unitOf 8 0x40 0 0) listing)).core 0).group 0).getU 8 = 0x1000 := by decide

theorem test_icmp_ge : (((after (execIcmp g0 (unitOf 1 0 0x44 0 0x2009) listing)).core 0).group 0).getP 1 = 0xC := by decide

theorem test_shl_extension :
    (((after (execVShl g0 { unitOf 2 0 0 0 with ext := some 2 } listing)).core 0).group 0).getT 3 2 = 12 := by decide

/-- 2.0 × 3.0 + 1.0 = 7.0. -/
theorem test_fmula : (((after (execFmula g0 (unitOf 4 3 0x42 0x43 0x3000) listing)).core 0).group 0).getT 1 4 = 0x40E00000 := by decide

/-- 2.0 as BF16. -/
theorem test_cvt_bf16 : (((after (execCvt g0 (unitOf 6 3 0 0 2) listing)).core 0).group 0).getT 1 6 = 0x4000 := by decide

theorem test_exit_guard :
    (((after (execExit g0 { unitOf 0 0 0 0 with pred := 1 } (deep 0))).core 0).group 0).live = 0xE := by decide

end Sys2Proof.Tests
end

/-! The state after reset (R10, R531, R534): every part that is kept by number reads as its Reset columns. -/

namespace Sys2Proof.Machine

@[simp] theorem State.reset_core (n : Nat) : State.reset.core n = {} := rfl
@[simp] theorem State.reset_mbx (n : Nat) : State.reset.mbx n = {} := rfl
@[simp] theorem State.reset_ring (n : Nat) : State.reset.ring n = {} := rfl
@[simp] theorem State.reset_win (n : Nat) : State.reset.win n = {} := rfl
@[simp] theorem State.reset_part (n : Nat) : State.reset.part n = none := rfl
@[simp] theorem State.reset_queue (n : Nat) : State.reset.queue n = none := rfl
@[simp] theorem State.reset_kernel (n : Nat) : State.reset.kernel n = none := rfl
@[simp] theorem State.reset_graph (n : Nat) : State.reset.graph n = none := rfl
@[simp] theorem State.reset_rect (n : Nat) : State.reset.rect n = none := rfl

/-- No partition has a rectangle yet. -/
theorem State.reset_rectsApart : State.reset.rectsApart := by
  intro p q a b _ ha
  simp at ha

/-- Settles O4: the reset state is the record of the Reset columns, and no part of it that is kept by number is listed. -/
theorem resetState : Obligations.ResetState := by
  unfold Obligations.ResetState
  refine ⟨rfl, rfl, rfl, rfl, rfl, rfl, State.reset_memory_wf, State.reset_rectsApart, rfl, rfl, rfl, rfl, rfl, rfl, rfl, rfl, rfl, rfl,
    fun n => ?_⟩
  simp

end Sys2Proof.Machine

/-! Clears (R7): the counter clear registers, the reads that clear and the status bits that a write of 1 clears. -/

namespace Sys2Proof.Machine

section Clears

variable (s : State)

/-! Frames: a write of one numbered part leaves the other parts alone. -/

theorem State.onlyCore_setCore (c : Nat) (k : Core) : s.onlyCore (s.setCore c k) c :=
  ⟨rfl, fun d h => by rw [State.core_setCore, if_neg h.symm]⟩

theorem State.onlyHalf_setHalf (h : Nat) (x : Half) : s.onlyHalf (s.setHalf h x) h :=
  ⟨rfl, fun k hk => by rw [State.half_setHalf, if_neg hk.symm]⟩

theorem State.onlyCtrl_setCtrl (m : Nat) (x : MemCtrl) : s.onlyCtrl (s.setCtrl m x) m :=
  ⟨rfl, fun k hk => by rw [State.ctrl_setCtrl, if_neg hk.symm]⟩

theorem State.onlyArb_setArb (a : Nat) (x : Arb) : s.onlyArb (s.setArb a x) a :=
  ⟨rfl, fun k hk => by rw [State.arb_setArb, if_neg hk.symm]⟩

theorem State.onlyBundle_setBundle (b : Nat) (x : Bundle) : s.onlyBundle (s.setBundle b x) b :=
  ⟨rfl, fun k hk => by rw [State.bundle_setBundle, if_neg hk.symm]⟩

@[simp] theorem Bundle.dir_setDir_self (x : Bundle) (d : Bool) (y : BundleDir) : (x.setDir d y).dir d = y := by
  cases d <;> rfl

@[simp] theorem Bundle.dir_setDir_not (x : Bundle) (d : Bool) (y : BundleDir) : (x.setDir d y).dir (!d) = x.dir (!d) := by
  cases d <;> rfl

/-! Counters. -/

/-- A block's counters are those of its range of offsets. -/
theorem get_clearCounters (m : SMap DWord) (lo hi off : Nat) :
    SMap.get 0 (clearCounters m lo hi) off = if lo ≤ off ∧ off < hi then 0 else SMap.get 0 m off := by
  rw [clearCounters, SMap.get_keep]
  by_cases h : lo ≤ off ∧ off < hi
  · simp [h, Nat.not_lt.mpr h.1]
  · have out : off < lo ∨ hi ≤ off := by omega
    simp [h, out]

/-- A die's translation counters are a page of offsets of its own. -/
theorem get_clearCounters_page (m : SMap DWord) (d off : Nat) :
    SMap.get 0 (clearCounters m (4096 * d) (4096 * d + 4096)) off = if off / 4096 = d then 0 else SMap.get 0 m off := by
  rw [get_clearCounters]
  exact if_congr (by omega) rfl rfl

/-- A clear register takes its effect where bit 0 is written 1. -/
theorem exec_of_clears {i : Instr} {s t : State} {v : Word} (hi : exec i s = .next (if clears v then t else s))
    (h : v.getLsbD 0 = true) : exec i s = .next t := hi.trans (congrArg _ (if_pos h))

/-- It has no effect where bit 0 is written 0. -/
theorem exec_of_not_clears {i : Instr} {s t : State} {v : Word} (hi : exec i s = .next (if clears v then t else s))
    (h : v.getLsbD 0 = false) : exec i s = .next s := hi.trans (congrArg _ (if_neg (Bool.eq_false_iff.mp h)))

/-- The clear register of a port is that of one direction of its bundle (R336). -/
theorem State.exec_bndCntClear_of_some {p : BndPort} {b : Nat} {d : Bool} (hp : portBundle p = some (b, d)) (v : Word) :
    exec (.bndCntClear p v) s =
      .next (if clears v then s.setBundle b ((s.bundle b).updDir d fun y => { y with counters := [] }) else s) := by
  show Host.Outcome.next (s.bndCntClear p v) = _
  rw [State.bndCntClear, hp]

/-- A port without a bundle has no counters. -/
theorem State.exec_bndCntClear_of_none {p : BndPort} (hp : portBundle p = none) (v : Word) : exec (.bndCntClear p v) s = .next s := by
  show Host.Outcome.next (s.bndCntClear p v) = _
  rw [State.bndCntClear, hp]

/-- A write of a clear register with bit 0 clear changes nothing. -/
theorem State.exec_cntClear_of_not_clears (c : CoreIdx) (h : HalfIdx) (m : CtrlIdx) (d : DieIdx) (p : BndPort) (a : ArbId) {v : Word}
    (hv : v.getLsbD 0 = false) :
    ∀ i ∈ [Instr.coreCntClear c v, .mtxCntClear c v, .meshCntClear c v, .xlatCoreCntClear c v, .cacheCntClear h v, .memcCntClear m v,
           .xlatCntClear d v, .stewCntClear h v, .specCntClear v, .bndCntClear p v, .arbCtrlClear a v], exec i s = .next s := by
  simp only [List.forall_mem_cons]
  refine ⟨exec_of_not_clears rfl hv, exec_of_not_clears rfl hv, exec_of_not_clears rfl hv, exec_of_not_clears rfl hv,
    exec_of_not_clears rfl hv, exec_of_not_clears rfl hv, exec_of_not_clears rfl hv, exec_of_not_clears rfl hv,
    exec_of_not_clears rfl hv, ?_, exec_of_not_clears rfl hv, List.forall_mem_nil _⟩
  cases hp : portBundle p with
  | none => exact s.exec_bndCntClear_of_none hp v
  | some e => exact exec_of_not_clears (s.exec_bndCntClear_of_some hp v) hv

/-- The clears of the matrix and the core translation counters zero the offsets of their blocks (R103, R314). -/
theorem State.onlyCore_clearCounters (c : CoreIdx) (lo hi : Nat) {t : State}
    (ht : s.setCore c { s.core c with counters := clearCounters (s.core c).counters lo hi } = t) :
    s.onlyCore t c ∧ { t.core c with counters := (s.core c).counters } = s.core c ∧
      ∀ off, SMap.get 0 (t.core c).counters off = if lo ≤ off ∧ off < hi then 0 else SMap.get 0 (s.core c).counters off := by
  subst ht
  rw [State.core_setCore_self]
  exact ⟨s.onlyCore_setCore _ _, rfl, get_clearCounters _ lo hi⟩

/-! Status bits. -/

/-- A status bit that a write of 1 clears. -/
theorem and_not_eq_ite (x w : Bool) : (x && !w) = if w then false else x := by
  cases w <;> simp

end Clears

/-- Settles O33: each register's meaning is a write of one part of the state, whose frame is that part's, and the fields it writes are
the counters, the value read or the status bits. -/
theorem clearingAccesses : Obligations.ClearingAccesses := by
  unfold Obligations.ClearingAccesses
  refine ⟨fun s c h m d p a v => ⟨s.exec_cntClear_of_not_clears c h m d p a, fun hv => ⟨?core, ?mesh, ?matrixXlatCore, ?cache, ?memc,
    ?xlat, ?stew, ?spec, ?arb, ?bnd⟩⟩,
    fun s c h b fn m x v => ⟨?stackMax, ?hwm, ?dropped, ?meshFault, ?hstRefused, ?overrun, ?cacheErr, ?memcErr⟩⟩
  case core => exact ⟨_, exec_of_clears rfl hv, s.onlyCore_setCore _ _, s.core_setCore_self _ _⟩
  case mesh => exact ⟨_, exec_of_clears rfl hv, s.onlyCore_setCore _ _, s.core_setCore_self _ _⟩
  case matrixXlatCore =>
    simp only [List.forall_mem_cons]
    exact ⟨⟨_, exec_of_clears rfl hv, s.onlyCore_clearCounters c _ _ rfl⟩, ⟨_, exec_of_clears rfl hv, s.onlyCore_clearCounters c _ _ rfl⟩,
      List.forall_mem_nil _⟩
  case cache => exact ⟨_, exec_of_clears rfl hv, s.onlyHalf_setHalf _ _, s.half_setHalf_self _ _⟩
  case memc => exact ⟨_, exec_of_clears rfl hv, s.onlyCtrl_setCtrl _ _, s.ctrl_setCtrl_self _ _⟩
  case xlat => exact ⟨_, exec_of_clears rfl hv, rfl, rfl, get_clearCounters_page _ _⟩
  case stew =>
    refine ⟨_, exec_of_clears rfl hv, rfl, fun k => ?_⟩
    rw [State.steward_setSteward]
    obtain rfl | hk := eq_or_ne h.val k
    · rw [if_pos rfl]
    · rw [if_neg hk, if_neg hk.symm]
  case spec => exact ⟨_, exec_of_clears rfl hv, rfl⟩
  case arb => exact ⟨_, exec_of_clears rfl hv, s.onlyArb_setArb _ _, s.arb_setArb_self _ _⟩
  case bnd =>
    cases hp : portBundle p with
    | none => exact ⟨s, s.exec_bndCntClear_of_none hp v, rfl⟩
    | some e =>
      refine ⟨_, exec_of_clears (s.exec_bndCntClear_of_some hp v) hv, s.onlyBundle_setBundle _ _, ?_, ?_⟩ <;>
        rw [State.bundle_setBundle_self, Bundle.updDir]
      · exact Bundle.dir_setDir_self _ _ _
      · exact Bundle.dir_setDir_not _ _ _
  case stackMax => exact ⟨_, rfl, rfl, s.onlyCore_setCore _ _, s.core_setCore_self _ _⟩
  case hwm =>
    have hh : (s.missregHwmRead h b).half h = { s.half h with hwm := SMap.set 0 (s.half h).hwm b 0 } := s.half_setHalf_self _ _
    refine ⟨_, rfl, rfl, s.onlyHalf_setHalf _ _, ?_, fun k => ?_⟩
    · rw [hh]
    · rw [hh]
      exact (SMap.get_set 0 (s.half h).hwm b k 0).trans (if_congr eq_comm rfl rfl)
  case dropped =>
    exact ⟨_, rfl, rfl, s.ring_setRing_self _ _, rfl, fun k hk => (s.ring_setRing _ _ k).trans (if_neg hk.symm)⟩
  case meshFault =>
    refine ⟨_, rfl, s.onlyCore_setCore _ _, (s.core_setCore_self _ _).trans ?_⟩
    dsimp only
    rw [and_not_eq_ite]
  case hstRefused =>
    refine ⟨_, rfl, ?_⟩
    rw [State.hstRefusedClear, and_not_eq_ite]
  case overrun =>
    refine ⟨_, rfl, rfl, fun k => (s.mbx_setMbx _ _ k).trans ?_⟩
    obtain rfl | hk := eq_or_ne x.val k
    · cases v.getLsbD 31 <;> simp
    · simp [hk, hk.symm]
  case cacheErr =>
    refine ⟨_, rfl, s.onlyHalf_setHalf _ _, (s.half_setHalf_self _ _).trans ?_⟩
    rw [and_not_eq_ite, and_not_eq_ite]
  case memcErr =>
    refine ⟨_, rfl, s.onlyCtrl_setCtrl _ _, (s.ctrl_setCtrl_self _ _).trans ?_⟩
    rw [and_not_eq_ite, and_not_eq_ite]

end Sys2Proof.Machine

/-! Retirement: what the end of an instruction leaves of the state that its effect made (R30, R116). -/

namespace Sys2Proof.Machine

section Retire

variable {s t : State} {i : Inst} {f : Form} {act : State → Effect}

/-! Frames of one core. -/

theorem State.onlyCore_refl (s : State) (c : Nat) : s.onlyCore s c := ⟨rfl, fun _ _ => rfl⟩

theorem State.onlyCore_trans {x y z : State} {c : Nat} (h : x.onlyCore y c) (g : y.onlyCore z c) : x.onlyCore z c := by
  obtain ⟨h1, h2⟩ := h
  obtain ⟨g1, g2⟩ := g
  refine ⟨?_, fun d hd => (g2 d hd).trans (h2 d hd)⟩
  rw [← h1, ← g1]

theorem State.onlyCore_setGrp (s : State) (i : Inst) (g : Group) : s.onlyCore (s.setGrp i g) i.c := s.onlyCore_setCore _ _

theorem State.onlyCore_countIssue (s : State) (i : Inst) : s.onlyCore (s.countIssue i) i.c := s.onlyCore_setCore _ _

theorem State.onlyCore_advance (s : State) (i : Inst) : s.onlyCore (s.advance i) i.c := by
  unfold State.advance
  dsimp only
  split
  · exact s.onlyCore_setGrp _ _
  · exact s.onlyCore_refl _

theorem State.onlyCore_retire (s : State) (i : Inst) : s.onlyCore ((s.countIssue i).advance i) i.c :=
  State.onlyCore_trans (s.onlyCore_countIssue i) (State.onlyCore_advance _ i)

theorem State.onlyCore_store {c : Nat} (h : s.onlyCore t c) : t.store = s.store := by
  rw [← h.1]

theorem State.onlyCore_free {c : Nat} (h : s.onlyCore t c) : t.free = s.free := by
  rw [← h.1]

theorem State.core_of_cores {x y : State} (h : x.cores = y.cores) (d : Nat) : x.core d = y.core d := by
  simp only [State.core, h]

/-! The group of the instruction. -/

theorem State.group_setGrp (s : State) (i : Inst) (g : Group) (j : Nat) :
    ((s.setGrp i g).core i.c).group j = if i.slot = j then g else (s.core i.c).group j := by
  rw [State.core_setGrp, if_pos rfl, Core.group_setGroup]

@[simp] theorem State.group_countIssue (s : State) (i : Inst) (j : Nat) :
    ((s.countIssue i).core i.c).group j = (s.core i.c).group j := by
  simp [State.countIssue]

theorem State.grp_setCore_of_groups {k : Core} (h : k.groups = (s.core i.c).groups) : (s.setCore i.c k).grp i = s.grp i := by
  rw [State.grp, State.core_setCore_self, Core.group, h]
  rfl

theorem State.executes_ready (h : s.executes i f) : s.ready i = true := h.1

theorem State.ready_occupied (h : s.ready i = true) : (s.grp i).occupied = true := by
  simp only [State.ready, Bool.and_eq_true] at h
  exact h.1.1.1.2

theorem State.executes_occupied (h : s.executes i f) : (s.grp i).occupied = true :=
  State.ready_occupied (State.executes_ready h)

theorem State.grp_advance_of_occupied (h : (t.grp i).occupied = true) :
    (t.advance i).grp i = Group.settle { t.grp i with pc := (t.grp i).pc + i.bytes } := by
  unfold State.advance
  rw [if_pos h, State.grp_setGrp]

/-- The end of an instruction moves its group on and counts it; the rest of its core stays. -/
theorem State.retire_core (t : State) (i : Inst) :
    { ((t.countIssue i).advance i).core i.c with groups := (t.core i.c).groups, counters := (t.core i.c).counters } = t.core i.c := by
  unfold State.advance
  dsimp only
  split
  · rw [State.core_setGrp, if_pos rfl]
    simp [State.countIssue, Core.setGroup, Core.count]
  · simp [State.countIssue, Core.count]

/-- What the end of an instruction leaves alone in its core, field by field. -/
theorem State.retire_fields (t : State) (i : Inst) :
    let k := ((t.countIssue i).advance i).core i.c
    k.stackMax = (t.core i.c).stackMax ∧ k.mtxQ = (t.core i.c).mtxQ ∧ k.dmaQ = (t.core i.c).dmaQ ∧ k.tile = (t.core i.c).tile ∧
      k.acc = (t.core i.c).acc ∧ k.plane0 = (t.core i.c).plane0 ∧ k.plane1 = (t.core i.c).plane1 ∧ k.wb = (t.core i.c).wb ∧
      k.l1 = (t.core i.c).l1 := by
  rw [← t.retire_core i]
  exact ⟨rfl, rfl, rfl, rfl, rfl, rfl, rfl, rfl, rfl⟩

theorem State.retire_group (t : State) (i : Inst) {j : Nat} (hj : j ≠ i.slot) :
    (((t.countIssue i).advance i).core i.c).group j = (t.core i.c).group j := by
  unfold State.advance
  dsimp only
  split
  · rw [State.group_setGrp, if_neg hj.symm, State.group_countIssue]
  · rw [State.group_countIssue]

theorem State.retire_grp (h : (t.grp i).occupied = true) :
    ((t.countIssue i).advance i).grp i = Group.settle { t.grp i with pc := (t.grp i).pc + i.bytes } := by
  rw [State.grp_advance_of_occupied (by rw [State.grp_countIssue]; exact h), State.grp_countIssue]

/-! What the issue of an instruction answers, by its effect. -/

theorem State.issue_of_next (h : s.executes i f) (ha : act s = .next t) : s.issue i f act = (t.countIssue i).advance i := by
  rw [State.issue_executes s i h, ha]

theorem State.issue_of_jump (h : s.executes i f) (ha : act s = .jump t) : s.issue i f act = t.countIssue i := by
  rw [State.issue_executes s i h, ha]

theorem State.issue_of_fault {r : FaultRep} (h : s.executes i f) (ha : act s = .fault t r) :
    s.issue i f act = (t.countIssue i).takeFault r := by
  rw [State.issue_executes s i h, ha]

/-- An instruction that executes once per group is issued with its effect where a lane passes. -/
theorem State.onceIssue_eq_issue (h : s.executes i f) (hp : (s.grp i).passing i.u ≠ 0) :
    s.onceIssue i f act = s.issue i f act := by
  rw [State.onceIssue, State.issue_executes s i h, State.issue_executes s i h, if_neg hp]

/-- An instruction whose effect stays in its group and its core goes on after it. -/
theorem State.issue_next_settles (h : s.executes i f) (ha : act s = .next t) (ht : s.onlyCore t i.c)
    (ho : (t.grp i).occupied = true) :
    s.onlyCore (s.issue i f act) i.c ∧ (s.issue i f act).grp i = Group.settle { t.grp i with pc := (t.grp i).pc + i.bytes } := by
  rw [State.issue_of_next h ha]
  exact ⟨State.onlyCore_trans ht (t.onlyCore_retire i), State.retire_grp ho⟩

/-- The same for an effect on its group alone. -/
theorem State.issue_setGrp_settles {g : Group} (h : s.executes i f) (ha : act s = .next (s.setGrp i g)) (ho : g.occupied = true) :
    s.onlyGroup (s.issue i f act) i ∧ (s.issue i f act).grp i = Group.settle { g with pc := g.pc + i.bytes } := by
  refine ⟨(State.issue_next h ha (State.touches_setGrp (s.touches_refl i) g)).1, ?_⟩
  rw [State.issue_of_next h ha, State.retire_grp (by rwa [State.grp_setGrp]), State.grp_setGrp]

theorem State.issue_idle_settles (h : s.executes i f) (ha : act s = .next s) :
    s.onlyGroup (s.issue i f act) i ∧ (s.issue i f act).grp i = Group.settle { s.grp i with pc := (s.grp i).pc + i.bytes } := by
  refine ⟨(State.issue_idle h ha).1, ?_⟩
  rw [State.issue_of_next h ha, State.retire_grp (State.executes_occupied h)]

theorem State.issue_goTo {g : Group} (h : s.executes i f) (ha : act s = .jump (s.goTo i g)) :
    s.onlyGroup (s.issue i f act) i ∧ (s.issue i f act).grp i = g.settle := by
  have := State.issue_jump h ha (State.touches_setGrp (s.touches_refl i) g.settle)
  exact ⟨this.1, this.2.trans (State.grp_setGrp s i g.settle)⟩

end Retire

end Sys2Proof.Machine

/-! Control flow: branches and the reconvergence stack (R51 to R53, R117, R118). -/

namespace Sys2Proof.Machine

section Branches

variable {s t : State} {i : Inst}

/-- A branch whose target is its reconvergence address and that of the innermost entry: the taking lanes need no path of their own (R51). -/
def Group.meets (x : Group) (u : Fields) : Prop :=
  ∃ e, x.top = some e ∧ branchTarget x.pc u = branchReconv x.pc u ∧ branchReconv x.pc u = e.addr

/-- The core of `i` with one more divergent branch. -/
def State.diverged (s : State) (i : Inst) : State := s.updCore i.c fun k => k.count 0x118 1

@[simp] theorem State.grp_diverged (s : State) (i : Inst) : (s.diverged i).grp i = s.grp i := by simp [State.diverged, State.grp]

theorem State.onlyCore_diverged (s : State) (i : Inst) : s.onlyCore (s.diverged i) i.c := s.onlyCore_setCore _ _

theorem State.stackMax_diverged (s : State) (i : Inst) : ((s.diverged i).core i.c).stackMax = (s.core i.c).stackMax := by
  simp [State.diverged, Core.count]

/-! Pushing an entry (R52). -/

theorem State.pushEntry_full (e : StackEntry) (h : 32 ≤ (s.grp i).stack.length) : s.pushEntry i e = none := by
  simp only [State.pushEntry, if_pos h]

/-- A pushed entry stands on the group's stack; of the core only CORE_STACK_MAX changes beside. -/
theorem State.pushEntry_room (e : StackEntry) (h : (s.grp i).stack.length < 32) :
    ∃ t, s.pushEntry i e = some t ∧ s.onlyCore t i.c ∧ t.grp i = { s.grp i with stack := e :: (s.grp i).stack } ∧
      (t.core i.c).stackMax = Nat.max (s.core i.c).stackMax ((s.grp i).stack.length + 1) := by
  refine ⟨_, by simp only [State.pushEntry, if_neg (Nat.not_le.2 h)]; rfl, ?_, ?_, ?_⟩
  · exact State.onlyCore_trans (s.onlyCore_setGrp i _) (State.onlyCore_setCore _ _ _)
  · simp [State.grp, State.setGrp, Core.group, Core.setGroup]
  · simp [State.setGrp, Core.setGroup]

/-! The cases of BRA. -/

theorem State.branch_of_none (h : (s.grp i).passing i.u = 0) : s.branch i = .next s := by
  simp only [State.branch, if_pos h]

theorem State.branch_of_all (h : (s.grp i).passing i.u ≠ 0) (hf : (s.grp i).active &&& ~~~(s.grp i).passing i.u = 0) :
    s.branch i = .jump (s.goTo i { s.grp i with pc := branchTarget (s.grp i).pc i.u }) := by
  simp only [State.branch, if_neg h, if_pos hf]

theorem State.branch_of_meets (h : (s.grp i).passing i.u ≠ 0) (hf : (s.grp i).active &&& ~~~(s.grp i).passing i.u ≠ 0)
    (hm : (s.grp i).meets i.u) :
    s.branch i = .next ((s.diverged i).setGrp i { s.grp i with active := (s.grp i).active &&& ~~~(s.grp i).passing i.u }) := by
  obtain ⟨e, he, ht, hr⟩ := hm
  simp only [State.branch, if_neg h, if_neg hf, he, ht, hr, beq_self_eq_true, Bool.and_self, if_true]
  rfl

/-- Any other divergent branch pushes an entry for its reconvergence address. -/
theorem State.branch_of_not_meets (h : (s.grp i).passing i.u ≠ 0) (hf : (s.grp i).active &&& ~~~(s.grp i).passing i.u ≠ 0)
    (hm : ¬ (s.grp i).meets i.u) :
    s.branch i = match (s.diverged i).pushEntry i { addr := branchReconv (s.grp i).pc i.u, mask := (s.grp i).active, isCall := false } with
      | none => .fault s (s.instFault i fkIllegal 4 0 0)
      | some s2 => .next (s2.setGrp i { s2.grp i with
          active := (s.grp i).active &&& ~~~(s.grp i).passing i.u,
          paths := (branchTarget (s.grp i).pc i.u, (s.grp i).passing i.u) :: (s2.grp i).paths }) := by
  simp only [State.branch, if_neg h, if_neg hf]
  cases htop : (s.grp i).top with
  | none => rfl
  | some e =>
    have hne : (branchTarget (s.grp i).pc i.u == branchReconv (s.grp i).pc i.u && branchReconv (s.grp i).pc i.u == e.addr) = false := by
      rw [Bool.eq_false_iff]
      intro he
      simp only [Bool.and_eq_true, beq_iff_eq] at he
      exact hm ⟨e, htop, he.1, he.2⟩
    simp only [hne]
    rfl

/-- No entry holds a lane when the stack is empty. -/
theorem Group.top_of_empty {x : Group} (h : x.stack = []) : x.top = none := by
  simp only [Group.top, h, List.find?_nil]

end Branches

/-- Settles O9: a full stack takes no entry, and an empty one has no top, so both instructions answer their fault with the state as it was. -/
theorem stackLimits : Obligations.StackLimits := by
  unfold Obligations.StackLimits
  rintro g u s x rfl hp
  refine ⟨fun h hfall hfull hmeets => ⟨_, rfl, ?_⟩, fun h hempty => ⟨_, rfl, ?_⟩⟩
  · refine State.issue_of_fault h ?_
    rw [State.branch_of_not_meets hp hfall hmeets, State.pushEntry_full _ (by rwa [State.grp_diverged])]
    rfl
  · refine State.issue_of_fault h ?_
    simp only [if_neg hp, Group.top_of_empty hempty, Option.isNone_none, if_true]
    rfl

section Control

variable {s t : State} {i : Inst}

/-! Barriers move arrivals, stacked paths and places in the program only: a property of a group that a release keeps is kept. -/

/-- Two groups with the same threads and the same registers. -/
def Group.sameRegs (g h : Group) : Prop := h.live = g.live ∧ h.t = g.t ∧ h.u = g.u ∧ h.p = g.p

theorem Group.sameRegs_refl (g : Group) : g.sameRegs g := ⟨rfl, rfl, rfl, rfl⟩

theorem Group.sameRegs_trans {g h k : Group} (a : g.sameRegs h) (b : h.sameRegs k) : g.sameRegs k := by
  obtain ⟨a1, a2, a3, a4⟩ := a
  obtain ⟨b1, b2, b3, b4⟩ := b
  exact ⟨b1.trans a1, b2.trans a2, b3.trans a3, b4.trans a4⟩

theorem Group.sameRegs_of_placed {g h : Group} (e : g.placed h = g) : g.sameRegs h := by
  obtain ⟨-, -, hl, ht, hu, hp, -⟩ := Group.placed_ext e
  exact ⟨hl, ht, hu, hp⟩

theorem Group.sameRegs_settle (g : Group) : g.sameRegs g.settle :=
  Group.sameRegs_of_placed (Group.settle_placed g g)

theorem Group.sameRegs_release (g : Group) (p : Arrival → Bool) : g.sameRegs (g.release p) :=
  Group.sameRegs_settle _

/-! The barriers of a core, as a run of changes of its groups (R57, R58). -/

/-- Every occupied group changed. -/
def Core.mapGroups (k : Core) (f : Group → Group) : Core :=
  { k with groups := SMap.mapV {} k.groups fun _ g => if g.occupied then f g else g }

/-- What a relation must hold of to hold between a core and its barriers' outcome: each of them changes occupied groups by a release. -/
theorem Core.barriers_induct {P : Core → Core → Prop} (refl : ∀ k, P k k) (trans : ∀ {x y z}, P x y → P y z → P x z)
    (step : ∀ (k : Core) (f : Group → Group), (∀ g, f g = g ∨ ∃ p, f g = g.release p) → P k (k.mapGroups f)) (k : Core) :
    P k k.barriers := by
  have fold : ∀ (l : List Nat) (k : Core), P k (l.foldl (fun k n =>
      if k.barCoreReady n then k.mapGroups fun g => g.release fun a => a.number == some n else k) k) := by
    intro l
    induction l with
    | nil => exact refl
    | cons n l ih =>
      intro k
      refine trans ?_ (ih _)
      dsimp only
      split
      · exact step k _ fun g => Or.inr ⟨_, rfl⟩
      · exact refl k
  refine trans (step k Group.barGroupDone fun g => ?_) (fold _ _)
  unfold Group.barGroupDone
  split
  · exact Or.inr ⟨_, rfl⟩
  · exact Or.inl rfl

theorem Core.group_mapGroups (k : Core) (f : Group → Group) (j : Nat) :
    (k.mapGroups f).group j = if (k.group j).occupied then f (k.group j) else k.group j :=
  SMap.get_mapV _ _ _ _ rfl

/-- The barriers of a core leave every group its threads and registers. -/
theorem Core.sameRegs_barriers (k : Core) (j : Nat) : (k.group j).sameRegs (k.barriers.group j) := by
  refine Core.barriers_induct (P := fun x y => (x.group j).sameRegs (y.group j)) (fun _ => Group.sameRegs_refl _)
    Group.sameRegs_trans (fun k f hf => ?_) k
  rw [Core.group_mapGroups]
  split
  · obtain h | ⟨p, h⟩ := hf (k.group j)
    · rw [h]; exact Group.sameRegs_refl _
    · rw [h]; exact Group.sameRegs_release _ p
  · exact Group.sameRegs_refl _

theorem State.onlyCore_barriers (s : State) (c : Nat) : s.onlyCore (s.barriers c) c := s.onlyCore_setCore _ _

theorem State.sameRegs_barriers (s : State) (c j : Nat) :
    ((s.core c).group j).sameRegs (((s.barriers c).core c).group j) := by
  rw [State.barriers, State.updCore_eq, State.core_setCore_self]
  exact Core.sameRegs_barriers _ j

/-- A group that goes on keeps its threads and registers. -/
theorem State.sameRegs_advance (s : State) (i : Inst) (j : Nat) :
    ((s.core i.c).group j).sameRegs (((s.advance i).core i.c).group j) := by
  by_cases hj : j = i.slot
  · subst hj
    exact Group.sameRegs_of_placed (s.advance_placed i (s.grp i))
  · unfold State.advance
    dsimp only
    split
    · rw [State.group_setGrp, if_neg (Ne.symm hj)]
      exact Group.sameRegs_refl _
    · exact Group.sameRegs_refl _

/-! A pushed path of BRA, and CALL. -/

/-- Every instruction without operands takes one unit (R105). -/
theorem State.executes_noOperands_bytes {g : GroupRef} {u : Fields} (h : s.executes (inst g u) (noOperands u)) :
    (inst g u).bytes = 8 := by
  obtain ⟨-, -, -, -, hd, -⟩ := h
  cases he : u.ext with
  | none => simp [Inst.bytes, inst, he]
  | some x =>
    exfalso
    have ho : (noOperands u).ok = false := by simp [noOperands, he]
    simp only [State.defect, firstDefect, ho] at hd
    split at hd
    · cases hd
    · simp at hd

end Control

end Sys2Proof.Machine

namespace Sys2Proof.Machine

section ControlFlow

variable {s : State} {i : Inst}

/-- A divergent branch with room on the stack: the others go on, and the taking lanes wait on a stacked path (R51, R52). -/
theorem State.issue_branch_push {f : Form} (h : s.executes i f) (hp : (s.grp i).passing i.u ≠ 0)
    (hf : (s.grp i).active &&& ~~~(s.grp i).passing i.u ≠ 0) (hm : ¬ (s.grp i).meets i.u) (hl : (s.grp i).stack.length < 32) :
    s.onlyCore (s.issue i f fun s => s.branch i) i.c ∧
    ((s.issue i f fun s => s.branch i).core i.c).stackMax = Nat.max (s.core i.c).stackMax ((s.grp i).stack.length + 1) ∧
    (s.issue i f fun s => s.branch i).grp i = Group.settle { s.grp i with
      pc := (s.grp i).pc + i.bytes,
      active := (s.grp i).active &&& ~~~(s.grp i).passing i.u,
      paths := (branchTarget (s.grp i).pc i.u, (s.grp i).passing i.u) :: (s.grp i).paths,
      stack := { addr := branchReconv (s.grp i).pc i.u, mask := (s.grp i).active, isCall := false } :: (s.grp i).stack } := by
  have ho := State.executes_occupied h
  have hb := State.branch_of_not_meets hp hf hm
  obtain ⟨t, ht, hcore, hgrp, hmax⟩ := State.pushEntry_room (s := s.diverged i) (i := i)
    { addr := branchReconv (s.grp i).pc i.u, mask := (s.grp i).active, isCall := false } (by rwa [State.grp_diverged])
  rw [State.grp_diverged] at hgrp hmax
  rw [ht] at hb
  have hr := State.issue_of_next (act := fun s => s.branch i) h hb
  refine ⟨?_, ?_, ?_⟩
  · exact (State.issue_next_settles (act := fun s => s.branch i) h hb
      (State.onlyCore_trans (s.onlyCore_diverged i) (State.onlyCore_trans hcore (t.onlyCore_setGrp i _)))
      (by rw [State.grp_setGrp, hgrp]; exact ho)).1
  · rw [hr, (State.retire_fields _ i).1, State.core_setGrp, if_pos rfl, ← State.stackMax_diverged s i]
    exact hmax
  · rw [hr, State.retire_grp (by rw [State.grp_setGrp, hgrp]; exact ho), State.grp_setGrp, hgrp]

/-- CALL with room on the stack. -/
theorem State.issue_call {g : GroupRef} {u : Fields} (h : s.executes (inst g u) (callForm u))
    (hl : (s.grp (inst g u)).stack.length < 32) :
    ∃ t, exec (.call g u) s = .next t ∧ s.onlyCore t g.core ∧
      (t.core g.core).stackMax = Nat.max (s.core g.core).stackMax ((s.grp (inst g u)).stack.length + 1) ∧
      t.grp (inst g u) = Group.settle { s.grp (inst g u) with
        pc := branchTarget (s.grp (inst g u)).pc u,
        stack := { addr := (s.grp (inst g u)).pc + (inst g u).bytes, mask := (s.grp (inst g u)).active, isCall := true } ::
          (s.grp (inst g u)).stack } := by
  obtain ⟨t, ht, hcore, hgrp, hmax⟩ := State.pushEntry_room
    { addr := (s.grp (inst g u)).pc + (inst g u).bytes, mask := (s.grp (inst g u)).active, isCall := true } hl
  refine ⟨_, congrArg Host.Outcome.next (State.issue_of_jump
    (t := t.goTo (inst g u) { t.grp (inst g u) with pc := branchTarget (s.grp (inst g u)).pc u }) h ?_), ?_, ?_, ?_⟩
  · simp only [ht]
  · exact State.onlyCore_trans hcore (State.onlyCore_trans (t.onlyCore_setGrp _ _) (State.onlyCore_countIssue _ _))
  · refine Eq.trans ?_ hmax
    simp [State.countIssue, State.goTo, State.setGrp, Core.setGroup, Core.count, inst]
  · rw [State.grp_countIssue, State.goTo, State.grp_setGrp, hgrp]

/-- A group that goes on while the barriers of its core complete keeps its threads and registers, and so does every other. -/
theorem State.sameRegs_exit (s : State) (i : Inst) (j : Nat) :
    ((s.core i.c).group j).sameRegs (((((s.advance i).barriers i.c).countIssue i).core i.c).group j) := by
  rw [State.group_countIssue]
  exact Group.sameRegs_trans (s.sameRegs_advance i j) (State.sameRegs_barriers _ i.c j)

/-- The effect of EXIT. -/
def State.exitEffect (s : State) (i : Inst) : Effect :=
  .jump (((s.setGrp i ((s.grp i).remove ((s.grp i).passing i.u))).advance i).barriers i.c)

theorem State.exec_exit_eq (g : GroupRef) (u : Fields) (s : State) :
    exec (.exit g u) s = .next (s.issue (inst g u) (noOperands u) fun s => s.exitEffect (inst g u)) := rfl

/-- EXIT: its lanes leave the live mask; every other group keeps its threads, and all keep their registers (R53). -/
theorem State.issue_exit {f : Form} (h : s.executes i f) :
    s.onlyCore (s.issue i f fun s => s.exitEffect i) i.c ∧
      ((s.grp i).remove ((s.grp i).passing i.u)).sameRegs ((s.issue i f fun s => s.exitEffect i).grp i) ∧
      ∀ j, j ≠ i.slot → ((s.core i.c).group j).sameRegs (((s.issue i f fun s => s.exitEffect i).core i.c).group j) := by
  have kept := State.sameRegs_exit (s.setGrp i ((s.grp i).remove ((s.grp i).passing i.u))) i
  rw [State.issue_of_jump (act := fun s => s.exitEffect i) h rfl]
  refine ⟨?_, ?_, fun j hj => ?_⟩
  · exact State.onlyCore_trans (s.onlyCore_setGrp i _) (State.onlyCore_trans (State.onlyCore_advance _ i)
      (State.onlyCore_trans (State.onlyCore_barriers _ i.c) (State.onlyCore_countIssue _ i)))
  · have := kept i.slot
    rwa [State.group_setGrp, if_pos rfl] at this
  · have := kept j
    rwa [State.group_setGrp, if_neg (Ne.symm hj)] at this

end ControlFlow

/-- Settles O17: each instruction's effect is one change of its group, which then goes on, jumps or settles; RET and RECONV look for an
entry first. -/
theorem controlFlow : Obligations.ControlFlow := by
  unfold Obligations.ControlFlow
  refine ⟨fun g u s x taken fall target reconv h hx htaken hfall htarget hreconv => ?bra,
    fun g u s x m hx hm => ⟨fun h halign => ?bri, fun h hroom => ?call, fun h => ?plain⟩, fun g u s h => ?exit⟩
  case bra =>
    subst hx htaken hfall htarget hreconv
    refine ⟨_, rfl, fun h0 => ?_, fun h0 hf => ?_, fun h0 hf hm => ?_, fun h0 hf hm hl => ?_⟩
    · exact State.issue_idle_settles h (State.branch_of_none h0)
    · exact State.issue_goTo h (State.branch_of_all h0 hf)
    · have := State.issue_next_settles (act := fun s => s.branch (inst g u)) h (State.branch_of_meets h0 hf hm)
        (State.onlyCore_trans (s.onlyCore_diverged _) (State.onlyCore_setGrp _ _ _))
        (by rw [State.grp_setGrp]; exact State.executes_occupied h)
      rwa [State.grp_setGrp] at this
    · exact State.issue_branch_push h h0 hf hm hl
  case bri =>
    subst hx
    exact ⟨_, rfl, State.issue_goTo h (if_pos halign)⟩
  case call =>
    subst hx
    exact State.issue_call h hroom
  case plain =>
    subst hx hm
    have ho := State.executes_occupied h
    simp only [← State.executes_noOperands_bytes h]
    refine ⟨⟨_, rfl, ?_⟩, ⟨_, rfl, fun h0 => ?_, fun h0 hcall => ?_⟩, ⟨_, rfl, fun h0 => ?_, fun h0 htop => ?_⟩⟩
    · exact State.issue_idle_settles h rfl
    · exact State.issue_idle_settles h (if_pos h0)
    · refine State.issue_setGrp_settles (g := { s.grp (inst g u) with
        active := (s.grp (inst g u)).active &&& ~~~(s.grp (inst g u)).passing u,
        stack := returnFrom ((s.grp (inst g u)).passing u) (s.grp (inst g u)).stack }) h ?_ ho
      obtain ⟨e, he, hc, hmask⟩ := hcall
      have hany : ((s.grp (inst g u)).stack.any fun e => e.isCall && e.mask &&& (s.grp (inst g u)).passing u != 0) = true :=
        List.any_eq_true.2 ⟨e, he, by simpa [hc] using hmask⟩
      simp only [if_neg h0, hany]
      rfl
    · exact State.issue_idle_settles h (if_pos h0)
    · refine State.issue_setGrp_settles (g := { s.grp (inst g u) with
        active := (s.grp (inst g u)).active &&& ~~~(s.grp (inst g u)).passing u }) h ?_ ho
      have hsome : (s.grp (inst g u)).top.isNone = false := Option.isNone_eq_false_iff.2 (Option.isSome_iff_ne_none.2 htop)
      simp only [if_neg h0, hsome]
      rfl
  case exit =>
    obtain ⟨hcore, ⟨hl, hregs⟩, hothers⟩ := State.issue_exit h
    refine ⟨_, State.exec_exit_eq g u s, hcore, hl, fun j => ?_⟩
    obtain rfl | hne := eq_or_ne j g.slot.val
    · obtain ⟨ht, hu, hp⟩ := hregs
      exact ⟨ht, hu, hp, fun hn => absurd rfl hn⟩
    · obtain ⟨hl, ht, hu, hp⟩ := hothers j hne
      exact ⟨ht, hu, hp, fun _ => hl⟩

end Sys2Proof.Machine

/-! Faults of a core: where they are raised, and what a fault does when its context is gone (R60, R66, R67, R70, R105 to R107, R233). -/

namespace Sys2Proof.Machine

section Faults

variable {s : State}

/-- A logbook entry changes the logbook alone. -/
theorem State.note_rest (s : State) (e : LogItem) : { s.note e with log := s.log } = s := by
  unfold State.note State.logPut
  dsimp only
  split
  · rfl
  · split
    · rfl
    · split <;> rfl

@[simp] theorem State.note_core (s : State) (e : LogItem) (c : Nat) : (s.note e).core c = s.core c := by
  have h := congrArg (fun x : State => x.core c) (s.note_rest e)
  exact h

@[simp] theorem State.note_ctxById (s : State) (e : LogItem) (n : Nat) : (s.note e).ctxById n = s.ctxById n := by
  have h := congrArg (fun x : State => x.ctxById n) (s.note_rest e)
  exact h

/-- Nothing is left to tear down of a context that is gone (R436). -/
theorem State.tearContext_of_gone {ctx : Nat} (k : Cause) (h : s.ctxById ctx = none) : s.tearContext ctx k = s := by
  simp only [State.tearContext, h]

/-- The fault registers that a fault leaves (R67). -/
def FaultRep.registers (f : FaultRep) : CoreFault :=
  { valid := true, more := false, group := f.site.slot, detail := f.detail, kind := f.kind, pc := f.site.pc, active := f.site.active,
    live := f.site.live }

/-- A fault of a running or draining core whose context is gone stops that core alone (R66, R67). -/
theorem State.core_takeFault_of_gone {f : FaultRep} (hm : (s.core f.core).mode = .running ∨ (s.core f.core).mode = .draining)
    (hg : s.ctxById f.ctx = none) (c : Nat) :
    (s.takeFault f).core c =
      if c = f.core then { s.core c with mode := .faulted, mtxQ := [], dmaQ := [], fault := f.registers } else s.core c := by
  have hrun : ((s.core f.core).mode == .running || (s.core f.core).mode == .draining) = true := by
    simpa only [Bool.or_eq_true, beq_iff_eq] using hm
  have hgone : (s.setCore f.core { s.core f.core with mode := .faulted, mtxQ := [], dmaQ := [], fault := f.registers }).ctxById f.ctx = none :=
    hg
  simp only [State.takeFault, State.takeFaultAs, hrun, if_true]
  rw [State.tearContext_of_gone _ (by rw [State.note_ctxById]; exact hgone), State.note_core, State.core_setCore]
  obtain rfl | hc := eq_or_ne c f.core
  · rw [if_pos rfl, if_pos rfl]; rfl
  · rw [if_neg hc, if_neg hc.symm]

end Faults

/-- Settles O18: the two units and the two limits answer the fault of their rule at once, and a fault of a gone context finds nothing to
tear down. -/
theorem traps : Obligations.Traps := by
  unfold Obligations.Traps
  refine ⟨fun g u unlisted s h => ?unit, fun g s k hk hl => ⟨fun w hw hlim => ?mesh, fun w detail pc hlim hopen => ?wait⟩,
    fun s f hm hg c => State.core_takeFault_of_gone hm hg c⟩
  case unit => exact congrArg Host.Outcome.next (if_pos h)
  case mesh =>
    subst hk
    have hcond : ((s.core g.core).live && decide ((s.core g.core).watchLimit ≤ w.waited)) = true := by
      simp only [hl, hlim, decide_true, Bool.and_self]
    show Host.Outcome.next _ = _
    simp only [hw, hcond, if_true]
  case wait =>
    subst hk
    show Host.Outcome.next _ = _
    have hcond : ((s.core g.core).live && decide ((s.core g.core).watchLimit ≤
        SMap.get 0 ((s.core g.core).group g.slot).waits (waitKey w))) = true := by
      simp only [hl, hlim, decide_true, Bool.and_self]
    simp only [hcond, if_true, hopen]
    rfl

end Sys2Proof.Machine

/-! Engine tokens and the command queues of a core (R30, R62, R63, R79). -/

namespace Sys2Proof.Machine

section Queues

variable {s : State} {i : Inst}

/-! The matrix command queue: taking the columns of its drains changes no entry's number and no entry's work (R84). -/

theorem snapDrains_map {α : Type} (f : MtxEntry → α) (hf : ∀ (e : MtxEntry) (b : Bool) (cs), f { e with started := b, cols := cs } = f e)
    (acc : SMap Word) (q : List MtxEntry) : (snapDrains acc q).map f = q.map f := by
  induction q with
  | nil => rfl
  | cons e rest ih =>
    simp only [snapDrains]
    split
    · simp only [List.map_cons, ih]
    · split
      · simp only [List.map_cons, ih]
      · simp only [List.map_cons, ih, hf]
      · rfl

theorem Core.snap_ops (k : Core) : k.snap.mtxQ.map (·.op) = k.mtxQ.map (·.op) := snapDrains_map _ (fun _ _ _ => rfl) _ _

theorem Core.snap_uids (k : Core) : k.snap.mtxQ.map (·.uid) = k.mtxQ.map (·.uid) := snapDrains_map _ (fun _ _ _ => rfl) _ _

/-- A dropped entry's number stands nowhere in the queue. -/
theorem Core.uid_ne_of_mem_dropEntry_snap (k : Core) (y : MtxEntry) (slot : Nat) (x : Group) :
    ∀ z ∈ ((k.dropEntry y).setGroup slot x).snap.mtxQ, z.uid ≠ y.uid := by
  intro z hz
  have hu := List.mem_map_of_mem (f := MtxEntry.uid) hz
  rw [Core.snap_uids] at hu
  obtain ⟨w, hw, hwz⟩ := List.mem_map.1 hu
  rw [← hwz]
  simpa using (List.mem_filter.1 hw).2

/-- A matrix instruction, or a token of the matrix engine, enters the queue when there is room: nothing else of the engine changes. -/
theorem State.mtxEnter_room (op : MtxOp) (h : (s.core i.c).mtxQ.length < 16) :
    ∃ t, s.mtxEnter i op = .next t ∧ s.onlyCore t i.c ∧ t.grp i = s.grp i ∧
      (t.core i.c).mtxQ.map (·.op) = (s.core i.c).mtxQ.map (·.op) ++ [op] ∧ (t.core i.c).tile = (s.core i.c).tile ∧
      (t.core i.c).acc = (s.core i.c).acc ∧ (t.core i.c).plane0 = (s.core i.c).plane0 ∧ (t.core i.c).plane1 = (s.core i.c).plane1 := by
  refine ⟨_, by simp only [State.mtxEnter, if_neg (Nat.not_le.2 h)]; rfl, ?_⟩
  refine ⟨s.onlyCore_setCore _ _, State.grp_setCore_of_groups rfl, ?_⟩
  rw [State.updCore_eq, State.core_setCore_self, Core.snap_ops, List.map_append]
  exact ⟨rfl, rfl, rfl, rfl, rfl⟩

/-- The same for an entry of the DMA queue. -/
theorem State.dmaToken_room (isWait : Bool) (n : Nat) (h : (s.core i.c).dmaQ.length < 16) :
    ∃ t, s.queueToken i false isWait n = .next t ∧ s.onlyCore t i.c ∧ t.grp i = s.grp i ∧
      (t.core i.c).dmaQ.map (·.work) = (s.core i.c).dmaQ.map (·.work) ++ [if isWait then .tokWait n else .tokSet n] := by
  refine ⟨_, by simp only [State.queueToken, Bool.false_eq_true, if_false, if_neg (Nat.not_le.2 h)]; rfl, ?_⟩
  refine ⟨s.onlyCore_setCore _ _, State.grp_setCore_of_groups rfl, ?_⟩
  rw [State.updCore_eq, State.core_setCore_self, List.map_append]
  rfl

/-- An instruction that executes once per group, with an effect on its core that leaves its group to go on. -/
theorem State.onceIssue_core {t : State} {f : Form} {act : State → Effect} (h : s.executes i f) (hp : (s.grp i).passing i.u ≠ 0)
    (ha : act s = .next t) (ht : s.onlyCore t i.c) :
    s.onlyCore (s.onceIssue i f act) i.c ∧ ((s.onceIssue i f act).core i.c).mtxQ = (t.core i.c).mtxQ ∧
      ((s.onceIssue i f act).core i.c).dmaQ = (t.core i.c).dmaQ := by
  rw [State.onceIssue_eq_issue h hp, State.issue_of_next h ha]
  obtain ⟨-, hm, hd, -⟩ := t.retire_fields i
  exact ⟨State.onlyCore_trans ht (t.onlyCore_retire i), hm, hd⟩

/-- A token instruction of the matrix engine enters its queue (R30, R62). -/
theorem State.issue_mtxToken {f : Form} {act : State → Effect} {isWait : Bool} {n : Nat} (h : s.executes i f)
    (hp : (s.grp i).passing i.u ≠ 0) (ha : act s = s.queueToken i true isWait n) (hl : (s.core i.c).mtxQ.length < 16) :
    s.onlyCore (s.onceIssue i f act) i.c ∧
      ((s.onceIssue i f act).core i.c).mtxQ.map (·.op) = (s.core i.c).mtxQ.map (·.op) ++ [if isWait then .tokWait n else .tokSet n] := by
  obtain ⟨t, ht, hcore, -, hq, -⟩ := State.mtxEnter_room (if isWait then MtxOp.tokWait n else .tokSet n) hl
  obtain ⟨ho, hm, -⟩ := State.onceIssue_core h hp (ha.trans ht) hcore
  exact ⟨ho, by rw [hm, hq]⟩

/-- A token instruction of the DMA engine enters its queue (R30, R62). -/
theorem State.issue_dmaToken {f : Form} {act : State → Effect} {isWait : Bool} {n : Nat} (h : s.executes i f)
    (hp : (s.grp i).passing i.u ≠ 0) (ha : act s = s.queueToken i false isWait n) (hl : (s.core i.c).dmaQ.length < 16) :
    s.onlyCore (s.onceIssue i f act) i.c ∧
      ((s.onceIssue i f act).core i.c).dmaQ.map (·.work) =
        (s.core i.c).dmaQ.map (·.work) ++ [if isWait then .tokWait n else .tokSet n] := by
  obtain ⟨t, ht, hcore, -, hq⟩ := State.dmaToken_room isWait n hl
  obtain ⟨ho, -, hd⟩ := State.onceIssue_core h hp (ha.trans ht) hcore
  exact ⟨ho, by rw [hd, hq]⟩

/-- An instruction that executes once per group and changes its group: all but the place in the program is as its effect left it. -/
theorem State.onceIssue_setGrp {f : Form} {act : State → Effect} {g : Group} (h : s.executes i f) (hp : (s.grp i).passing i.u ≠ 0)
    (ha : act s = .next (s.setGrp i g)) :
    s.onlyGroup (s.onceIssue i f act) i ∧ g.placed ((s.onceIssue i f act).grp i) = g := by
  rw [State.onceIssue_eq_issue h hp]
  refine ⟨(State.issue_next h ha (State.touches_setGrp (s.touches_refl i) g)).1, ?_⟩
  rw [State.issue_of_next h ha, State.advance_placed, State.grp_countIssue, State.grp_setGrp]
  rfl

/-! Token counts. -/

theorem Group.token_addToken (x : Group) (n : Nat) (d : Int) (k : Nat) (h : 0 ≤ (x.token n : Int) + d) :
    ((x.addToken n d).token k : Int) = x.token k + if k = n then d else 0 := by
  simp only [Group.token, Group.addToken, SMap.get_set] at h ⊢
  obtain rfl | hk := eq_or_ne n k
  · rw [if_pos rfl, if_pos rfl, Int.toNat_of_nonneg h]
  · rw [if_neg hk, if_neg hk.symm, Int.add_zero]

/-- A core of which one group has changed, and of it one token: the rest of the core may differ outside its groups. -/
theorem State.movesToken_setCore {g : GroupRef} {n : Nat} {d : Int} {k : Core} {x : Group}
    (hk : k.groups = (s.core g.core).groups) (hx : x.tokens = ((s.core g.core).group g.slot).tokens)
    (h : 0 ≤ (((s.core g.core).group g.slot).token n : Int) + d) :
    s.movesToken (s.setCore g.core (k.setGroup g.slot (x.addToken n d))) g n d := by
  refine ⟨s.onlyCore_setCore _ _, fun j hj => ?_, fun m => ?_⟩
  · rw [State.core_setCore_self, Core.group_setGroup, if_neg (Ne.symm hj), Core.group, hk, Core.group]
  · have ht : ∀ j, x.token j = ((s.core g.core).group g.slot).token j := fun j => by rw [Group.token, hx, Group.token]
    rw [State.core_setCore_self, Core.group_setGroup_self, Group.token_addToken x n d m (by rwa [ht]), ht]

/-- Taking columns for drains moves no token. -/
theorem State.movesToken_snap {g : GroupRef} {n : Nat} {d : Int} {k : Core} (h : s.movesToken (s.setCore g.core k) g n d) :
    s.movesToken (s.setCore g.core k.snap) g n d := by
  obtain ⟨-, hj, hk⟩ := h
  rw [State.core_setCore_self] at hj hk
  refine ⟨s.onlyCore_setCore _ _, ?_, ?_⟩ <;> rw [State.core_setCore_self]
  · exact hj
  · exact hk

end Queues

end Sys2Proof.Machine

namespace Sys2Proof.Machine

section Tokens

variable {s : State} {g : GroupRef} {u : Fields} {i : Inst}

/-- What TOK.SET does, by its engine (R62). -/
theorem exec_tokSet_cases (g : GroupRef) (u : Fields) (s : State) :
    ∃ act, exec (.tokSet g u) s = .next (s.onceIssue (inst g u) (tokForm u) act) ∧
      (engineOf (u.bits 4 2) = .m → act s = s.queueToken (inst g u) true false (u.bits 0 4)) ∧
      (engineOf (u.bits 4 2) = .d → act s = s.queueToken (inst g u) false false (u.bits 0 4)) ∧
      (engineOf (u.bits 4 2) = .s ∨ engineOf (u.bits 4 2) = .v →
        ∃ reqs, act s = .next (s.setGrp (inst g u) { s.grp (inst g u) with
          sets := (s.grp (inst g u)).sets ++ [{ engine := engineOf (u.bits 4 2), token := u.bits 0 4, reqs }] })) := by
  refine ⟨_, rfl, fun he => ?_, fun he => ?_, fun he => ?_⟩
  · simp only [he]
  · simp only [he]
  · rcases he with he | he
    · exact ⟨_, by simp only [he]; rfl⟩
    · exact ⟨_, by simp only [he]; rfl⟩

/-- What TOK.WAIT does, by its engine (R62). -/
theorem exec_tokWait_cases (g : GroupRef) (u : Fields) (s : State) :
    ∃ act, exec (.tokWait g u) s = .next (s.onceIssue (inst g u) (tokForm u) act) ∧
      (engineOf (u.bits 4 2) = .m → act s = s.queueToken (inst g u) true true (u.bits 0 4)) ∧
      (engineOf (u.bits 4 2) = .d → act s = s.queueToken (inst g u) false true (u.bits 0 4)) ∧
      (engineOf (u.bits 4 2) = .s ∨ engineOf (u.bits 4 2) = .v →
        (1 ≤ SMap.get 0 (s.grp (inst g u)).tokens (u.bits 0 4) →
          act s = .next (s.setGrp (inst g u) ((s.grp (inst g u)).addToken (u.bits 0 4) (-1)))) ∧
        (¬ 1 ≤ SMap.get 0 (s.grp (inst g u)).tokens (u.bits 0 4) →
          ∃ pc, act s = .next (s.setGrp (inst g u) { s.grp (inst g u) with
            tokWaits := (s.grp (inst g u)).tokWaits ++ [(engineOf (u.bits 4 2), u.bits 0 4, pc)] }))) := by
  refine ⟨_, rfl, fun he => ?_, fun he => ?_, fun he => ?_⟩
  · simp only [he]
  · simp only [he]
  · rcases he with he | he
    · exact ⟨fun h1 => by simp only [he, if_pos h1], fun h0 => ⟨_, by simp only [he, if_neg h0]; rfl⟩⟩
    · exact ⟨fun h1 => by simp only [he, if_pos h1], fun h0 => ⟨_, by simp only [he, if_neg h0]; rfl⟩⟩

/-- What `placed` keeps of a group's tokens. -/
theorem Group.placed_tokens {x y : Group} (e : x.placed y = x) : y.tokens = x.tokens ∧ y.sets = x.sets ∧ y.tokWaits = x.tokWaits := by
  obtain ⟨-, -, -, -, -, -, h1, h2, h3, -⟩ := Group.placed_ext e
  exact ⟨h1, h2, h3⟩

/-- A count of at least 1 that a wait lowers. -/
theorem Group.tokens_addToken_neg (x : Group) (n k : Nat) :
    SMap.get 0 (x.addToken n (-1)).tokens k = SMap.get 0 x.tokens k - if k = n then 1 else 0 := by
  simp only [Group.addToken, SMap.get_set]
  obtain rfl | hk := eq_or_ne n k
  · rw [if_pos rfl, if_pos rfl]
    omega
  · rw [if_neg hk, if_neg hk.symm, Nat.sub_zero]

/-! TOK_SET_TAKES_EFFECT and TOK_WAIT_RELEASE, by engine. -/

/-- The group of a released wait: its watchdog count starts over and its token is lowered (R60, R62). -/
def Group.released (x : Group) (e : Engine) (n : Nat) : Group :=
  ({ x with waits := SMap.set 0 x.waits (waitKey (.tok e)) 0 } : Group).addToken n (-1)

theorem execTokSetTakesEffect_mtx {y : MtxEntry} {n : Nat}
    (h : (s.core g.core).mtxSetReady g.slot [] (s.core g.core).mtxQ = some (y, n)) :
    exec (.tokSetTakesEffect g .m) s = .next (s.setCore g.core
      ((((s.core g.core).dropEntry y).setGroup g.slot (((s.core g.core).group g.slot).addToken n 1)).snap)) := by
  show Host.Outcome.next _ = _
  simp only [h]

theorem execTokSetTakesEffect_dma {y : DmaEntry} {n : Nat}
    (h : (s.core g.core).dmaSetReady g.slot [] (s.core g.core).dmaQ = some (y, n)) :
    exec (.tokSetTakesEffect g .d) s = .next (s.setCore g.core
      (({ s.core g.core with dmaQ := (s.core g.core).dmaQ.filter fun z => z.uid != y.uid } : Core).setGroup g.slot
        (((s.core g.core).group g.slot).addToken n 1))) := by
  show Host.Outcome.next _ = _
  simp only [h]

theorem execTokSetTakesEffect_own {e : Engine} {y : TokSet} (he : e = .s ∨ e = .v)
    (h : ((s.core g.core).group g.slot).sets.find? (fun t => t.engine == e) = some y)
    (hr : ∀ r ∈ s.fab.reqs, r.id ∉ y.reqs) (hn : SMap.get 0 ((s.core g.core).group g.slot).tokens y.token ≠ 63) :
    exec (.tokSetTakesEffect g e) s = .next (s.setCore g.core ((s.core g.core).setGroup g.slot
      (({ (s.core g.core).group g.slot with sets := ((s.core g.core).group g.slot).sets.erase y } : Group).addToken y.token 1))) := by
  have hc : ((s.fab.reqs.any fun r => y.reqs.contains r.id) || SMap.get 0 ((s.core g.core).group g.slot).tokens y.token == 63) = false := by
    simpa using ⟨hr, hn⟩
  rcases he with rfl | rfl
  all_goals
    show Host.Outcome.next _ = _
    simp only [h, hc]
    rfl

theorem execTokWaitRelease_mtx {y : MtxEntry} {n : Nat} (h : (s.core g.core).mtxWaiting [] (s.core g.core).mtxQ = some (y, n))
    (hs : y.slot = g.slot.val) (hn : 1 ≤ SMap.get 0 ((s.core g.core).group g.slot).tokens n) :
    exec (.tokWaitRelease g .m) s = .next (s.setCore g.core
      ((((s.core g.core).dropEntry y).setGroup g.slot (((s.core g.core).group g.slot).released .m n)).snap)) := by
  show Host.Outcome.next _ = _
  simp only [h, hs, hn, decide_true, Bool.and_self, if_true]
  rfl

theorem execTokWaitRelease_dma {y : DmaEntry} {n : Nat} (h : (s.core g.core).dmaWaiting [] (s.core g.core).dmaQ = some (y, n))
    (hs : y.slot = g.slot.val) (hn : 1 ≤ SMap.get 0 ((s.core g.core).group g.slot).tokens n) :
    exec (.tokWaitRelease g .d) s = .next (s.setCore g.core
      (({ s.core g.core with dmaQ := (s.core g.core).dmaQ.filter fun z => z.uid != y.uid } : Core).setGroup g.slot
        (((s.core g.core).group g.slot).released .d n))) := by
  show Host.Outcome.next _ = _
  simp only [h, hs, hn, decide_true, Bool.and_self, if_true]
  rfl

theorem execTokWaitRelease_own {e : Engine} {y : Engine × Nat × DWord} (he : e = .s ∨ e = .v)
    (h : ((s.core g.core).group g.slot).tokWaits.find? (fun w => w.1 == e) = some y)
    (hn : 1 ≤ SMap.get 0 ((s.core g.core).group g.slot).tokens y.2.1) :
    exec (.tokWaitRelease g e) s = .next (s.setCore g.core ((s.core g.core).setGroup g.slot
      (({ (s.core g.core).group g.slot with tokWaits := ((s.core g.core).group g.slot).tokWaits.erase y } : Group).released e y.2.1))) := by
  rcases he with rfl | rfl
  all_goals
    show Host.Outcome.next _ = _
    simp only [h, if_pos hn]
    rfl

end Tokens

/-- Settles O29: an instruction that executes puts one entry at the end of its engine's stream, and the events change one group of the core
and of it one count. -/
theorem tokens : Obligations.Tokens := by
  unfold Obligations.Tokens
  refine ⟨fun g u s x e n h hx hp he hn => ?_, fun g s k x n hk hx => ?_⟩
  · subst hx hn
    obtain ⟨set, hset, setM, setD, setOwn⟩ := exec_tokSet_cases g u s
    obtain ⟨wait, hwait, waitM, waitD, waitOwn⟩ := exec_tokWait_cases g u s
    rw [← he] at setM setD setOwn waitM waitD waitOwn
    refine ⟨fun hm hl => ⟨⟨_, hset, ?_⟩, ⟨_, hwait, ?_⟩⟩, fun hd hl => ⟨⟨_, hset, ?_⟩, ⟨_, hwait, ?_⟩⟩,
      fun hsv => ⟨⟨_, hset, ?_⟩, ⟨_, hwait, ?_⟩⟩⟩
    · exact State.issue_mtxToken h hp (setM hm) hl
    · exact State.issue_mtxToken h hp (waitM hm) hl
    · exact State.issue_dmaToken h hp (setD hd) hl
    · exact State.issue_dmaToken h hp (waitD hd) hl
    · obtain ⟨reqs, ha⟩ := setOwn hsv
      obtain ⟨ho, hpl⟩ := State.onceIssue_setGrp h hp ha
      obtain ⟨ht, hs, -⟩ := Group.placed_tokens hpl
      exact ⟨ho, ht, by rw [hs, List.map_append]; rfl⟩
    · by_cases h1 : 1 ≤ SMap.get 0 (s.grp (inst g u)).tokens (u.bits 0 4)
      · obtain ⟨ho, hpl⟩ := State.onceIssue_setGrp h hp ((waitOwn hsv).1 h1)
        obtain ⟨ht, -, hw⟩ := Group.placed_tokens hpl
        exact ⟨ho, by rw [if_pos h1]; exact ⟨hw, fun k => by rw [ht, Group.tokens_addToken_neg]⟩⟩
      · obtain ⟨pc, ha⟩ := (waitOwn hsv).2 h1
        obtain ⟨ho, hpl⟩ := State.onceIssue_setGrp h hp ha
        obtain ⟨ht, -, hw⟩ := Group.placed_tokens hpl
        exact ⟨ho, by rw [if_neg h1]; exact ⟨ht, by rw [hw, List.map_append]; rfl⟩⟩
  · subst hk hx
    have up : 0 ≤ (((s.core g.core).group g.slot).token n : Int) + 1 := by omega
    refine ⟨fun y hy => ⟨_, execTokSetTakesEffect_mtx hy, ?_, ?_⟩, fun y hy => ⟨_, execTokSetTakesEffect_dma hy, ?_, ?_⟩,
      fun e y he hy hn hr h63 => ?_, fun h1 => ?_⟩
    · exact State.movesToken_snap (State.movesToken_setCore rfl rfl up)
    · rw [State.core_setCore_self]
      exact Core.uid_ne_of_mem_dropEntry_snap _ _ _ _
    · exact State.movesToken_setCore rfl rfl up
    · rw [State.core_setCore_self]
      intro z hz
      simpa using (List.mem_filter.1 hz).2
    · subst hn
      refine ⟨_, execTokSetTakesEffect_own he hy hr h63, State.movesToken_setCore rfl rfl up, ?_⟩
      rw [State.core_setCore_self, Core.group_setGroup_self]
      rfl
    · have down : 0 ≤ (((s.core g.core).group g.slot).token n : Int) + -1 := by
        have : 1 ≤ ((s.core g.core).group g.slot).token n := h1
        omega
      refine ⟨fun y hy hs => ⟨_, execTokWaitRelease_mtx hy hs h1, ?_, ?_⟩, fun y hy hs => ⟨_, execTokWaitRelease_dma hy hs h1, ?_, ?_⟩,
        fun e y he hy hn => ?_⟩
      · exact State.movesToken_snap (State.movesToken_setCore rfl rfl down)
      · rw [State.core_setCore_self]
        exact Core.uid_ne_of_mem_dropEntry_snap _ _ _ _
      · exact State.movesToken_setCore rfl rfl down
      · rw [State.core_setCore_self]
        intro z hz
        simpa using (List.mem_filter.1 hz).2
      · subst hn
        refine ⟨_, execTokWaitRelease_own he hy h1, State.movesToken_setCore rfl rfl down, ?_⟩
        rw [State.core_setCore_self, Core.group_setGroup_self]
        rfl

end Sys2Proof.Machine

/-! Matrix instructions (R55, R68, R79, R80). -/

namespace Sys2Proof.Machine

section MatrixIssue

variable {s : State} {i : Inst}

/-- A collective instruction whose mask is the live mask, or that is .PARTIAL, has its effect (R55). -/
theorem State.collective_eq_issue {f : Form} {cls : Nat} {part : Bool} {act : State → Mask → Effect} (h : s.executes i f)
    (hm : part = true ∨ (s.grp i).passing i.u = (s.grp i).live) :
    s.collective i f cls part act = s.issue i f fun s => act s ((s.grp i).passing i.u) := by
  have hc : (!part && (s.grp i).passing i.u != (s.grp i).live) = false := by
    rcases hm with hp | hp
    · rw [hp]; rfl
    · rw [hp, bne_self_eq_false, Bool.and_false]
  rw [State.collective, State.issue_executes s i h, State.issue_executes s i h]
  simp only [hc, Bool.false_eq_true, if_false]

/-- A matrix instruction whose checks pass enters the queue, and nothing else of the engine changes. -/
theorem State.mtxIssue_enters {f : Form} {sound : State → Bool} {op : State → MtxOp} (h : s.executes i f)
    (hl : (s.grp i).passing i.u = (s.grp i).live) (ha : (s.core i.c).arrayOff = false) (hs : sound s = true)
    (hq : (s.core i.c).mtxQ.length < 16) :
    s.onlyCore (s.mtxIssue i f sound op) i.c ∧
      ((s.mtxIssue i f sound op).core i.c).mtxQ.map (·.op) = (s.core i.c).mtxQ.map (·.op) ++ [op s] ∧
      ((s.mtxIssue i f sound op).core i.c).tile = (s.core i.c).tile ∧ ((s.mtxIssue i f sound op).core i.c).acc = (s.core i.c).acc ∧
      ((s.mtxIssue i f sound op).core i.c).plane0 = (s.core i.c).plane0 ∧
      ((s.mtxIssue i f sound op).core i.c).plane1 = (s.core i.c).plane1 := by
  obtain ⟨t, ht, hcore, -, hops, htile, hacc, hp0, hp1⟩ := State.mtxEnter_room (op s) hq
  rw [State.mtxIssue, State.collective_eq_issue h (Or.inr hl), State.issue_of_next h (t := t)]
  · obtain ⟨-, m, -, ti, ac, p0, p1, -⟩ := t.retire_fields i
    exact ⟨State.onlyCore_trans hcore (t.onlyCore_retire i), by rw [m, hops], ti.trans htile, ac.trans hacc, p0.trans hp0, p1.trans hp1⟩
  · simp only [ha, hs, Bool.not_true, Bool.false_eq_true, if_false]
    exact ht

end MatrixIssue

/-- Settles O24: the three instructions differ in their forms and their entries only. -/
theorem matrixInstructionsEnterQueue : Obligations.MatrixInstructionsEnterQueue := by
  unfold Obligations.MatrixInstructionsEnterQueue
  rintro g u s ua ub uc rfl rfl rfl hl ha hq
  simp only [List.forall_mem_cons]
  refine ⟨fun h hs => ⟨_, rfl, ?_⟩, fun h hs => ⟨_, rfl, ?_⟩, fun h hs => ⟨_, rfl, ?_⟩, List.forall_mem_nil _⟩
  · exact State.mtxIssue_enters h hl ha hs hq
  · exact State.mtxIssue_enters h hl ha hs hq
  · exact State.mtxIssue_enters h hl ha hs hq

end Sys2Proof.Machine

/-! The life of a core: filling its slots, and the end of a group (R35, R48, R57 to R59, R64, R66, R87). -/

namespace Sys2Proof.Machine

section Lifecycle

variable {s : State}

/-- Barriers leave an empty slot empty. -/
theorem Core.group_barriers_of_empty {k : Core} {j : Nat} (h : (k.group j).occupied = false) : k.barriers.group j = k.group j := by
  refine Core.barriers_induct (P := fun x y => (x.group j).occupied = false → y.group j = x.group j) (fun _ _ => rfl)
    (fun a b h => ?_) (fun k f _ h => ?_) k h
  · rw [b (by rw [a h]; exact h), a h]
  · rw [Core.group_mapGroups, h]
    rfl

/-- Barriers change the groups of a core alone. -/
theorem Core.barriers_shape (k : Core) : ∃ groups, k.barriers = { k with groups } := by
  refine Core.barriers_induct (P := fun x y => ∃ groups, y = { x with groups }) (fun k => ⟨k.groups, rfl⟩) ?_ (fun _ _ _ => ⟨_, rfl⟩) k
  rintro x _ _ ⟨a, rfl⟩ ⟨b, rfl⟩
  exact ⟨b, rfl⟩

/-! A core that has completed: its launch counts one core less, and nothing else changes. -/

theorem State.coreDone_rest (s : State) (c : Nat) : { s.coreDone c with work := s.work } = s := by
  unfold State.coreDone
  dsimp only
  split
  · rfl
  · rfl

@[simp] theorem State.coreDone_core (s : State) (c d : Nat) : (s.coreDone c).core d = s.core d := by
  have h := congrArg (fun x : State => x.core d) (s.coreDone_rest c)
  exact h

@[simp] theorem State.coreDone_store (s : State) (c : Nat) : (s.coreDone c).store = s.store := by
  have h := congrArg State.store (s.coreDone_rest c)
  exact h

/-- The last group of a share: of its core only the state may change. -/
theorem State.coreCompletion_core (s : State) (c d : Nat) :
    (s.coreCompletion c).core d = { s.core d with mode := ((s.coreCompletion c).core d).mode } ∧
      (d ≠ c → (s.coreCompletion c).core d = s.core d) := by
  unfold State.coreCompletion
  dsimp only
  split
  · rw [State.coreDone_core, State.core_setCore]
    obtain rfl | hd := eq_or_ne c d
    · rw [if_pos rfl]; exact ⟨rfl, fun h => absurd rfl h⟩
    · rw [if_neg hd]; exact ⟨rfl, fun _ => rfl⟩
  · exact ⟨rfl, fun _ => rfl⟩

theorem State.coreCompletion_store (s : State) (c : Nat) : (s.coreCompletion c).store = s.store := by
  unfold State.coreCompletion
  dsimp only
  split
  · rw [State.coreDone_store, State.setCore_store]
  · rfl

/-! Filling slots (R35). -/

/-- The thread indices of a group that starts stand in t0 and t1, and nothing else changes (R112). -/
theorem setIndices_rest (index w : Nat) (l : List Nat) (g : Group) :
    { l.foldl (fun (g : Group) l => (g.setT l 0 (BitVec.ofNat 32 (index * w + l))).setT l 1 (BitVec.ofNat 32 l)) g with t := g.t } = g := by
  induction l generalizing g with
  | nil => rfl
  | cons a l ih =>
    have h := congrArg (fun x : Group => { x with t := g.t })
      (ih ((g.setT a 0 (BitVec.ofNat 32 (index * w + a))).setT a 1 (BitVec.ofNat 32 a)))
    exact h

/-- A group that starts occupies its slot under its index, with no token set (R35, R62). -/
theorem Core.newGroup_fields (k : Core) (index : Nat) :
    (k.newGroup index).occupied = true ∧ (k.newGroup index).index = index ∧ (k.newGroup index).tokens = [] := by
  have h := fun live : Mask => setIndices_rest index k.W (List.range k.W)
    { occupied := true, index, pc := BitVec.ofNat 64 k.kernel.entry, active := live, live }
  exact ⟨congrArg Group.occupied (h _), congrArg Group.index (h _), congrArg Group.tokens (h _)⟩

theorem Core.fillSlot_of_none {k : Core} {slot : Nat} (h : k.share.groups ≤ k.share.placed) : k.fillSlot slot = k := by
  rw [Core.fillSlot, if_pos (by simp [h])]

theorem Core.fillSlot_of_some {k : Core} {slot : Nat} (he : (k.group slot).occupied = false) (h : k.share.placed < k.share.groups) :
    k.fillSlot slot = ({ k with share := { k.share with placed := k.share.placed + 1 } } : Core).setGroup slot
      (k.newGroup (k.share.first + k.share.placed)) := by
  rw [Core.fillSlot, if_neg (by simp [he, h])]

/-- Filling slots changes the groups and the count of placed groups alone. -/
theorem Core.fillSlots_shape (l : List Nat) (k : Core) :
    ∃ groups placed, l.foldl Core.fillSlot k = { k with groups, share := { k.share with placed } } := by
  induction l generalizing k with
  | nil => exact ⟨k.groups, k.share.placed, rfl⟩
  | cons a l ih =>
    obtain ⟨groups, placed, h⟩ := ih (k.fillSlot a)
    refine ⟨groups, placed, h.trans ?_⟩
    unfold Core.fillSlot
    split
    · rfl
    · rfl

/-- The first `n` slots of a core without groups: the next groups of the share stand in them, in order. -/
theorem Core.fillSlots_range {k : Core} (h : k.groups = []) (n : Nat) :
    ((List.range n).foldl Core.fillSlot k).share.placed = k.share.placed + Nat.min n (k.share.groups - k.share.placed) ∧
    ∀ j, (j < Nat.min n (k.share.groups - k.share.placed) →
        (((List.range n).foldl Core.fillSlot k).group j).occupied = true ∧
        (((List.range n).foldl Core.fillSlot k).group j).index = k.share.first + k.share.placed + j) ∧
      (n ≤ j → (((List.range n).foldl Core.fillSlot k).group j).occupied = false) := by
  induction n with
  | zero => exact ⟨by simp, fun j => ⟨fun hj => by simp at hj, fun _ => by simp [Core.group, h]⟩⟩
  | succ n ih =>
    obtain ⟨groups, placed, hshape⟩ := Core.fillSlots_shape (List.range n) k
    simp only [List.range_succ, List.foldl_append, List.foldl_cons, List.foldl_nil]
    generalize (List.range n).foldl Core.fillSlot k = x at ih hshape
    obtain ⟨hplaced, hgroups⟩ := ih
    have hg : x.share.groups = k.share.groups := by rw [hshape]
    have hf : x.share.first = k.share.first := by rw [hshape]
    by_cases hroom : n < k.share.groups - k.share.placed
    · have hmin : Nat.min n (k.share.groups - k.share.placed) = n := Nat.min_eq_left (Nat.le_of_lt hroom)
      have hmin' : Nat.min (n + 1) (k.share.groups - k.share.placed) = n + 1 := Nat.min_eq_left hroom
      rw [hmin] at hplaced hgroups
      rw [hmin', Core.fillSlot_of_some ((hgroups n).2 (Nat.le_refl n)) (by omega)]
      refine ⟨by show x.share.placed + 1 = _; omega, fun j => ?_⟩
      rw [Core.group_setGroup]
      obtain rfl | hj := eq_or_ne n j
      · rw [if_pos rfl]
        obtain ⟨ho, hi, -⟩ := x.newGroup_fields (x.share.first + x.share.placed)
        exact ⟨fun _ => ⟨ho, by omega⟩, fun hle => by omega⟩
      · rw [if_neg hj]
        exact ⟨fun hlt => (hgroups j).1 (by omega), fun hle => (hgroups j).2 (by omega)⟩
    · have hmin : Nat.min n (k.share.groups - k.share.placed) = k.share.groups - k.share.placed := Nat.min_eq_right (by omega)
      have hmin' : Nat.min (n + 1) (k.share.groups - k.share.placed) = k.share.groups - k.share.placed := Nat.min_eq_right (by omega)
      rw [hmin] at hplaced hgroups
      rw [hmin', Core.fillSlot_of_none (by omega)]
      exact ⟨hplaced, fun j => ⟨(hgroups j).1, fun hle => (hgroups j).2 (by omega)⟩⟩

end Lifecycle

end Sys2Proof.Machine

namespace Sys2Proof.Machine

section CoreEvents

variable {s : State}

theorem State.orphanStores_store (s : State) (c slot : Nat) : (s.orphanStores c slot).store = s.store := rfl

/-- Stores that lose their group: of the cores only the write buffer of one changes (R176). -/
theorem State.orphanStores_core (s : State) (c slot : Nat) :
    ∃ wb, ∀ d, (s.orphanStores c slot).core d = if c = d then { s.core c with wb } else s.core d := by
  let wb := (s.core c).wb.map fun e => { e with groups := e.groups.map fun g => if g = slot then 128 else g }
  exact ⟨wb, fun d => (State.core_of_cores (y := s.setCore c { s.core c with wb }) rfl d).trans (s.core_setCore c _ d)⟩

theorem Core.barriers_fields (k : Core) : k.barriers.mode = k.mode ∧ k.barriers.share = k.share := by
  obtain ⟨groups, h⟩ := k.barriers_shape
  rw [h]
  exact ⟨rfl, rfl⟩

/-- GROUP_END of a group that is done: its slot is emptied and its barriers complete, and then the slot takes the next group while the
core runs (R35, R58, R59). -/
theorem State.exec_groupEnd {g : GroupRef} (h : s.groupDone g.core g.slot = true) :
    ∃ (t : State) (k : Core), exec (.groupEnd g) s = .next t ∧ t.store = s.store ∧ (∀ d, d ≠ g.core.val → t.core d = s.core d) ∧
      k.mode = (s.core g.core).mode ∧ k.share = (s.core g.core).share ∧ k.group g.slot = {} ∧
      t.core g.core = { (if k.mode = .running then k.fillSlot g.slot else k) with mode := (t.core g.core).mode } := by
  obtain ⟨wb, hx⟩ := s.orphanStores_core g.core g.slot
  have hstore := s.orphanStores_store g.core g.slot
  have hexec : exec (.groupEnd g) s = .next (((((s.orphanStores g.core g.slot).updCore g.core fun k => k.setGroup g.slot {}).barriers
      g.core).updCore g.core fun k => if k.mode = .running then k.fillSlot g.slot else k).coreCompletion g.core) := by
    show Host.Outcome.next _ = _
    simp only [h, Bool.not_true, Bool.false_eq_true, if_false]
  generalize s.orphanStores g.core g.slot = x at hx hstore hexec
  have hxc : x.core g.core = { s.core g.core with wb } := (hx _).trans (if_pos rfl)
  refine ⟨_, ((x.core g.core).setGroup g.slot {}).barriers, hexec, ?_, fun d hd => ?_, ?_, ?_, ?_, ?_⟩
  · rw [State.coreCompletion_store, ← hstore]
    simp only [State.updCore_eq, State.barriers, State.setCore_store]
  · rw [((State.coreCompletion_core _ _ d).2 hd)]
    simp only [State.updCore_eq, State.barriers, State.core_setCore, if_neg hd.symm, hx d]
  · rw [(Core.barriers_fields _).1, hxc]
    rfl
  · rw [(Core.barriers_fields _).2, hxc]
    rfl
  · rw [Core.group_barriers_of_empty (by rw [Core.group_setGroup_self]), Core.group_setGroup_self]
  · have hc := (State.coreCompletion_core (((x.updCore g.core fun k => k.setGroup g.slot {}).barriers g.core).updCore g.core
      fun k => if k.mode = .running then k.fillSlot g.slot else k) g.core g.core).1
    simp only [State.updCore_eq, State.barriers, State.core_setCore_self] at hc ⊢
    exact hc

/-! Starting a core (R35, R66). -/

/-- A core that begins to run fills its slots and changes neither its tile memory nor its engines. -/
theorem Core.run_fields {k : Core} (h : k.groups = []) :
    k.run.mode = .running ∧ k.run.kernel = k.kernel ∧ k.run.tile = k.tile ∧ k.run.acc = k.acc ∧ k.run.plane0 = k.plane0 ∧
      k.run.plane1 = k.plane1 ∧ k.run.utlb = k.utlb ∧
      k.run.share.placed = k.share.placed + Nat.min k.slots (k.share.groups - k.share.placed) ∧
      ∀ j, j < Nat.min k.slots (k.share.groups - k.share.placed) →
        (k.run.group j).occupied = true ∧ (k.run.group j).index = k.share.first + k.share.placed + j := by
  obtain ⟨hplaced, hgroups⟩ := Core.fillSlots_range
    (k := { k with mode := .running, lastCtx := some (k.context, k.partition) }) h k.slots
  obtain ⟨groups, placed, hshape⟩ := Core.fillSlots_shape (List.range k.slots)
    { k with mode := .running, lastCtx := some (k.context, k.partition) }
  have hrun : k.run = { k with mode := .running, lastCtx := some (k.context, k.partition), groups, share := { k.share with placed } } :=
    hshape
  exact ⟨by rw [hrun], by rw [hrun], by rw [hrun], by rw [hrun], by rw [hrun], by rw [hrun], by rw [hrun], hplaced,
    fun j hj => (hgroups j).1 hj⟩

/-- A core as its start event finds it ready: the header of its kernel is read and its share begins anew (R66). -/
def State.started (s : State) (c : Nat) : Core :=
  { s.core c with kernel := headerInfo (s.physBytes (s.core c).kernelBase 256), share := { (s.core c).share with placed := 0 }, groups := [] }

/-- The start event of an idle core with a sound configuration and a share (R48, R66). -/
theorem State.startCore_of_idle {c : Nat} (hm : (s.core c).mode = .idle) (hcfg : (s.core c).cfgOk = true)
    (hg : (s.core c).share.groups ≠ 0) :
    s.startCore c = if (s.core c).lastCtx = some ((s.core c).context, (s.core c).partition) then s.setCore c (s.started c).run
      else s.setCore c { s.started c with mode := .clearing, clearCount := 0, stopPending := false } := by
  have hidle : ((s.core c).mode != .idle) = false := by rw [hm]; rfl
  simp only [State.startCore, hidle, hcfg, hg, Bool.not_true, Bool.false_eq_true, if_false]
  rfl

/-- The teardown of a core with no buffered store: the core is idle and empty, and memory stands (R66, R183). -/
theorem State.teardownCore_of_empty {c : Nat} (hm : (s.core c).mode ≠ .idle) (hwb : (s.core c).wb = []) :
    ∃ x : State, x.cores = s.cores ∧ x.store = s.store ∧ s.teardownCore c true = x.setCore c { s.core c with
      mode := .idle, stopPending := false, clearCount := 0, groups := [], mtxQ := [], dmaQ := [], wb := [],
      fault := { (s.core c).fault with valid := false }, router := (s.core c).router.halt, share := {} } := by
  refine ⟨State.cancelRows { s with fab := { s.fab with reqs := s.fab.reqs.filter fun r => !r.dropsWith c true } } c, rfl, rfl, ?_⟩
  simp only [State.teardownCore, hm, hwb, if_false, List.foldl_nil, ite_self]

end CoreEvents

/-- Settles O10: the slot of a group that is done is empty, or holds a group that starts, which has no token. -/
theorem tokensDiscarded : Obligations.TokensDiscarded := by
  unfold Obligations.TokensDiscarded
  intro g s h
  obtain ⟨t, k, hexec, -, -, -, -, hk, hcore⟩ := State.exec_groupEnd h
  refine ⟨t, hexec, fun n => ?_⟩
  have hg : ((t.core g.core).group g.slot).tokens = [] := by
    rw [hcore]
    show ((if k.mode = .running then k.fillSlot g.slot else k).group g.slot).tokens = []
    split
    · unfold Core.fillSlot
      split
      · rw [hk]
      · rw [Core.group_setGroup_self]
        exact (Core.newGroup_fields k _).2.2
    · rw [hk]
  rw [Group.token, hg]
  rfl

/-- Settles O32: each event of a core is one change of that core, and the filling of its slots places the groups of the share in order. -/
theorem coresAndGroups : Obligations.CoresAndGroups := by
  unfold Obligations.CoresAndGroups
  refine ⟨fun c s k hk => ⟨fun hm hcfg hg => ?start, ⟨_, rfl, s.onlyCore_setCore _ _, ?stop⟩, fun hm hwb => ?teardown,
    fun hm hcount => ?clear, fun hm hq hd hr => ?drain⟩, fun g s k hk hdone hrun => ?groupEnd⟩
  case start =>
    subst hk
    refine ⟨_, rfl, ?_⟩
    rw [State.startCore_of_idle hm hcfg hg]
    split
    · obtain ⟨hmode, hkernel, htile, -, -, -, -, hplaced, hgroups⟩ := (s.started c).run_fields rfl
      refine ⟨s.onlyCore_setCore _ _, ?_⟩
      rw [State.core_setCore_self]
      have hslots : Nat.min (s.started c).slots ((s.started c).share.groups - (s.started c).share.placed) =
          Nat.min (s.core c).slots (s.core c).share.groups := rfl
      rw [hslots] at hplaced hgroups
      exact ⟨hkernel, hmode, hplaced.trans (Nat.zero_add _), htile, hgroups⟩
    · refine ⟨s.onlyCore_setCore _ _, ?_⟩
      rw [State.core_setCore_self]
      exact ⟨rfl, rfl, rfl⟩
  case stop =>
    rw [State.updCore_eq, State.core_setCore_self, hk]
    rfl
  case teardown =>
    subst hk
    obtain ⟨x, hcores, hstore, ht⟩ := State.teardownCore_of_empty hm hwb
    refine ⟨_, congrArg Host.Outcome.next ht, ?_⟩
    rw [State.core_setCore_self]
    refine ⟨rfl, rfl, rfl, rfl, rfl, fun d hd => ?_, hstore⟩
    rw [State.core_setCore, if_neg hd.symm, State.core_of_cores hcores]
  case clear =>
    subst hk
    have hcond : ((s.core c).mode != .clearing || decide ((s.core c).clearCount < 8192)) = false := by
      rw [hm]
      simpa using hcount
    split
    · next hp =>
      refine ⟨((s.setCore c { (s.core c).cleared with mode := .idle, stopPending := false, clearCount := 0 }).coreDone c), ?_, ?_⟩
      · show Host.Outcome.next _ = _
        simp only [hcond, hp, Bool.false_eq_true, if_false, if_true]
      · rw [State.coreDone_core, State.core_setCore_self]
        exact ⟨fun d hd => by rw [State.coreDone_core, State.core_setCore, if_neg hd.symm], rfl, rfl, rfl, rfl, rfl, rfl, rfl⟩
    · next hp =>
      obtain ⟨hmode, -, htile, hacc, hp0, hp1, htlb, hplaced, -⟩ := Core.run_fields (k := { (s.core c).cleared with clearCount := 0 }) rfl
      refine ⟨s.setCore c ({ (s.core c).cleared with clearCount := 0 } : Core).run, ?_, ?_⟩
      · show Host.Outcome.next _ = _
        simp only [hcond, hp, Bool.false_eq_true, if_false]
      · simp only [State.core_setCore_self]
        exact ⟨fun d hd => by rw [State.core_setCore, if_neg hd.symm], htile, hacc, hp0, hp1, htlb, hmode, hplaced⟩
  case drain =>
    subst hk
    refine ⟨(s.setCore c { s.core c with mode := .idle, groups := [] }).coreDone c, ?_, fun d hd => ?_, ?_⟩
    · show Host.Outcome.next _ = _
      simp only [hm, hq, hd, hr, beq_self_eq_true, List.isEmpty_nil, Bool.not_false, Bool.and_self, if_true]
    · rw [State.coreDone_core, State.core_setCore, if_neg hd.symm]
    · rw [State.coreDone_core, State.core_setCore_self]
  case groupEnd =>
    subst hk
    obtain ⟨t, k, hexec, hstore, hother, hmode, hshare, hslot, hcore⟩ := State.exec_groupEnd hdone
    refine ⟨t, hexec, hstore, hother, ?_⟩
    rw [hmode, if_pos hrun] at hcore
    have hempty : (k.group g.slot).occupied = false := by rw [hslot]
    rw [← hshare]
    split
    · next hlt =>
      rw [Core.fillSlot_of_some hempty hlt] at hcore
      obtain ⟨ho, hi, -⟩ := k.newGroup_fields (k.share.first + k.share.placed)
      have hgrp : (t.core g.core).group g.slot = k.newGroup (k.share.first + k.share.placed) := by
        rw [hcore]
        exact Core.group_setGroup_self _ _ _
      exact ⟨by rw [hgrp, ho], by rw [hgrp, hi], by rw [hcore]; rfl⟩
    · next hlt =>
      rw [Core.fillSlot_of_none (Nat.not_lt.1 hlt)] at hcore
      rw [hcore]
      exact hempty

end Sys2Proof.Machine

/-! Collectives (R55, R56, R124, R126, R127). -/

namespace Sys2Proof.Machine

section Collectives

variable {s : State} {i : Inst}

/-- An instruction that executes has passed the checks of R107: no field has a defect. -/
theorem State.executes_no_defect {f : Form} (h : s.executes i f) {d : Nat} (hd : d = 2 ∨ d = 3 ∨ d = 7 ∨ d = 6) {x : Slot}
    (hx : x ∈ f.slots) : d ∉ x.defect (s.core i.c).R (s.core i.c).uniforms := by
  obtain ⟨-, -, -, -, hdef, -⟩ := h
  intro hmem
  have hall : (f.slots.flatMap (Slot.defect (s.core i.c).R (s.core i.c).uniforms)).contains d = true := by
    rw [List.contains_iff_mem]
    exact List.mem_flatMap.2 ⟨x, hx, hmem⟩
  unfold State.defect firstDefect at hdef
  dsimp only at hdef
  rcases hd with rfl | rfl | rfl | rfl <;> simp only [hall, Bool.or_true, if_true] at hdef <;> split_ifs at hdef

/-- A pair of registers begins at an even number (R107). -/
theorem State.executes_pair_even {f : Form} (h : s.executes i f) {v : Nat} (hx : Slot.t v 2 ∈ f.slots) : v % 2 = 0 := by
  have h7 := State.executes_no_defect h (d := 7) (by simp) hx
  by_contra hne
  have hodd : v % 2 = 1 := by omega
  exact h7 (by simp [Slot.defect, hodd])

/-- Two writes of t registers, one after the other. -/
theorem State.grp_putT (m : Mask) (d : Nat) (v : Nat → Word) :
    (s.putT i m d v).grp i = (lanesOf m).foldl (fun g l => g.setT l d (v l)) (s.grp i) := s.grp_setGrp i _

theorem State.touches_putT {t : State} (h : s.touches t i) (m : Mask) (d : Nat) (v : Nat → Word) : s.touches (t.putT i m d v) i :=
  State.touches_setGrp h _

/-- A collective instruction that writes t[d] of the taking lanes. -/
theorem State.collective_putT {f : Form} {cls : Nat} {part : Bool} {act : State → Mask → Effect} {m : Mask} {v : Nat → Word}
    (h : s.executes i f) (hm : m = (s.grp i).passing i.u) (hp : part = true ∨ m = (s.grp i).live)
    (ha : act s m = .next (s.putT i m i.u.d.toNat v)) : s.retiresT (s.collective i f cls part act) i m v := by
  subst hm
  rw [State.collective_eq_issue h hp]
  exact State.issue_putT h ha

/-- A collective instruction that writes p[d] of the taking lanes. -/
theorem State.collective_putP {f : Form} {cls : Nat} {part : Bool} {act : State → Mask → Effect} {m : Mask} {v : Nat → Bool}
    (h : s.executes i f) (hm : m = (s.grp i).passing i.u) (hp : part = true ∨ m = (s.grp i).live)
    (ha : act s m = .next (s.putP i m i.u.d.toNat v)) : s.retiresP (s.collective i f cls part act) i m v := by
  subst hm
  rw [State.collective_eq_issue h hp]
  exact State.issue_putP h ha

/-- A collective instruction that writes a pair of t registers of the taking lanes: the first holds `v`, the second `w` (TALLY LANEMASK). -/
theorem State.collective_putPair {f : Form} {cls : Nat} {part : Bool} {act : State → Mask → Effect} {m : Mask} {v w : Nat → Word}
    (h : s.executes i f) (hm : m = (s.grp i).passing i.u) (hp : part = true ∨ m = (s.grp i).live)
    (heven : i.u.d.toNat % 2 = 0) (ha : act s m = .next ((s.putT i m i.u.d.toNat v).putT i m (i.u.d.toNat + 1) w)) :
    s.onlyGroup (s.collective i f cls part act) i ∧
    (s.grp i).placed ((s.collective i f cls part act).grp i) = { s.grp i with t := ((s.collective i f cls part act).grp i).t } ∧
    ∀ lane n, lane < 64 → n < 256 → ((s.collective i f cls part act).grp i).getT lane n =
      if m.getLsbD lane ∧ n = i.u.d.toNat then v lane
      else if m.getLsbD lane ∧ n = i.u.d.toNat + 1 then w lane
      else (s.grp i).getT lane n := by
  subst hm
  rw [State.collective_eq_issue h hp]
  obtain ⟨ho, hpl⟩ := State.issue_next (act := fun s => act s ((s.grp i).passing i.u)) h ha
    (State.touches_putT (State.touches_putT (s.touches_refl i) _ _ _) _ _ _)
  generalize s.issue i f (fun s => act s ((s.grp i).passing i.u)) = r at ho hpl
  rw [State.grp_putT, State.grp_putT] at hpl
  have ht := (Group.placed_inj hpl).1
  refine ⟨ho, ?_, fun lane n hl hn => ?_⟩
  · rw [hpl, ht, Group.putT_t, Group.putT_t]
    rfl
  · have hd : i.u.d.toNat < 256 := i.u.d.isLt
    rw [Group.getT, ht, ← Group.getT, Group.putT_get _ (nodup_lanesOf _) _ _ _ _ _ hn (by omega),
      Group.putT_get _ (nodup_lanesOf _) _ _ _ _ _ hn hd]
    simp only [mem_lanesOf, hl, true_and]
    by_cases h1 : n = i.u.d.toNat
    · simp [h1]
    · simp [h1, and_comm]

/-- The counter of free values is read by no end of an instruction. -/
theorem State.retire_free (t : State) (n : Nat) :
    (({ t with free := n } : State).countIssue i).advance i = { (t.countIssue i).advance i with free := n } := by
  unfold State.advance
  dsimp only
  split
  · next h => rw [if_pos (by exact h)]; rfl
  · next h => rw [if_neg (by exact h)]; rfl

/-- A collective instruction that draws free values for its result and writes t[d] of the taking lanes. -/
theorem State.collective_putT_free {f : Form} {cls : Nat} {part : Bool} {act : State → Mask → Effect} {m : Mask} {v : Nat → Word}
    {n : Nat} (h : s.executes i f) (hm : m = (s.grp i).passing i.u) (hp : part = true ∨ m = (s.grp i).live)
    (ha : act s m = .next { s.putT i m i.u.d.toNat v with free := n }) :
    s.retiresT { s.collective i f cls part act with free := s.free } i m v := by
  have hput : s.retiresT (s.collective i f cls part fun s m => .next (s.putT i m i.u.d.toNat v)) i m v :=
    State.collective_putT h hm hp rfl
  subst hm
  rw [State.collective_eq_issue h hp, State.issue_of_next (t := s.putT i _ i.u.d.toNat v) h rfl] at hput
  rw [State.collective_eq_issue h hp, State.issue_of_next (t := { s.putT i _ i.u.d.toNat v with free := n }) h ha, State.retire_free]
  have hfree := State.onlyCore_free hput.1.1
  generalize ((s.putT i ((s.grp i).passing i.u) i.u.d.toNat v).countIssue i).advance i = x at hput hfree
  rw [← hfree]
  exact hput

/-- A core has lanes, so a reduction over them begins with lane 0 (R36, R127). -/
theorem Core.headD_lanes {α : Type} (k : Core) (f : Nat → α) (d : α) : ((List.range k.W).map f).headD d = f 0 := by
  have hW : 0 < k.W := Nat.mul_pos (by decide) (Nat.two_pow_pos _)
  obtain ⟨n, hn⟩ := Nat.exists_eq_succ_of_ne_zero (Nat.ne_of_gt hW)
  rw [hn, List.range_succ_eq_map]
  rfl

end Collectives

/-- Settles O16: a collective whose mask is allowed writes one register of its taking lanes, or a pair. -/
theorem collectives : Obligations.Collectives := by
  unfold Obligations.Collectives
  intro g u s m hm hp
  refine ⟨fun h => ⟨_, rfl, ?xlane⟩, fun h => ⟨_, rfl, ?bcast⟩, fun hop h => ⟨_, rfl, ?anyAll⟩, fun hop h => ⟨_, rfl, ?laneMask⟩,
    fun h => ⟨_, rfl, ?gred⟩, fun h => ⟨_, rfl, ?gredf⟩⟩
  case xlane => exact State.collective_putT h hm hp rfl
  case bcast => exact State.collective_putT h hm hp rfl
  case anyAll =>
    have hne : u.opmod ≠ 2 := by omega
    simp only [if_neg hne]
    exact State.collective_putP h hm hp rfl
  case laneMask =>
    simp only [if_pos hop]
    exact State.collective_putPair h hm hp (State.executes_pair_even h (List.mem_cons_self ..)) rfl
  case gred =>
    refine State.collective_putT h hm hp ?_
    simp only [List.foldl_map]
    rfl
  case gredf =>
    refine State.collective_putT_free h hm hp (n := s.free + 128) ?_
    simp only [Core.headD_lanes]
    by_cases h0 : u.opmod = 0
    · simp only [h0, if_true]
      rfl
    · simp only [if_neg h0]
      obtain ⟨n, hn⟩ := Nat.exists_eq_succ_of_ne_zero h0
      rw [hn]
      rfl

end Sys2Proof.Machine

/-! Tile loads and stores (R44, R46, R130, R131). -/

namespace Sys2Proof.Machine

section TileMemory

variable {s : State} {i : Inst}

/-! Loaded elements in registers. -/

theorem leNat_lt (bs : List Byte) : leNat bs < 2 ^ (8 * bs.length) := by
  induction bs with
  | nil => simp [leNat]
  | cons b bs ih =>
    have hb : b.toNat < 256 := b.isLt
    have hp : 2 ^ (8 * (b :: bs).length) = 256 * 2 ^ (8 * bs.length) := by
      rw [List.length_cons, Nat.mul_add, Nat.pow_add, Nat.mul_comm]
    rw [hp, leNat]
    omega

theorem gather_lt (get : Nat → Byte) (off n : Nat) : gather get off n < 2 ^ (8 * n) := by
  have h := leNat_lt ((List.range n).map fun i => get (off + i))
  rwa [List.length_map, List.length_range] at h

theorem Group.getT_setT (g : Group) (a d lane n : Nat) (v : Word) (hd : d < 256) (hn : n < 256) :
    (g.setT a d v).getT lane n = if lane = a ∧ n = d then v else g.getT lane n := by
  rw [Group.getT, Group.setT, SMap.get_set]
  by_cases h : lane = a ∧ n = d
  · obtain ⟨rfl, rfl⟩ := h
    rw [if_pos rfl, if_pos ⟨rfl, rfl⟩]
  · rw [if_neg h, if_neg (by omega)]
    rfl

/-- Consecutive registers of a lane, written one after the other. -/
theorem Group.getT_setRun (g : Group) (a d c lane k : Nat) (f : Nat → Word) (hd : d + c ≤ 256) (hk : k < 256) :
    ((List.range c).foldl (fun g j => g.setT a (d + j) (f j)) g).getT lane k =
      if lane = a ∧ d ≤ k ∧ k < d + c then f (k - d) else g.getT lane k := by
  induction c with
  | zero => rw [if_neg (by omega)]; rfl
  | succ c ih =>
    rw [List.range_succ, List.foldl_append, List.foldl_cons, List.foldl_nil, Group.getT_setT _ _ _ _ _ _ (by omega) hk, ih (by omega)]
    by_cases h : lane = a ∧ k = d + c
    · obtain ⟨rfl, rfl⟩ := h
      rw [if_pos ⟨rfl, rfl⟩, if_pos ⟨rfl, by omega, by omega⟩, Nat.add_sub_cancel_left]
    · rw [if_neg h]
      exact if_congr (by omega) rfl rfl

/-- Register `j` of a loaded element (R131). -/
def elemReg (size : Nat) (sign : Bool) (v j : Nat) : Word :=
  if sign then BitVec.ofInt 32 (signedOf (8 * 2 ^ size) v) else BitVec.ofNat 32 (v / 2 ^ (32 * j))

theorem sizeRegs_of_wide {size : Nat} (h : ¬ size ≤ 2) : sizeBytes size / 4 = sizeRegs size := by
  obtain ⟨n, rfl⟩ : ∃ n, size = n + 2 := ⟨size - 2, by omega⟩
  rw [sizeRegs, if_neg h, sizeBytes, Nat.pow_add, Nat.add_sub_cancel]
  exact Nat.mul_div_cancel _ (by decide)

/-- An element written as a load writes it changes the registers of its lane that it takes, and those alone. -/
theorem Group.getT_putElem (g : Group) (a d size : Nat) (sign : Bool) (v lane k : Nat) (hd : d + sizeRegs size ≤ 256) (hk : k < 256)
    (hv : v < 2 ^ (8 * sizeBytes size)) (hs : sign = true → size ≤ 1) :
    (g.putElem a d size sign v).getT lane k =
      if lane = a ∧ d ≤ k ∧ k < d + sizeRegs size then elemReg size sign v (k - d) else g.getT lane k := by
  by_cases hsize : size ≤ 2
  · have hr : sizeRegs size = 1 := if_pos hsize
    rw [hr] at hd ⊢
    rw [Group.putElem, if_pos hsize, Nat.mod_eq_of_lt hv, Group.getT_setT _ _ _ _ _ _ (by omega) hk]
    by_cases h : lane = a ∧ k = d
    · rw [if_pos h, if_pos (show lane = a ∧ d ≤ k ∧ k < d + 1 by omega), h.2, Nat.sub_self, elemReg, Nat.mul_zero, Nat.pow_zero, Nat.div_one]
      rfl
    · rw [if_neg h, if_neg (by omega)]
  · have hsign : sign = false := by
      cases sign with
      | false => rfl
      | true => exact absurd (hs rfl) (by omega)
    rw [Group.putElem, if_neg hsize, sizeRegs_of_wide hsize, Group.getT_setRun _ _ _ _ _ _ _ hd hk]
    refine if_congr Iff.rfl ?_ rfl
    rw [elemReg, hsign, bitsOf]
    apply BitVec.eq_of_toNat_eq
    simp

theorem Group.setRun_shape (g : Group) (a d : Nat) (f : Nat → Word) (l : List Nat) :
    ∃ t, l.foldl (fun g j => g.setT a (d + j) (f j)) g = { g with t } := by
  induction l generalizing g with
  | nil => exact ⟨g.t, rfl⟩
  | cons x l ih => exact ih _

theorem Group.putElem_shape (g : Group) (a d size : Nat) (sign : Bool) (v : Nat) : ∃ t, g.putElem a d size sign v = { g with t } := by
  unfold Group.putElem
  dsimp only
  split
  · exact ⟨_, rfl⟩
  · exact g.setRun_shape a d _ _

/-- The elements of several lanes. -/
theorem Group.putElems_shape (d size : Nat) (sign : Bool) (v : Nat × Nat → Nat) (ls : List (Nat × Nat)) (g : Group) :
    ∃ t, ls.foldl (fun g l => g.putElem l.1 d size sign (v l)) g = { g with t } := by
  induction ls generalizing g with
  | nil => exact ⟨g.t, rfl⟩
  | cons l ls ih =>
    obtain ⟨t, ht⟩ := g.putElem_shape l.1 d size sign (v l)
    rw [List.foldl_cons, ht]
    exact ih _

theorem Group.getT_putElems (d size : Nat) (sign : Bool) (v at' : Nat → Nat) (ls : List Nat) (hls : ls.Nodup) (g : Group) (lane k : Nat)
    (hd : d + sizeRegs size ≤ 256) (hk : k < 256) (hv : ∀ l, v l < 2 ^ (8 * sizeBytes size)) (hs : sign = true → size ≤ 1) :
    ((ls.map fun l => (l, at' l)).foldl (fun g l => g.putElem l.1 d size sign (v l.2)) g).getT lane k =
      if lane ∈ ls ∧ d ≤ k ∧ k < d + sizeRegs size then elemReg size sign (v (at' lane)) (k - d) else g.getT lane k := by
  induction ls generalizing g with
  | nil => rw [if_neg (by simp)]; rfl
  | cons a ls ih =>
    obtain ⟨ha, hls⟩ := List.nodup_cons.1 hls
    rw [List.map_cons, List.foldl_cons, ih hls, Group.getT_putElem _ _ _ _ _ _ _ _ hd hk (hv _) hs]
    obtain rfl | hne := eq_or_ne lane a
    · simp [ha]
    · simp [hne]

/-! A load into a group's registers. -/

/-- An instruction whose effect stays in its core: what its end leaves of it. -/
theorem State.issue_next_core {f : Form} {act : State → Effect} {t : State} (h : s.executes i f) (ha : act s = .next t)
    (ht : s.onlyCore t i.c) :
    s.onlyCore (s.issue i f act) i.c ∧ ((s.issue i f act).core i.c).tile = (t.core i.c).tile ∧
      (∀ j, j ≠ i.slot → ((s.issue i f act).core i.c).group j = (t.core i.c).group j) ∧
      ∀ g : Group, g.placed ((s.issue i f act).grp i) = g.placed (t.grp i) := by
  rw [State.issue_of_next h ha]
  obtain ⟨-, -, -, htile, -⟩ := t.retire_fields i
  exact ⟨State.onlyCore_trans ht (t.onlyCore_retire i), htile, fun j hj => t.retire_group i hj,
    fun g => by rw [State.advance_placed, State.grp_countIssue]⟩

/-- Elements written into the registers of an occupied group change that group alone (R131). -/
theorem State.loadLanes_touches (ho : (s.grp i).occupied = true) (d size : Nat) (sign : Bool) (ls : List (Nat × Nat)) (get : Nat → Byte) :
    s.touches (s.loadLanes i.c i.slot d size sign ls get) i ∧
      (s.loadLanes i.c i.slot d size sign ls get).grp i =
        ls.foldl (fun g l => g.putElem l.1 d size sign (gather get l.2 (sizeBytes size))) (s.grp i) := by
  have h : s.loadLanes i.c i.slot d size sign ls get =
      s.setGrp i (ls.foldl (fun g l => g.putElem l.1 d size sign (gather get l.2 (sizeBytes size))) (s.grp i)) := by
    rw [State.loadLanes, State.updGroup, State.updCore_eq, if_pos (by exact ho)]
    rfl
  rw [h]
  exact ⟨State.touches_setGrp (s.touches_refl i) _, s.grp_setGrp i _⟩

/-- A tile access of which every lane is aligned and inside tile memory passes its checks (R46). -/
theorem State.tileCheck_none {size : Nat} {lanes : List Nat}
    (h : ∀ l ∈ lanes, s.laneTile i l % size = 0 ∧ s.laneTile i l < (s.core i.c).T) : s.tileCheck i size lanes = none := by
  have hnone : lanes.find? (fun l => s.laneTile i l % size != 0 || decide ((s.core i.c).T ≤ s.laneTile i l)) = none := by
    rw [List.find?_eq_none]
    intro l hl
    obtain ⟨h1, h2⟩ := h l hl
    simpa [h1] using h2
  simp only [State.tileCheck, hnone]

/-- The highest storing lane supplies a byte that several write (R44). -/
theorem get_putLanes (addr : Nat → Nat) (bytes : Nat → List Byte) (n : Nat) (hn : ∀ l, (bytes l).length = n) (ls : List Nat)
    (m : SMap Byte) (a : Nat) :
    SMap.get 0 (ls.foldl (fun t l => SMap.putBytes t (addr l) (bytes l)) m) a =
      (ls.reverse.find? fun l => addr l ≤ a && a < addr l + n).elim (SMap.get 0 m a) fun l => (bytes l).getD (a - addr l) 0 := by
  induction ls generalizing m with
  | nil => rfl
  | cons l ls ih =>
    rw [List.foldl_cons, ih, List.reverse_cons, List.find?_append]
    cases ls.reverse.find? fun l => addr l ≤ a && a < addr l + n with
    | some x => rfl
    | none =>
      rw [Option.none_or, Option.elim_none, SMap.get_putBytes, hn]
      by_cases hc : addr l ≤ a ∧ a < addr l + n
      · rw [if_pos hc, List.find?_cons_of_pos (by simpa using hc)]
        rfl
      · rw [if_neg hc, List.find?_cons_of_neg (by simpa using hc)]
        rfl

/-- The modifiers of a load that names sign extension allow 1 and 2 bytes only (R131). -/
theorem State.executes_memForm_ok {dc : List Slot} {modOk : Bool} {u : Fields} {access : Access}
    (h : s.executes i (memForm u dc modOk access)) : modOk = true := by
  obtain ⟨-, -, -, -, hd, -⟩ := h
  cases modOk with
  | true => rfl
  | false =>
    simp only [State.defect, firstDefect, memForm, Bool.false_and, Bool.not_false, Bool.true_or, if_true] at hd
    split at hd <;> cases hd

/-- LDT whose checks pass: bank conflicts are counted and the elements are written (R46, R131). -/
theorem exec_ldt_act {g : GroupRef} {u : Fields} (hc : s.tileCheck (inst g u) (sizeBytes (u.bits 12 3))
      (lanesOf ((s.grp (inst g u)).passing u)) = none) :
    ∃ act n, exec (.ldt g u) s = .next (s.issue (inst g u) (ldtForm u) act) ∧
      act s = .next ((s.updCore (inst g u).c fun k => k.count 0x140 n).loadLanes (inst g u).c (inst g u).slot u.d.toNat (u.bits 12 3)
        (u.bit 11) ((lanesOf ((s.grp (inst g u)).passing u)).map fun l => (l, s.laneTile (inst g u) l))
        fun o => SMap.get 0 (s.core g.core).tile o) :=
  ⟨_, _, rfl, by simp only [hc]; rfl⟩

/-- An instruction that loads an element into each of its lanes (R131). -/
theorem State.issue_loadLanes {f : Form} {act : State → Effect} {off n d size : Nat} {sign : Bool} {m : Mask} {addr : Nat → Nat}
    {get : Nat → Byte} (h : s.executes i f) (hd : d + sizeRegs size ≤ 256) (hs : sign = true → size ≤ 1)
    (ha : act s = .next ((s.updCore i.c fun k => k.count off n).loadLanes i.c i.slot d size sign
      ((lanesOf m).map fun l => (l, addr l)) get)) :
    s.onlyCore (s.issue i f act) i.c ∧ ((s.issue i f act).core i.c).tile = (s.core i.c).tile ∧
      (∀ j, j ≠ i.slot → ((s.issue i f act).core i.c).group j = (s.core i.c).group j) ∧
      (s.grp i).placed ((s.issue i f act).grp i) = { s.grp i with t := ((s.issue i f act).grp i).t } ∧
      ∀ lane k, lane < 64 → k < 256 → ((s.issue i f act).grp i).getT lane k =
        if m.getLsbD lane ∧ d ≤ k ∧ k < d + sizeRegs size then elemReg size sign (gather get (addr lane) (sizeBytes size)) (k - d)
        else (s.grp i).getT lane k := by
  generalize hx : (s.updCore i.c fun k => k.count off n) = x at ha
  have hxc : x.core i.c = (s.core i.c).count off n := by rw [← hx, State.updCore_eq, State.core_setCore_self]
  have hxg : ∀ j, (x.core i.c).group j = (s.core i.c).group j := fun j => by rw [hxc, Core.group_count]
  have hxi : x.grp i = s.grp i := hxg i.slot
  obtain ⟨⟨ht1, ht2, ht3, ht4⟩, htg⟩ := State.loadLanes_touches (hxi ▸ State.executes_occupied h) d size sign
    ((lanesOf m).map fun l => (l, addr l)) get
  obtain ⟨ho, htile, hother, hplaced⟩ := State.issue_next_core h ha (State.onlyCore_trans (hx ▸ s.onlyCore_setCore _ _) ⟨ht1, ht2⟩)
  rw [hxi] at htg
  obtain ⟨t, ht⟩ := Group.putElems_shape d size sign (fun l => gather get l.2 (sizeBytes size)) ((lanesOf m).map fun l => (l, addr l)) (s.grp i)
  have hpl := (hplaced (s.grp i)).trans (congrArg _ htg)
  have hpt := (Group.placed_inj hpl).1
  refine ⟨ho, ?_, fun j hj => ?_, ?_, fun lane k hl hk => ?_⟩
  · have hkeep := congrArg Core.tile ht3
    rw [hxc] at hkeep
    exact htile.trans hkeep
  · rw [hother j hj, ht4 j hj, hxg]
  · rw [hpl, hpt, ht]
    rfl
  · rw [Group.getT, hpt, ← Group.getT,
      Group.getT_putElems d size sign _ addr _ (nodup_lanesOf m) _ lane k hd hk (fun l => gather_lt get l _) hs]
    simp only [mem_lanesOf, hl, true_and]

/-- STT whose checks pass: bank conflicts are counted and the bytes of the lanes are written in rising order (R44, R46). -/
theorem exec_stt_act {g : GroupRef} {u : Fields} (hc : s.tileCheck (inst g u) (sizeBytes (u.bits 12 3))
      (lanesOf ((s.grp (inst g u)).passing u)) = none) :
    ∃ act n, exec (.stt g u) s = .next (s.issue (inst g u) (sttForm u) act) ∧
      act s = .next (s.setCore (inst g u).c { (s.core (inst g u).c).count 0x140 n with
        tile := (lanesOf ((s.grp (inst g u)).passing u)).foldl (fun t l => SMap.putBytes t (s.laneTile (inst g u) l)
          (s.storeBytes (inst g u) (u.bits 12 3) l)) (s.core (inst g u).c).tile }) :=
  ⟨_, _, rfl, by simp only [hc]; rfl⟩

/-- An instruction that writes tile memory: no group's registers change. -/
theorem State.issue_setTile {f : Form} {act : State → Effect} {off n : Nat} {tile : SMap Byte} (h : s.executes i f)
    (ha : act s = .next (s.setCore i.c { (s.core i.c).count off n with tile })) :
    s.onlyCore (s.issue i f act) i.c ∧ ((s.issue i f act).core i.c).tile = tile ∧
      (∀ j, j ≠ i.slot → ((s.issue i f act).core i.c).group j = (s.core i.c).group j) ∧
      (s.grp i).placed ((s.issue i f act).grp i) = s.grp i := by
  obtain ⟨ho, htile, hother, hplaced⟩ := State.issue_next_core h ha (s.onlyCore_setCore _ _)
  refine ⟨ho, ?_, fun j hj => ?_, ?_⟩
  · rw [htile, State.core_setCore_self]
  · rw [hother j hj, State.core_setCore_self]
    rfl
  · exact (hplaced _).trans (congrArg _ (State.grp_setCore_of_groups rfl))

end TileMemory

/-- Settles O19: a load writes the elements of its lanes, whose registers do not overlap, and a store writes its lanes in rising order, so
that the highest lane stands last. -/
theorem tileLoadsAndStores : Obligations.TileLoadsAndStores := by
  unfold Obligations.TileLoadsAndStores
  intro g u s m n hm hn hlanes
  subst hm hn
  have hcheck : s.tileCheck (inst g u) (sizeBytes (u.bits 12 3)) (lanesOf ((s.grp (inst g u)).passing u)) = none :=
    State.tileCheck_none hlanes
  refine ⟨fun h hd => ?load, fun h => ?store⟩
  case load =>
    obtain ⟨act, c, hexec, hact⟩ := exec_ldt_act hcheck
    have hsign : u.bit 11 = true → u.bits 12 3 ≤ 1 := fun hb => by
      have hok := State.executes_memForm_ok h
      simp only [hb, Bool.not_true, Bool.false_or, Bool.and_eq_true, decide_eq_true_eq] at hok
      exact hok.2
    exact ⟨_, hexec, State.issue_loadLanes h hd hsign hact⟩
  case store =>
    obtain ⟨act, c, hexec, hact⟩ := exec_stt_act hcheck
    obtain ⟨ho, htile, hother, hplaced⟩ := State.issue_setTile h hact
    refine ⟨_, hexec, ho, hother, hplaced, fun a => ?_⟩
    refine (congrArg (SMap.get 0 · a) htile).trans ((get_putLanes _ _ (2 ^ u.bits 12 3) (fun l => length_leBytes _ _) _ _ _).trans ?_)
    cases (lanesOf ((s.grp (inst g u)).passing u)).reverse.find? fun l =>
      s.laneTile (inst g u) l ≤ a && a < s.laneTile (inst g u) l + 2 ^ u.bits 12 3 <;> rfl

end Sys2Proof.Machine

/-! One core cycle (assumption 2; R60, R61, R66, R71, R160, R176). -/

namespace Sys2Proof.Machine

section Cycle

variable {s : State}

/-! Requests on their way: what a send changes. -/

/-- A send appends one request under the next number and changes nothing but the requests and the record of messages. -/
theorem State.send_shape (s : State) (r : Req) :
    ∃ place out, s.send r = { s with
      fab := { s.fab with reqs := s.fab.reqs ++ [{ r with id := s.fab.nextReq, place }], nextReq := s.fab.nextReq + 1 }, out } := by
  unfold State.send
  split
  · exact ⟨_, s.out, rfl⟩
  · exact ⟨.host, _, rfl⟩

/-- An entry that leaves the write buffer of a core. -/
theorem State.leaveWb_frame (s : State) (c : Nat) (e : WbEntry) :
    (s.leaveWb c e).pending = s.pending ∧ (s.leaveWb c e).store = s.store ∧ (s.leaveWb c e).rects = s.rects ∧
      (s.leaveWb c e).work = s.work ∧ ∀ d, d ≠ c → (s.leaveWb c e).core d = s.core d := by
  obtain ⟨place, out, h⟩ := (s.updCore c fun k => { k with wb := k.wb.filter (· != e) }).send_shape (e.request c)
  rw [State.leaveWb, h]
  exact ⟨rfl, rfl, rfl, rfl, fun d hd => SMap.get_set_ne _ _ hd.symm _⟩

/-! Keys of a canonical map. -/

theorem SMap.keys_of_wfFrom {α : Type} [DecidableEq α] (d : α) (m : SMap α) (lo : Option Nat) (h : SMap.wfFrom d lo m = true) :
    (m.map (·.1)).Nodup ∧ ∀ l, lo = some l → ∀ k ∈ m.map (·.1), l < k := by
  induction m generalizing lo with
  | nil => exact ⟨List.nodup_nil, fun _ _ k hk => nomatch hk⟩
  | cons e r ih =>
    obtain ⟨a, x⟩ := e
    simp only [SMap.wfFrom, Bool.and_eq_true] at h
    obtain ⟨⟨hlo, -⟩, hr⟩ := h
    obtain ⟨hnd, hgt⟩ := ih (some a) hr
    have hlt : ∀ l, lo = some l → l < a := fun l hl => by subst hl; simpa using hlo
    refine ⟨List.nodup_cons.2 ⟨fun hmem => Nat.lt_irrefl a (hgt a rfl a hmem), hnd⟩, fun l hl k hk => ?_⟩
    rcases List.mem_cons.1 hk with rfl | hk
    · exact hlt l hl
    · exact Nat.lt_trans (hlt l hl) (hgt a rfl k hk)

theorem SMap.nodup_keys {α : Type} [DecidableEq α] {d : α} {m : SMap α} (h : SMap.wf d m = true) : (m.map (·.1)).Nodup :=
  (SMap.keys_of_wfFrom d m none h).1

theorem SMap.mem_keys_of_ne {α : Type} {d : α} {m : SMap α} {k : Nat} (h : SMap.get d m k ≠ d) : k ∈ m.map (·.1) :=
  List.mem_map.2 ⟨_, SMap.mem_of_get rfl h, rfl⟩

/-! A cycle of the groups of a core. -/

/-- The reservation of a group a cycle later (R176). -/
def Group.agedResv (g : Group) : Option Reservation := g.resv.map fun r => { r with age := r.age + 1 }

theorem get_bump_ne (m : SMap DWord) {off j : Nat} (n : Nat) (h : j ≠ off) : SMap.get 0 (bump m off n) j = SMap.get 0 m j := by
  rw [SMap.get_bump, if_neg h]
  exact BitVec.add_zero _

/-- A cycle of an occupied slot: the waits of its group, its mesh wait and its reservation, and counters of waits. -/
theorem Core.groupCycle_of_occupied {k : Core} {slot : Nat} (stalled : Bool) (h : (k.group slot).occupied = true) :
    ∃ waits mesh n1 n2 router, k.groupCycle stalled slot =
      { ((k.setGroup slot { k.group slot with waits, mesh, resv := (k.group slot).agedResv }).count 0x120 n1).count 0x128 n2 with router } := by
  generalize hws : (if k.live then k.openWaits slot else []) = ws
  generalize hwaits : (if stalled then (k.group slot).waits
    else ws.foldl (fun m w => SMap.set 0 m (waitKey w) (SMap.get 0 m (waitKey w) + 1)) (k.group slot).waits) = waits
  generalize hmesh : ((k.group slot).mesh.map fun w => { w with waited := w.waited + 1 }) = mesh
  unfold Core.groupCycle
  simp only [h, Bool.not_true, Bool.false_eq_true, if_false, hws, hwaits, hmesh]
  refine ⟨waits, mesh, bit (ws.any fun w => !w.isTok), (ws.filter WaitKind.isTok).length, ?_⟩
  split
  · exact ⟨_, rfl⟩
  · exact ⟨k.router, rfl⟩

theorem Core.groupCycle_of_empty {k : Core} {slot : Nat} (stalled : Bool) (h : (k.group slot).occupied = false) :
    k.groupCycle stalled slot = k := by
  unfold Core.groupCycle
  simp only [h, Bool.not_false, if_true]

/-- A cycle of one group changes that group, counters of waits and counters of the router. -/
theorem Core.groupCycle_shape (k : Core) (stalled : Bool) (slot : Nat) :
    ∃ groups counters router, k.groupCycle stalled slot = { k with groups, counters, router } ∧
      SMap.get 0 counters 0x100 = SMap.get 0 k.counters 0x100 := by
  cases h : (k.group slot).occupied with
  | false => exact ⟨k.groups, k.counters, k.router, Core.groupCycle_of_empty stalled h, rfl⟩
  | true =>
    obtain ⟨waits, mesh, n1, n2, router, hk⟩ := Core.groupCycle_of_occupied stalled h
    exact ⟨_, _, router, hk, (get_bump_ne _ n2 (by decide)).trans (get_bump_ne _ n1 (by decide))⟩

theorem Core.group_groupCycle_ne (k : Core) (stalled : Bool) {slot j : Nat} (hj : j ≠ slot) :
    (k.groupCycle stalled slot).group j = k.group j := by
  cases h : (k.group slot).occupied with
  | false => rw [Core.groupCycle_of_empty stalled h]
  | true =>
    obtain ⟨waits, mesh, n1, n2, router, hk⟩ := Core.groupCycle_of_occupied stalled h
    rw [hk]
    exact (Core.group_setGroup k slot _ j).trans (if_neg hj.symm)

theorem Core.resv_groupCycle {k : Core} {slot : Nat} (stalled : Bool) (h : (k.group slot).occupied = true) :
    ((k.groupCycle stalled slot).group slot).resv = (k.group slot).agedResv := by
  obtain ⟨waits, mesh, n1, n2, router, hk⟩ := Core.groupCycle_of_occupied stalled h
  rw [hk]
  exact congrArg Group.resv (Core.group_setGroup_self k slot _)

/-- A cycle of several groups, each once. -/
theorem Core.groupCycles_shape (stalled : Bool) (l : List Nat) (k : Core) :
    ∃ groups counters router, l.foldl (fun k i => k.groupCycle stalled i) k = { k with groups, counters, router } ∧
      SMap.get 0 counters 0x100 = SMap.get 0 k.counters 0x100 := by
  induction l generalizing k with
  | nil => exact ⟨_, _, _, rfl, rfl⟩
  | cons a l ih =>
    obtain ⟨g, c, r, hk, hc⟩ := k.groupCycle_shape stalled a
    obtain ⟨g', c', r', hk', hc'⟩ := ih (k.groupCycle stalled a)
    refine ⟨g', c', r', ?_, ?_⟩
    · rw [List.foldl_cons, hk', hk]
    · rw [hc', hk, hc]

theorem Core.group_groupCycles_of_not_mem (stalled : Bool) {l : List Nat} {j : Nat} (hj : j ∉ l) (k : Core) :
    (l.foldl (fun k i => k.groupCycle stalled i) k).group j = k.group j := by
  induction l generalizing k with
  | nil => rfl
  | cons a l ih =>
    rw [List.foldl_cons, ih fun h => hj (List.mem_cons_of_mem a h), k.group_groupCycle_ne stalled (List.ne_of_not_mem_cons hj)]

theorem Core.resv_groupCycles (stalled : Bool) {l : List Nat} (hl : l.Nodup) {j : Nat} (hj : j ∈ l) (k : Core)
    (ho : (k.group j).occupied = true) : ((l.foldl (fun k i => k.groupCycle stalled i) k).group j).resv = (k.group j).agedResv := by
  induction l generalizing k with
  | nil => cases hj
  | cons a l ih =>
    obtain ⟨ha, hl⟩ := List.nodup_cons.1 hl
    rw [List.foldl_cons]
    obtain rfl | hne := eq_or_ne j a
    · rw [Core.group_groupCycles_of_not_mem stalled ha, Core.resv_groupCycle stalled ho]
    · have hg := k.group_groupCycle_ne stalled hne
      rw [ih hl ((List.mem_cons.1 hj).resolve_left hne) _ (by rw [hg]; exact ho), hg]

/-! A cycle of a core. -/

/-- What a cycle of a core without buffered stores does (R66, R71, R176). -/
def Core.cycled (k k' : Core) : Prop :=
  (k.mode = .clearing → k'.clearCount = k.clearCount + 1) ∧
  (SMap.get 0 k'.counters 0x100 = SMap.get 0 k.counters 0x100 + if k.mode = .running ∨ k.mode = .draining then 1 else 0) ∧
  (SMap.wf ({} : Group) k.groups = true → ∀ (j : Nat) (x : Reservation), (k.group j).occupied = true →
    (k.group j).resv = some x → (k'.group j).resv = some { x with age := x.age + 1 }) ∧
  k'.tile = k.tile ∧ k'.acc = k.acc

theorem Core.live_iff (k : Core) : k.live = true ↔ k.mode = .running ∨ k.mode = .draining := by
  simp only [Core.live, Bool.or_eq_true, beq_iff_eq]

theorem Core.cycle_cycled (k : Core) (stalled : Bool) : k.cycled (k.cycle stalled) := by
  generalize hk1 : (if k.mode = .clearing then { k with clearCount := k.clearCount + 1 } else k : Core) = k1
  have h1 : k1.mode = k.mode ∧ k1.groups = k.groups ∧ k1.counters = k.counters ∧ k1.tile = k.tile ∧ k1.acc = k.acc ∧
      (k.mode = .clearing → k1.clearCount = k.clearCount + 1) := by
    rw [← hk1]
    split
    · exact ⟨rfl, rfl, rfl, rfl, rfl, fun _ => rfl⟩
    · next h => exact ⟨rfl, rfl, rfl, rfl, rfl, fun hc => absurd hc h⟩
  obtain ⟨hmode, hgroups, hcounters, htile, hacc, hclear⟩ := h1
  obtain ⟨groups, counters, router, hk2, hcnt⟩ := Core.groupCycles_shape stalled (k1.groups.map (·.1)) k1
  have hresv : SMap.wf ({} : Group) k.groups = true → ∀ (j : Nat) (x : Reservation), (k.group j).occupied = true →
      (k.group j).resv = some x → (SMap.get ({} : Group) groups j).resv = some { x with age := x.age + 1 } := by
    intro hwf j x ho hx
    have hg : k1.group j = k.group j := congrArg (fun m => SMap.get ({} : Group) m j) hgroups
    have hmem : j ∈ k1.groups.map (·.1) := by
      refine SMap.mem_keys_of_ne (d := ({} : Group)) fun h => ?_
      rw [← hg, show k1.group j = {} from h] at ho
      cases ho
    have h := Core.resv_groupCycles stalled (SMap.nodup_keys (by rw [hgroups]; exact hwf)) hmem k1 (by rw [hg]; exact ho)
    rw [hk2, hg, Group.agedResv, hx] at h
    exact h
  unfold Core.cycle
  simp only [hk1, hk2]
  rw [hcounters] at hcnt
  split
  · next h =>
    refine ⟨hclear, ?_, hresv, htile, hacc⟩
    have hlive := k.live_iff.1 (by rw [Core.live, ← hmode]; exact h)
    rw [if_pos hlive, ← hcnt]
    exact (get_bump_ne _ _ (by decide)).trans ((SMap.get_bump counters 0x100 1 0x100).trans (by rw [if_pos rfl]; rfl))
  · next h =>
    refine ⟨hclear, ?_, hresv, htile, hacc⟩
    rw [if_neg fun hl => h (by rw [Core.live, hmode]; exact k.live_iff.2 hl)]
    exact hcnt.trans (BitVec.add_zero _).symm

/-- What a cycle leaves of the module: the commands, memory, the rectangles and the work queue. -/
def State.sameWork (s t : State) : Prop := t.pending = s.pending ∧ t.store = s.store ∧ t.rects = s.rects ∧ t.work = s.work

theorem State.sameWork.trans {r s t : State} (h : r.sameWork s) (h' : s.sameWork t) : r.sameWork t :=
  ⟨h'.1.trans h.1, h'.2.1.trans h.2.1, h'.2.2.1.trans h.2.2.1, h'.2.2.2.trans h.2.2.2⟩

theorem State.leaveWbs_frame (c : Nat) (l : List WbEntry) (s : State) :
    s.sameWork (l.foldl (fun (s : State) e => s.leaveWb c e) s) ∧
      ∀ d, d ≠ c → (l.foldl (fun (s : State) e => s.leaveWb c e) s).core d = s.core d := by
  induction l generalizing s with
  | nil => exact ⟨⟨rfl, rfl, rfl, rfl⟩, fun _ _ => rfl⟩
  | cons e l ih =>
    obtain ⟨hp, hs, hr, hw, hc⟩ := s.leaveWb_frame c e
    obtain ⟨hf, hd⟩ := ih (s.leaveWb c e)
    exact ⟨State.sameWork.trans ⟨hp, hs, hr, hw⟩ hf, fun d hne => (hd d hne).trans (hc d hne)⟩

/-- A cycle ages the entries of the write buffer, and adds none. -/
theorem Core.cycle_wb (k : Core) (stalled : Bool) (h : k.wb = []) : (k.cycle stalled).wb = [] := by
  generalize hk1 : (if k.mode = .clearing then { k with clearCount := k.clearCount + 1 } else k : Core) = k1
  have h1 : k1.wb = [] := by
    rw [← hk1]
    split
    · exact h
    · exact h
  obtain ⟨groups, counters, router, hk2, -⟩ := Core.groupCycles_shape stalled (k1.groups.map (·.1)) k1
  have hw : k1.wb.map (fun e => { e with age := e.age + 1 }) = [] := by rw [h1, List.map_nil]
  unfold Core.cycle
  simp only [hk1, hk2]
  split
  · exact hw
  · exact hw

/-- A cycle of core `c` but for the stores that leave its buffer: the core's own cycle, and a free count of idle slots. -/
theorem State.coreCycle_shape (s : State) (c : Nat) :
    ∃ cores free k, s.coreCycle c = (((s.core c).cycle (s.priStalled c)).wb.filter fun e => decide (4096 ≤ e.age)).foldl
        (fun (s : State) e => s.leaveWb c e) { s with cores, free } ∧
      (∀ d, SMap.get ({} : Core) cores d = if c = d then k else s.core d) ∧
      (k = (s.core c).cycle (s.priStalled c) ∨ ∃ n, k = ((s.core c).cycle (s.priStalled c)).count 0x110 n) := by
  unfold State.coreCycle
  generalize (s.core c).cycle (s.priStalled c) = k
  simp only []
  cases k.live with
  | false => exact ⟨(s.setCore c k).cores, s.free, k, rfl, s.core_setCore c k, .inl rfl⟩
  | true =>
    generalize hn : Nat.min 4 ((s.setCore c k).draw 3).1.toNat = n
    refine ⟨((s.setCore c k).setCore c (k.count 0x110 n)).cores, s.free + 1, k.count 0x110 n, ?_, fun d => ?_, .inr ⟨n, rfl⟩⟩
    · have h : ((s.setCore c k).draw 3).2.updCore c (fun k => k.count 0x110 n) =
          ((s.setCore c k).draw 3).2.setCore c (k.count 0x110 n) :=
        congrArg (fun x => ((s.setCore c k).draw 3).2.setCore c (Core.count x 0x110 n)) (s.core_setCore_self c k)
      simp only [Bool.not_true, Bool.false_eq_true, if_false, h]
      rfl
    · refine ((s.setCore c k).core_setCore c _ d).trans ?_
      rw [State.core_setCore]
      split
      · rfl
      · rfl

/-- A cycle of core `c` leaves the other cores. -/
theorem State.coreCycle_frame (s : State) (c : Nat) :
    s.sameWork (s.coreCycle c) ∧ ∀ d, d ≠ c → (s.coreCycle c).core d = s.core d := by
  obtain ⟨cores, free, k, h, hc, -⟩ := s.coreCycle_shape c
  generalize List.filter _ _ = l at h
  obtain ⟨hf, hd⟩ := State.leaveWbs_frame c l { s with cores, free }
  rw [h]
  exact ⟨hf, fun d hne => (hd d hne).trans ((hc d).trans (if_neg hne.symm))⟩

theorem Core.cycled_count {k k' : Core} (n : Nat) (h : k.cycled k') : k.cycled (k'.count 0x110 n) := by
  obtain ⟨hclear, hcnt, hresv, htile, hacc⟩ := h
  exact ⟨hclear, (get_bump_ne _ _ (by decide)).trans hcnt, hresv, htile, hacc⟩

theorem State.core_coreCycle (s : State) (c : Nat) (h : (s.core c).wb = []) : (s.core c).cycled ((s.coreCycle c).core c) := by
  obtain ⟨cores, free, k, hs, hc, hk⟩ := s.coreCycle_shape c
  rw [(s.core c).cycle_wb (s.priStalled c) h, List.filter_nil, List.foldl_nil] at hs
  have hcy := (s.core c).cycle_cycled (s.priStalled c)
  rw [hs, show ({ s with cores, free } : State).core c = k from (hc c).trans (if_pos rfl)]
  obtain rfl | ⟨n, rfl⟩ := hk
  · exact hcy
  · exact Core.cycled_count n hcy

/-- The cycles of several cores, each once. -/
theorem State.coreCycles_frame (l : List Nat) (s : State) :
    s.sameWork (l.foldl (fun (s : State) c => s.coreCycle c) s) ∧
      ∀ d, d ∉ l → (l.foldl (fun (s : State) c => s.coreCycle c) s).core d = s.core d := by
  induction l generalizing s with
  | nil => exact ⟨⟨rfl, rfl, rfl, rfl⟩, fun _ _ => rfl⟩
  | cons a l ih =>
    obtain ⟨hf, hd⟩ := s.coreCycle_frame a
    obtain ⟨hfs, hds⟩ := ih (s.coreCycle a)
    exact ⟨hf.trans hfs, fun d hnm =>
      (hds d fun hm => hnm (List.mem_cons_of_mem a hm)).trans (hd d (List.ne_of_not_mem_cons hnm))⟩

theorem State.core_coreCycles {l : List Nat} (hl : l.Nodup) {c : Nat} (hc : c ∈ l) (s : State) (h : (s.core c).wb = []) :
    (s.core c).cycled ((l.foldl (fun (s : State) c => s.coreCycle c) s).core c) := by
  induction l generalizing s with
  | nil => cases hc
  | cons a l ih =>
    obtain ⟨ha, hl⟩ := List.nodup_cons.1 hl
    rw [List.foldl_cons]
    obtain rfl | hne := eq_or_ne c a
    · rw [(State.coreCycles_frame l _).2 c ha]
      exact s.core_coreCycle c h
    · have hcore := (s.coreCycle_frame a).2 c hne
      rw [← hcore]
      exact ih hl ((List.mem_cons.1 hc).resolve_left hne) _ (by rw [hcore]; exact h)

/-- A core that no map names stands in its reset state, which a cycle leaves. -/
theorem Core.reset_cycled : ({} : Core).cycled {} :=
  ⟨(nomatch ·), rfl, fun _ _ _ ho => absurd ho Bool.false_ne_true, rfl, rfl⟩

theorem State.core_tick (s : State) (hwf : SMap.wf ({} : Core) s.cores = true) (c : Nat) (h : (s.core c).wb = []) :
    (s.core c).cycled (s.tick.core c) := by
  show (s.core c).cycled (((s.cores.map (·.1)).foldl (fun (s : State) c => s.coreCycle c) s).core c)
  by_cases hc : c ∈ s.cores.map (·.1)
  · exact State.core_coreCycles (SMap.nodup_keys hwf) hc s h
  · have hd : s.core c = {} := by_contra fun hne => hc (SMap.mem_keys_of_ne (d := ({} : Core)) hne)
    rw [(State.coreCycles_frame _ s).2 c hc, hd]
    exact Core.reset_cycled

end Cycle

/-- Settles O2: a cycle visits each core once, and within it each group once. -/
theorem emptyQueueTicks : Obligations.EmptyQueueTicks := by
  intro s hp hwf
  obtain ⟨hpend, hstore, hrects, hwork⟩ := (State.coreCycles_frame (s.cores.map (·.1)) s).1
  refine ⟨s.tick, by rw [step, hp], hpend.trans hp, hstore, hrects, hwork, fun c hc => s.core_tick hwf c hc⟩

end Sys2Proof.Machine

/-! What the accesses of a core change: translation caches and counters at the checks, then requests, the write buffer and the read-only L1
(R43 to R49, R160, R300, R562). -/

namespace Sys2Proof.Machine

section Accesses

variable {r s t : State} {c : Nat} {i : Inst}

/-! The checks of R562. -/

/-- A core that looked addresses up: its translation cache and its counters differ. -/
def Core.looksUp (k k' : Core) : Prop := ∃ utlb counters, k' = { k with utlb, counters }

/-- Core `c` looked addresses up: cores and translation differ, and core `c` in its translation cache and its counters only. -/
def State.looksUp (s t : State) (c : Nat) : Prop := (∃ cores xlat, t = { s with cores, xlat }) ∧ (s.core c).looksUp (t.core c)

theorem State.looksUp.refl (s : State) (c : Nat) : s.looksUp s c := ⟨⟨_, _, rfl⟩, _, _, rfl⟩

theorem State.looksUp.trans (h : r.looksUp s c) (h' : s.looksUp t c) : r.looksUp t c := by
  obtain ⟨⟨cores, xlat, rfl⟩, utlb, counters, hc⟩ := h
  obtain ⟨⟨cores', xlat', rfl⟩, utlb', counters', hc'⟩ := h'
  exact ⟨⟨cores', xlat', rfl⟩, utlb', counters', hc'.trans (by rw [hc])⟩

theorem State.looksUp_updCore {f : Core → Core} (h : (s.core c).looksUp (f (s.core c))) : s.looksUp (s.updCore c f) c := by
  refine ⟨⟨_, s.xlat, rfl⟩, ?_⟩
  rw [State.updCore_eq, State.core_setCore_self]
  exact h

theorem State.looksUp_count (s : State) (c off n : Nat) : s.looksUp (s.updCore c fun k => k.count off n) c :=
  State.looksUp_updCore ⟨_, _, rfl⟩

theorem State.looksUp_useUtlb (s : State) (c : Nat) (e : TlbEntry) : s.looksUp (s.useUtlb c false e) c :=
  State.looksUp_updCore ⟨_, _, rfl⟩

theorem State.looksUp_xlatCount (s : State) (c d off n : Nat) : s.looksUp (s.xlatCount d off n) c := ⟨⟨_, _, rfl⟩, _, _, rfl⟩

/-- The second level gives an entry to the core. -/
theorem State.looksUp_second (s : State) (c d off h : Nat) (l : List TlbEntry) (e : TlbEntry) :
    s.looksUp (((s.xlatCount d off 1).setL2tlb h l).useUtlb c false e) c :=
  (s.looksUp_xlatCount c d off 1).trans
    (State.looksUp.trans (s := (s.xlatCount d off 1).setL2tlb h l) ⟨⟨_, _, rfl⟩, _, _, rfl⟩ (State.looksUp_useUtlb _ c e))

/-- A lookup of the compute path (R300). -/
theorem State.lookup_looksUp (s : State) (c ctx va : Nat) : s.looksUp (s.lookup c false ctx va).2 c := by
  have hmiss := s.looksUp_count c (0x700 + 8) 1
  unfold State.lookup
  dsimp only
  split
  · exact (s.looksUp_count c 0x700 1).trans (State.looksUp_useUtlb _ c _)
  · split
    · exact hmiss.trans (State.looksUp_second _ c _ _ _ _ _)
    · split
      · exact (hmiss.trans (State.looksUp_xlatCount _ c _ _ _)).trans (State.looksUp_second _ c _ _ _ _ _)
      · exact hmiss.trans (State.looksUp_xlatCount _ c _ _ _)

theorem State.compute_looksUp (s : State) (c va : Nat) (use : Use) : s.looksUp (s.compute c va use).2 c := by
  have h := s.lookup_looksUp c (s.core c).context va
  unfold State.compute
  dsimp only
  generalize s.lookup c false (s.core c).context va = p at h
  obtain ⟨_ | e, s1⟩ := p
  · exact h
  · dsimp only
    split_ifs
    · exact h
    · exact h
    · exact h

theorem State.looksUp_of_compute {va : Nat} {use : Use} {x : Target ⊕ Nat × Nat} (h : s.compute c va use = (x, t)) : s.looksUp t c := by
  have hc := s.compute_looksUp c va use
  rw [h] at hc
  exact hc

theorem State.checkLines_looksUp (c : Nat) (use : Use) (size : Nat) (las : List (Nat × Nat)) (vs : List Nat) (s : State) :
    s.looksUp (s.checkLines c use size las vs).2 c := by
  induction vs generalizing s with
  | nil => exact State.looksUp.refl s c
  | cons v vs ih =>
    rw [State.checkLines]
    split
    · exact State.looksUp.refl s c
    · dsimp only
      split
      · next x s1 heq =>
        have h := State.looksUp_of_compute heq
        have hr := ih s1
        generalize s1.checkLines c use size las vs = q at hr
        obtain ⟨f | ts, s2⟩ := q
        · exact h.trans hr
        · exact h.trans hr
      · next heq => exact State.looksUp_of_compute heq

theorem State.accesses_looksUp {use : Use} {size : Nat} {m : Mask} {as : List LineAcc} (h : s.accesses i use size m = (.inr as, t)) :
    s.looksUp t i.c := by
  have hc := State.checkLines_looksUp i.c use size ((lanesOf m).map fun l => (l, s.laneAddr i l))
    (lineOrder ((lanesOf m).map fun l => (l, s.laneAddr i l))) s
  unfold State.accesses at h
  dsimp only at h
  generalize s.checkLines _ _ _ _ _ = p at h hc
  obtain ⟨f | ts, s1⟩ := p
  · cases h
  · cases h
    exact hc

theorem State.uniformAccess_looksUp {use : Use} {size : Nat} {x : Target × Nat} (h : s.uniformAccess i use size = (.inr x, t)) :
    s.looksUp t i.c := by
  unfold State.uniformAccess at h
  dsimp only at h
  split at h
  · cases h
  · split at h
    · next heq =>
      cases h
      exact State.looksUp_of_compute heq
    · cases h

/-! What the accesses add. -/

/-- Requests have only been added, and memory stands. -/
def State.adds (s t : State) : Prop := t.store = s.store ∧ s.fab.nextReq ≤ t.fab.nextReq ∧ s.fab.reqs ⊆ t.fab.reqs

theorem State.adds.refl (s : State) : s.adds s := ⟨rfl, Nat.le_refl _, List.Subset.refl _⟩

theorem State.adds.trans (h : r.adds s) (h' : s.adds t) : r.adds t := by
  obtain ⟨hs, hn, hr⟩ := h
  obtain ⟨hs', hn', hr'⟩ := h'
  exact ⟨hs'.trans hs, Nat.le_trans hn hn', fun _ hx => hr' (hr hx)⟩

theorem State.adds_of_eq (hs : t.store = s.store) (hf : t.fab = s.fab) : s.adds t :=
  ⟨hs, Nat.le_of_eq (congrArg Fabric.nextReq hf.symm), by rw [hf]; exact List.Subset.refl _⟩

theorem State.adds_setCore (s : State) (c : Nat) (k : Core) : s.adds (s.setCore c k) := State.adds_of_eq rfl rfl

theorem State.looksUp.adds (h : s.looksUp t c) : s.adds t := by
  obtain ⟨⟨cores, xlat, rfl⟩, -⟩ := h
  exact State.adds_of_eq rfl rfl

theorem State.adds_send (s : State) (q : Req) : s.adds (s.send q) := by
  obtain ⟨place, out, h⟩ := s.send_shape q
  rw [h]
  exact ⟨rfl, Nat.le_succ _, List.subset_append_left _ _⟩

theorem State.adds_leaveWb (s : State) (c : Nat) (e : WbEntry) : s.adds (s.leaveWb c e) :=
  (s.adds_setCore c _).trans (State.adds_send _ _)

theorem State.adds_flushEntry (s : State) (c : Nat) (x : Target) : s.adds (s.flushEntry c x) := by
  unfold State.flushEntry
  split
  · exact s.adds_leaveWb c _
  · exact State.adds.refl s

theorem State.fab_retire (s : State) (i : Inst) : ((s.countIssue i).advance i).fab = s.fab := by
  have h := congrArg State.fab (s.onlyCore_retire i).1
  exact h

theorem State.adds_retire (s : State) (i : Inst) : s.adds ((s.countIssue i).advance i) :=
  State.adds_of_eq (State.onlyCore_store (s.onlyCore_retire i)) (s.fab_retire i)

/-- A request that has set out is still on its way, or done, when more are added. -/
theorem State.sent.mono {p : Req → Prop} (h : r.sent s p) (ha : s.adds t) : r.sent t p := by
  obtain ⟨q, hq, hid, hp⟩ := h
  exact ⟨q, ha.2.2 hq, hid, hp⟩

/-- A send makes a request set out, under the number and the place that it gets. -/
theorem State.sent_send {p : Req → Prop} (h : s.adds t) (q : Req) (hp : ∀ id place, p { q with id, place }) : s.sent (t.send q) p := by
  obtain ⟨place, out, ht⟩ := t.send_shape q
  rw [ht]
  exact ⟨_, List.mem_append_right _ (List.mem_singleton.2 rfl), h.2.1, hp _ _⟩

/-- A fold reaches what one of its elements brings about and the others keep. -/
theorem foldl_reaches {σ α : Type} {f : σ → α → σ} {inv q : σ → Prop} (hinv : ∀ t a, inv t → inv (f t a))
    (hq : ∀ t a, q t → q (f t a)) {a : α} (hs : ∀ t, inv t → q (f t a)) {as : List α} {t : σ} (ha : a ∈ as) (hi : inv t) :
    q (as.foldl f t) := by
  induction as generalizing t with
  | nil => cases ha
  | cons b as ih =>
    rcases List.mem_cons.1 ha with rfl | ha
    · exact List.foldlRecOn as f (hs t hi) fun t h b _ => hq t b h
    · exact ih ha (hinv t b hi)

/-- An instruction whose effect is to access lines: memory stands, and what sets out for a line has set out in the end. -/
theorem State.issue_lines {f : Form} {act : State → Effect} {line : State → LineAcc → State} {as : List LineAcc}
    {rel : State → State → Prop}
    (h : s.executes i f) (ha : act s = .next (as.foldl line t)) (htrans : ∀ {x y z}, rel x y → rel y z → rel x z)
    (hadds : ∀ {x y : State}, rel x y → x.adds y) (ht : rel s t) (hline : ∀ x a, rel x (line x a)) :
    (s.issue i f act).store = s.store ∧
      ∀ a ∈ as, ∀ p : Req → Prop, (∀ x, rel s x → s.sent (line x a) p) → s.sent (s.issue i f act) p := by
  have hend := (as.foldl line t).adds_retire i
  rw [State.issue_of_next h ha]
  constructor
  · have hs : rel s (as.foldl line t) := List.foldlRecOn (motive := rel s) as line ht fun x hx a _ => htrans hx (hline x a)
    exact ((hadds hs).trans hend).1
  · intro a hmem p hp
    exact State.sent.mono (foldl_reaches (inv := rel s) (q := fun x => s.sent x p) (fun x a hx => htrans hx (hline x a))
      (fun x a hx => hx.mono (hadds (hline x a))) hp hmem ht) hend

/-! The issuing core while its accesses are made. -/

/-- A core that makes accesses: translation cache, counters, write buffer and read-only L1 differ. -/
def Core.accessed (k k' : Core) : Prop := ∃ utlb counters wb l1, k' = { k with utlb, counters, wb, l1 }

/-- Core `c` made accesses: requests are added, and what its instructions read of it stays. -/
def State.accessed (s t : State) (c : Nat) : Prop := s.adds t ∧ (s.core c).accessed (t.core c)

theorem State.accessed.refl (s : State) (c : Nat) : s.accessed s c := ⟨State.adds.refl s, _, _, _, _, rfl⟩

theorem State.accessed.trans (h : r.accessed s c) (h' : s.accessed t c) : r.accessed t c := by
  obtain ⟨ha, utlb, counters, wb, l1, hc⟩ := h
  obtain ⟨ha', utlb', counters', wb', l1', hc'⟩ := h'
  exact ⟨ha.trans ha', utlb', counters', wb', l1', hc'.trans (by rw [hc])⟩

theorem State.looksUp.accessed (h : s.looksUp t c) : s.accessed t c := by
  obtain ⟨utlb, counters, hc⟩ := h.2
  exact ⟨h.adds, utlb, counters, _, _, hc⟩

theorem State.accessed_updCore {f : Core → Core} (h : (s.core c).accessed (f (s.core c))) : s.accessed (s.updCore c f) c :=
  ⟨s.adds_setCore c _, by rw [State.updCore_eq, State.core_setCore_self]; exact h⟩

theorem State.core_send (s : State) (q : Req) (c : Nat) : (s.send q).core c = s.core c := by
  obtain ⟨place, out, h⟩ := s.send_shape q
  rw [h]
  rfl

theorem State.accessed_send (s : State) (q : Req) (c : Nat) : s.accessed (s.send q) c :=
  ⟨s.adds_send q, by rw [State.core_send]; exact ⟨_, _, _, _, rfl⟩⟩

theorem State.accessed_leaveWb (s : State) (c : Nat) (e : WbEntry) : s.accessed (s.leaveWb c e) c :=
  (State.accessed_updCore (s := s) (f := fun k => { k with wb := k.wb.filter (· != e) }) ⟨_, _, _, _, rfl⟩).trans (State.accessed_send _ _ c)

theorem State.accessed_flushEntry (s : State) (c : Nat) (x : Target) : s.accessed (s.flushEntry c x) c := by
  unfold State.flushEntry
  split
  · exact s.accessed_leaveWb c _
  · exact State.accessed.refl s c

theorem State.accessed_countLine (s : State) (c : Nat) (offs : List Nat) : s.accessed (s.countLine c offs) c :=
  State.accessed_updCore ⟨_, _, _, _, rfl⟩

theorem State.accessed.grp (h : s.accessed t i.c) : t.grp i = s.grp i := by
  obtain ⟨-, utlb, counters, wb, l1, hc⟩ := h
  rw [State.grp, hc]
  rfl

theorem State.accessed.uVal (h : s.accessed t i.c) (v : Nat) : t.uVal i v = s.uVal i v := by
  have hg := h.grp
  obtain ⟨-, utlb, counters, wb, l1, hc⟩ := h
  unfold State.uVal State.special
  rw [hg, hc]
  rfl

end Accesses

end Sys2Proof.Machine

/-! Atomics and reductions (R45, R132, R134). -/

namespace Sys2Proof.Machine

section Atomics

variable {s s1 t : State} {i : Inst}

/-! One line of an atomic. -/

theorem State.accessed_sends {α : Type} (c : Nat) (q : State → α → Req) (ls : List α) (s : State) :
    s.accessed (ls.foldl (fun s l => s.send (q s l)) s) c :=
  List.foldlRecOn (motive := fun t => s.accessed t c) ls _ (State.accessed.refl s c) fun t ht _ _ => ht.trans (t.accessed_send _ c)

theorem State.atomicLine_accessed (s : State) (i : Inst) (cas : Bool) (aop size tag : Nat) (a : LineAcc) :
    s.accessed (s.atomicLine i cas aop size tag a) i.c := by
  unfold State.atomicLine
  dsimp only
  split
  · exact (s.accessed_flushEntry i.c a.target).trans (State.accessed_send _ _ i.c)
  · exact (s.accessed_flushEntry i.c a.target).trans (State.accessed_sends i.c _ a.lanes _)

/-- The operands of a lane of an atomic. -/
theorem State.atomicLine_sent (h : s.accessed t i.c) (cas : Bool) (aop size tag : Nat) {a : LineAcc} (hm : a.target.kind = .module) :
    s.sent (t.atomicLine i cas aop size tag a) fun r => r.agent = .vec i.c i.slot ∧ r.addr = a.target.addr ∧ r.kind = .module ∧
      r.op = .atomic cas aop size i.u.d.toNat (a.lanes.map fun l => (l.1, l.2,
        BitVec.ofNat 64 ((s.grp i).regsVal l.1 i.u.c.toNat (sizeRegs size)),
        BitVec.ofNat 64 (if cas then (s.grp i).regsVal l.1 i.u.d.toNat (sizeRegs size) else 0))) := by
  unfold State.atomicLine
  rw [if_pos hm, h.grp]
  exact State.sent_send (h.1.trans (t.adds_flushEntry i.c a.target)) _ fun _ _ => ⟨rfl, rfl, hm, rfl⟩

/-! One line of a reduction. -/

/-- One line of a reduction: a buffered entry leaves first (R161), then the combined elements. -/
def State.redLine (s : State) (i : Inst) (op : RedOp) (a : LineAcc) : State :=
  (s.flushEntry i.c a.target).send ((s.flushEntry i.c a.target).vecReq i a.target (i.u.bits 0 2)
    (.reduce op (redTypeOf (i.u.bits 4 2)) (s.redElems i op (redTypeOf (i.u.bits 4 2)) a)))

theorem State.redElems_of_accessed (h : s.accessed t i.c) (op : RedOp) (type : RedType) (a : LineAcc) :
    t.redElems i op type a = s.redElems i op type a := by
  unfold State.redElems
  rw [h.grp]

/-- ATOM and ATOM.CAS after their checks. -/
theorem State.issue_atomicAct {f : Form} {cas : Bool} {aop : Nat} {as : List LineAcc} (h : s.executes i f)
    (hacc : s.accesses i (.atomic (i.u.bits 12 3 == 3 && (cas || aop == 0))) (2 ^ i.u.bits 12 3) ((s.grp i).passing i.u) = (.inr as, s1)) :
    let t := s.issue i f fun s => s.atomicAct i cas aop
    t.store = s.store ∧ ∀ a ∈ as, a.target.kind = .module →
      s.sent t fun r => r.agent = .vec i.c i.slot ∧ r.addr = a.target.addr ∧ r.kind = .module ∧
        r.op = .atomic cas aop (i.u.bits 12 3) i.u.d.toNat (a.lanes.map fun l => (l.1, l.2,
          BitVec.ofNat 64 ((s.grp i).regsVal l.1 i.u.c.toNat (sizeRegs (i.u.bits 12 3))),
          BitVec.ofNat 64 (if cas then (s.grp i).regsVal l.1 i.u.d.toNat (sizeRegs (i.u.bits 12 3)) else 0))) := by
  have hact : s.atomicAct i cas aop =
      .next (as.foldl (fun s a => s.atomicLine i cas aop (i.u.bits 12 3) (i.u.bits 0 2) a) s1) := by
    unfold State.atomicAct
    dsimp only
    rw [show sizeBytes (i.u.bits 12 3) = 2 ^ i.u.bits 12 3 from rfl, hacc]
  obtain ⟨hst, hsent⟩ := State.issue_lines (rel := fun x y => x.accessed y i.c) (act := fun s => s.atomicAct i cas aop) h hact
    State.accessed.trans And.left (State.accesses_looksUp hacc).accessed fun t a => t.atomicLine_accessed i cas aop _ _ a
  exact ⟨hst, fun a ha hm => hsent a ha _ fun t ht => State.atomicLine_sent ht cas aop _ _ hm⟩

/-- A reduction whose mask is the live mask, or that is .PARTIAL, after its checks. -/
theorem State.redIssue_sent {op : RedOp} {as : List LineAcc} (h : s.executes i (redForm i.u op))
    (hm : i.u.bit 11 = true ∨ (s.grp i).passing i.u = (s.grp i).live)
    (hacc : s.accesses i .reduce (redSize (redTypeOf (i.u.bits 4 2))) ((s.grp i).passing i.u) = (.inr as, s1)) :
    (s.redIssue i op).store = s.store ∧ ∀ a ∈ as,
      s.sent (s.redIssue i op) fun r => r.agent = .vec i.c i.slot ∧ r.addr = a.target.addr ∧ r.kind = a.target.kind ∧
        r.op = .reduce op (redTypeOf (i.u.bits 4 2)) (s.redElems i op (redTypeOf (i.u.bits 4 2)) a) := by
  rw [State.redIssue, State.collective_eq_issue h hm]
  obtain ⟨hst, hsent⟩ := State.issue_lines (rel := fun x y => x.accessed y i.c) (t := s1) (as := as) (line := fun s a => s.redLine i op a) h
    (act := fun s => match s.accesses i .reduce (redSize (redTypeOf (i.u.bits 4 2))) ((s.grp i).passing i.u) with
      | (.inl f, s1) => s1.failed i f
      | (.inr as, s1) => .next (as.foldl (fun s a => s.redLine i op a) s1))
    (by simp only [hacc]) State.accessed.trans And.left (State.accesses_looksUp hacc).accessed
    fun t a => (t.accessed_flushEntry i.c a.target).trans (State.accessed_send _ _ i.c)
  refine ⟨hst, fun a ha => hsent a ha _ fun t ht => ?_⟩
  rw [State.redLine, State.redElems_of_accessed ht]
  exact State.sent_send (ht.1.trans (t.adds_flushEntry i.c a.target)) _ fun _ _ => ⟨rfl, rfl, rfl, rfl⟩

end Atomics

/-- Settles O22: a line after another adds its request; the group's registers stand meanwhile. -/
theorem atomicsSendRequests : Obligations.AtomicsSendRequests := by
  unfold Obligations.AtomicsSendRequests
  rintro g u s s1 as m rfl
  constructor
  · rintro cas aop rfl h hacc
    cases cas with
    | false => exact ⟨s.issue (inst g u) (atomForm u) fun s => s.atomicAct (inst g u) false (u.bits 4 4), rfl, State.issue_atomicAct h hacc⟩
    | true => exact ⟨s.issue (inst g u) (atomCasForm u) fun s => s.atomicAct (inst g u) true 0, rfl, State.issue_atomicAct h hacc⟩
  · simp only [List.forall_mem_cons]
    refine ⟨fun h hm hacc => ⟨_, rfl, State.redIssue_sent h hm hacc⟩, fun h hm hacc => ⟨_, rfl, State.redIssue_sent h hm hacc⟩,
      fun h hm hacc => ⟨_, rfl, State.redIssue_sent h hm hacc⟩, List.forall_mem_nil _⟩

end Sys2Proof.Machine

/-! Stores, the write buffer and reservations (R44, R160, R161, R176). -/

namespace Sys2Proof.Machine

section Stores

variable {s s1 t : State} {i : Inst}

/-! Bytes put into a map, each at its own key. -/

theorem get_putAll_of_not_mem {k : Nat} : ∀ {bytes : List (Nat × Byte)} (_ : k ∉ bytes.map (·.1)) (m : SMap (Option Byte)),
    SMap.get none (bytes.foldl (fun m b => SMap.set none m b.1 (some b.2)) m) k = SMap.get none m k := by
  intro bytes h m
  induction bytes generalizing m with
  | nil => rfl
  | cons b bytes ih =>
    rw [List.map_cons, List.mem_cons, not_or] at h
    rw [List.foldl_cons, ih h.2, SMap.get_set_ne _ _ (Ne.symm h.1)]

theorem get_putAll {bytes : List (Nat × Byte)} (hnd : (bytes.map (·.1)).Nodup) {b : Nat × Byte} (hb : b ∈ bytes) (m : SMap (Option Byte)) :
    SMap.get none (bytes.foldl (fun m b => SMap.set none m b.1 (some b.2)) m) b.1 = some b.2 := by
  induction bytes generalizing m with
  | nil => cases hb
  | cons x bytes ih =>
    obtain ⟨hx, hnd⟩ := List.nodup_cons.1 hnd
    rw [List.foldl_cons]
    rcases List.mem_cons.1 hb with rfl | hb
    · rw [get_putAll_of_not_mem hx, SMap.get_set_self]
    · exact ih hnd hb _

/-- The bytes that a line access stores stand each at its own offset (R44). -/
theorem State.nodup_laneStores (s : State) (i : Inst) (size : Nat) (a : LineAcc) : ((s.laneStores i size a).map (·.1)).Nodup := by
  unfold State.laneStores
  generalize hm : a.lanes.foldl _ _ = m
  have hwf : SMap.wf none m = true := by
    rw [← hm]
    exact List.foldlRecOn (motive := fun m => SMap.wf none m = true) a.lanes _ rfl fun m h l _ =>
      List.foldlRecOn (motive := fun m => SMap.wf none m = true) _ _ h fun m h b _ => SMap.wf_set none _ _ h
  dsimp only
  rw [List.Nodup, List.pairwise_map, List.pairwise_filterMap]
  refine (List.pairwise_map.1 (SMap.nodup_keys hwf)).imp fun {x y} hne b hb b' hb' => ?_
  obtain ⟨_, -, rfl⟩ := Option.map_eq_some_iff.1 hb
  obtain ⟨_, -, rfl⟩ := Option.map_eq_some_iff.1 hb'
  exact hne

theorem State.laneStores_of_accessed (h : s.accessed t i.c) (size : Nat) (a : LineAcc) : t.laneStores i size a = s.laneStores i size a := by
  unfold State.laneStores State.storeBytes
  rw [h.grp]

/-! The write buffer. -/

/-- A store to a line leaves its bytes in the buffered entry of the line (R160). -/
theorem State.buffer_holds (s : State) (i : Inst) (x : Target) (tag : Nat) {bytes : List (Nat × Byte)} (hnd : (bytes.map (·.1)).Nodup) :
    ∃ e ∈ ((s.buffer i x tag bytes).core i.c).wb, e.line = x.addr ∧ e.kind = x.kind ∧
      ∀ b ∈ bytes, SMap.get none e.bytes b.1 = some b.2 := by
  unfold State.buffer
  dsimp only
  split
  · next e he =>
    have hmem := List.mem_of_find?_eq_some he
    have hp := List.find?_some he
    simp only [Bool.and_eq_true, beq_iff_eq] at hp
    rw [State.updCore_eq, State.core_setCore_self]
    refine ⟨_, List.mem_map.2 ⟨e, hmem, if_pos rfl⟩, hp.2, hp.1, fun b hb => get_putAll hnd hb _⟩
  · rw [State.updCore_eq, State.core_setCore_self]
    exact ⟨_, List.mem_append_right _ (List.mem_singleton.2 rfl), rfl, rfl, fun b hb => get_putAll hnd hb _⟩

theorem State.buffer_accessed (s : State) (i : Inst) (x : Target) (tag : Nat) (bytes : List (Nat × Byte)) :
    s.accessed (s.buffer i x tag bytes) i.c := by
  unfold State.buffer
  dsimp only
  split
  · exact State.accessed_updCore ⟨_, _, _, _, rfl⟩
  · refine State.accessed.trans ?_ (State.accessed_updCore ⟨_, _, _, _, rfl⟩)
    split
    · split
      · exact s.accessed_leaveWb i.c _
      · exact State.accessed.refl s i.c
    · exact State.accessed.refl s i.c

theorem State.storeLine_accessed (s : State) (i : Inst) (size tag : Nat) (a : LineAcc) : s.accessed (s.storeLine i size tag a) i.c := by
  have h := s.accessed_countLine i.c (a.offsets (sizeBytes size))
  unfold State.storeLine
  dsimp only
  split
  · exact h.trans ((State.accessed_flushEntry _ i.c a.target).trans (State.accessed_send _ _ i.c))
  · exact h.trans (State.buffer_accessed _ i a.target tag _)

/-- A Device line of a store goes to its home (R161). -/
theorem State.storeLine_sent (h : s.accessed t i.c) (size tag : Nat) {a : LineAcc} (hd : a.target.type = .device) :
    s.sent (t.storeLine i size tag a) fun r => r.agent = .vec i.c i.slot ∧ r.addr = a.target.addr ∧ r.kind = a.target.kind ∧
      r.op = .write (s.laneStores i size a) := by
  have hc := h.trans (t.accessed_countLine i.c (a.offsets (sizeBytes size)))
  unfold State.storeLine
  simp only [hd, beq_self_eq_true, if_true, State.laneStores_of_accessed hc]
  exact State.sent_send (hc.1.trans (State.adds_flushEntry _ i.c a.target)) _ fun _ _ => ⟨rfl, rfl, rfl, rfl⟩

/-- Another line of a store stays in the write buffer. -/
theorem State.storeLine_buffered (h : s.accessed t i.c) (size tag : Nat) {a : LineAcc} (hd : a.target.type ≠ .device) :
    ∃ e ∈ ((t.storeLine i size tag a).core i.c).wb, e.line = a.target.addr ∧ e.kind = a.target.kind ∧
      ∀ b ∈ s.laneStores i size a, SMap.get none e.bytes b.1 = some b.2 := by
  have hc := h.trans (t.accessed_countLine i.c (a.offsets (sizeBytes size)))
  unfold State.storeLine
  simp only [beq_eq_false_iff_ne.2 hd, Bool.false_eq_true, if_false, State.laneStores_of_accessed hc]
  exact State.buffer_holds _ i a.target tag (s.nodup_laneStores i size a)

/-- The effect of an ST whose lines pass the checks, with room in the Device queue. -/
theorem exec_st_act {g : GroupRef} {u : Fields} {as : List LineAcc}
    (hacc : s.accesses (inst g u) .store (2 ^ u.bits 12 3) ((s.grp (inst g u)).passing u) = (.inr as, s1))
    (hq : (s.deviceQueue g.core).length < 16) :
    ∃ act, exec (.st g u) s = .next (s.issue (inst g u) (stForm u) act) ∧
      act s = .next (as.foldl (fun s a => s.storeLine (inst g u) (u.bits 12 3) (u.bits 0 2) a) s1) := by
  refine ⟨_, rfl, ?_⟩
  have hfab : s1.deviceQueue g.core = s.deviceQueue g.core := by
    obtain ⟨⟨cores, xlat, rfl⟩, -⟩ := State.accesses_looksUp hacc
    rfl
  have hnot : ¬ 16 ≤ (s1.deviceQueue (inst g u).c).length := by
    rw [show (inst g u).c = g.core.val from rfl, hfab]
    omega
  simp only [show sizeBytes (u.bits 12 3) = 2 ^ u.bits 12 3 from rfl, hacc, hnot, decide_false, Bool.and_false, Bool.false_eq_true, if_false]

/-- What an entry's departure leaves of the write buffer, and the request that it becomes (R160). -/
theorem State.leaveWb_sent (s : State) (c : Nat) (e : WbEntry) :
    (s.leaveWb c e).store = s.store ∧ ((s.leaveWb c e).core c).wb = (s.core c).wb.filter (· != e) ∧
      s.sent (s.leaveWb c e) fun r => r.addr = e.line ∧ r.kind = e.kind ∧ r.part = e.part ∧ r.ctx = e.ctx ∧
        r.op = .write (e.bytes.filterMap fun b => b.2.map fun v => (b.1, v)) := by
  refine ⟨(s.adds_leaveWb c e).1, ?_, State.sent_send (s.adds_setCore c _) _ fun _ _ => ⟨rfl, rfl, rfl, rfl, rfl⟩⟩
  rw [State.leaveWb, State.core_send, State.updCore_eq, State.core_setCore_self]

end Stores

/-- Settles O21: the last line of a store stands when its request or its bytes have gone in, whatever lines came before. -/
theorem storesAndReservations : Obligations.StoresAndReservations := by
  unfold Obligations.StoresAndReservations
  refine ⟨fun g u s s1 as a h hacc hq => ?_, fun s c i e he => ?_, fun s g x hx hage => ?_⟩
  · obtain ⟨act, hexec, hact⟩ := exec_st_act hacc hq
    rw [List.foldl_append, List.foldl_cons, List.foldl_nil] at hact
    generalize hm : as.foldl _ s1 = m at hact
    have hms : s.accessed m (inst g u).c := by
      rw [← hm]
      exact List.foldlRecOn (motive := fun t => s.accessed t (inst g u).c) as _ (State.accesses_looksUp hacc).accessed
        fun t ht a _ => ht.trans (t.storeLine_accessed _ _ _ a)
    have hadds := (m.storeLine (inst g u) (u.bits 12 3) (u.bits 0 2) a).adds_retire (inst g u)
    refine ⟨_, hexec, ?_, fun hd => ?_, fun hd => ?_⟩
    · rw [State.issue_of_next h hact]
      exact ((hms.trans (m.storeLine_accessed _ _ _ a)).1.trans hadds).1
    · rw [State.issue_of_next h hact]
      exact (State.storeLine_sent hms _ _ hd).mono hadds
    · rw [State.issue_of_next h hact]
      obtain ⟨-, -, -, -, -, -, -, hwb, -⟩ := (m.storeLine (inst g u) (u.bits 12 3) (u.bits 0 2) a).retire_fields (inst g u)
      obtain ⟨e, he, hrest⟩ := State.storeLine_buffered (i := inst g u) hms (u.bits 12 3) (u.bits 0 2) hd
      exact ⟨e, hwb ▸ he, hrest⟩
  · refine ⟨s.leaveWb c e, ?_, s.leaveWb_sent c e⟩
    show execWriteBufferEntryRelease c i s = _
    rw [execWriteBufferEntryRelease, he]
  · refine ⟨s.setCore g.core ((s.core g.core).setGroup g.slot { (s.core g.core).group g.slot with resv := none }), ?_,
      s.onlyCore_setCore _ _, ?_, fun j hj => ?_⟩
    · show execReservationTimeout g s = _
      simp only [execReservationTimeout, hx, hage, if_true]
      rfl
    · rw [State.core_setCore_self, Core.group_setGroup_self]
    · rw [State.core_setCore_self, Core.group_setGroup, if_neg hj.symm]

end Sys2Proof.Machine

/-! Loads, reservations and the constant pool (R43, R49, R122, R131, R139, R175). -/

namespace Sys2Proof.Machine

section Loads

variable {r s s1 t : State} {c : Nat} {i : Inst}

/-! The read-only L1 while the lines of a load are read. -/

/-- Requests are added, and the read-only L1 of core `c` has got no new line. -/
def State.reads (s t : State) (c : Nat) : Prop := s.adds t ∧ ∀ y ∈ (t.core c).l1, ∃ z ∈ (s.core c).l1, z.line = y.line

theorem State.reads_of_l1 (ha : s.adds t) (hl : (t.core c).l1 = (s.core c).l1) : s.reads t c :=
  ⟨ha, fun y hy => ⟨y, hl ▸ hy, rfl⟩⟩

theorem State.reads.trans (h : r.reads s c) (h' : s.reads t c) : r.reads t c := by
  obtain ⟨ha, hl⟩ := h
  obtain ⟨ha', hl'⟩ := h'
  refine ⟨ha.trans ha', fun y hy => ?_⟩
  obtain ⟨z, hz, hzy⟩ := hl' y hy
  obtain ⟨w, hw, hwz⟩ := hl z hz
  exact ⟨w, hw, hwz.trans hzy⟩

theorem State.looksUp.reads (h : s.looksUp t c) : s.reads t c := by
  obtain ⟨-, utlb, counters, hc⟩ := id h
  exact State.reads_of_l1 h.adds (by rw [hc])

theorem State.reads_updCore {f : Core → Core} (h : (f (s.core c)).l1 = (s.core c).l1) : s.reads (s.updCore c f) c :=
  State.reads_of_l1 (s.adds_setCore c _) (by rw [State.updCore_eq, State.core_setCore_self, h])

theorem State.reads_send (s : State) (q : Req) (c : Nat) : s.reads (s.send q) c :=
  State.reads_of_l1 (s.adds_send q) (by rw [State.core_send])

theorem State.reads_flushEntry (s : State) (c : Nat) (x : Target) : s.reads (s.flushEntry c x) c := by
  unfold State.flushEntry
  split
  · next e _ => exact (State.reads_updCore (s := s) (f := fun k => { k with wb := k.wb.filter (· != e) }) rfl).trans (State.reads_send _ _ c)
  · exact State.reads_of_l1 (State.adds.refl s) rfl

/-- A line that the L1 holds comes to its front. -/
theorem State.reads_fillL1 {x : L1Line} (hx : x ∈ (s.core c).l1) (bytes : List Byte) : s.reads (s.fillL1 c x.line bytes) c := by
  refine ⟨s.adds_setCore c _, fun y hy => ?_⟩
  rw [State.fillL1, State.updCore_eq, State.core_setCore_self] at hy
  rcases List.mem_cons.1 (List.mem_of_mem_take hy) with rfl | hy
  · exact ⟨x, hx, rfl⟩
  · exact ⟨y, List.mem_of_mem_filter hy, rfl⟩

theorem State.reads_loadLanes (s : State) (c slot d size : Nat) (sign : Bool) (ls : List (Nat × Nat)) (get : Nat → Byte) :
    s.reads (s.loadLanes c slot d size sign ls get) c := by
  refine State.reads_updCore ?_
  split
  · rfl
  · rfl

theorem State.fab_loadLanes (s : State) (c slot d size : Nat) (sign : Bool) (ls : List (Nat × Nat)) (get : Nat → Byte) :
    (s.loadLanes c slot d size sign ls get).fab = s.fab := rfl

theorem State.reads_countLine (s : State) (c : Nat) (offs : List Nat) : s.reads (s.countLine c offs) c := State.reads_updCore rfl

/-! One line of LD. -/

/-- A line found in the L1 by a load that passes through it. -/
theorem L1Line.of_find {b : Bool} {l : List L1Line} {key : Nat} {x : L1Line}
    (h : (if b then l.find? fun x => x.line == key else none) = some x) : x ∈ l ∧ x.line = key := by
  cases b with
  | false => cases h
  | true => exact ⟨List.mem_of_find?_eq_some h, beq_iff_eq.1 (List.find?_some (p := fun x : L1Line => x.line == key) h)⟩

theorem State.loadLine_reads (s : State) (i : Inst) (size : Nat) (sign ro : Bool) (tag : Nat) (a : LineAcc) :
    s.reads (s.loadLine i size sign ro tag a) i.c := by
  have hc := s.reads_countLine i.c (a.offsets (sizeBytes size))
  unfold State.loadLine
  dsimp only
  split
  · exact hc.trans ((State.reads_flushEntry _ i.c a.target).trans (State.reads_send _ _ i.c))
  · split
    · next x hx =>
      obtain ⟨hmem, hkey⟩ := L1Line.of_find hx
      rw [← hkey]
      exact hc.trans ((State.reads_updCore rfl).trans ((State.reads_fillL1 (by rw [State.updCore_eq, State.core_setCore_self]; exact hmem) _).trans
        (State.reads_loadLanes _ i.c _ _ _ _ _ _)))
    · refine hc.trans (State.reads.trans ?_ (State.reads_send _ _ i.c))
      split
      · exact State.reads_updCore rfl
      · exact State.reads_of_l1 (State.adds.refl _) rfl

/-- A Device line, and a line that does not pass through the L1, is read by a request (R49). -/
theorem State.loadLine_direct (h : s.reads t i.c) (size : Nat) (sign ro : Bool) (tag : Nat) {a : LineAcc}
    (hd : a.target.type = .device ∨ (ro = false ∧ a.target.type ≠ .replicable)) :
    s.sent (t.loadLine i size sign ro tag a) fun r => r.agent = .vec i.c i.slot ∧ r.addr = a.target.addr ∧ r.kind = a.target.kind ∧
      ∃ fwd, r.op = .load i.u.d.toNat size sign false a.lanes fwd := by
  have hc := h.1.trans (t.reads_countLine i.c (a.offsets (sizeBytes size))).1
  by_cases hdev : a.target.type = .device
  · unfold State.loadLine
    simp only [hdev, beq_self_eq_true, if_true]
    exact State.sent_send (hc.trans (State.adds_flushEntry _ i.c a.target)) _ fun _ _ => ⟨rfl, rfl, rfl, [], rfl⟩
  · obtain ⟨rfl, hrep⟩ := hd.resolve_left hdev
    unfold State.loadLine
    simp only [beq_eq_false_iff_ne.2 hdev, beq_eq_false_iff_ne.2 hrep, Bool.or_self, Bool.false_eq_true, if_false]
    exact State.sent_send hc _ fun _ _ => ⟨rfl, rfl, rfl, _, rfl⟩

theorem loadThrough_of {ro : Bool} {x : MemType} (h : ro = true ∨ x = .replicable) : (ro || x == .replicable) = true := by
  rw [Bool.or_eq_true, beq_iff_eq]
  exact h

/-- A line that passes through the L1, and that the L1 does not hold, is read by a request for the whole of it. -/
theorem State.loadLine_miss (h : s.reads t i.c) (size : Nat) (sign ro : Bool) (tag : Nat) {a : LineAcc} (hdev : a.target.type ≠ .device)
    (hro : ro = true ∨ a.target.type = .replicable) (hmiss : ∀ y ∈ (s.core i.c).l1, y.line ≠ l1Key a.target.kind a.target.addr) :
    s.sent (t.loadLine i size sign ro tag a) fun r => r.agent = .vec i.c i.slot ∧ r.addr = a.target.addr ∧ r.kind = a.target.kind ∧
      ∃ fwd, r.op = .load i.u.d.toNat size sign true a.lanes fwd := by
  have hc := h.trans (t.reads_countLine i.c (a.offsets (sizeBytes size)))
  have hnone : ((t.countLine i.c (a.offsets (sizeBytes size))).core i.c).l1.find?
      (fun x => x.line == l1Key a.target.kind a.target.addr) = none := by
    rw [List.find?_eq_none]
    intro y hy hkey
    obtain ⟨z, hz, hzy⟩ := hc.2 y hy
    exact hmiss z hz (hzy.trans (beq_iff_eq.1 hkey))
  unfold State.loadLine
  simp only [beq_eq_false_iff_ne.2 hdev, loadThrough_of hro, Bool.false_eq_true, if_false, if_true, hnone]
  exact State.sent_send (hc.1.trans (State.adds_setCore _ i.c _)) _ fun _ _ => ⟨rfl, rfl, rfl, _, rfl⟩

/-- A line that the L1 holds is read without a request. -/
theorem State.loadLine_hit (t : State) (i : Inst) (size : Nat) (sign ro : Bool) (tag : Nat) {a : LineAcc} (hdev : a.target.type ≠ .device)
    (hro : ro = true ∨ a.target.type = .replicable) (hhit : ∃ y ∈ (t.core i.c).l1, y.line = l1Key a.target.kind a.target.addr) :
    (t.loadLine i size sign ro tag a).fab = t.fab := by
  have hl1 : ((t.countLine i.c (a.offsets (sizeBytes size))).core i.c).l1 = (t.core i.c).l1 := by
    rw [State.countLine, State.updCore_eq, State.core_setCore_self]
    rfl
  obtain ⟨x, hx⟩ : ∃ x, (t.core i.c).l1.find? (fun x => x.line == l1Key a.target.kind a.target.addr) = some x := by
    rw [← Option.isSome_iff_exists, List.find?_isSome]
    simpa only [beq_iff_eq] using hhit
  unfold State.loadLine
  simp only [beq_eq_false_iff_ne.2 hdev, loadThrough_of hro, Bool.false_eq_true, if_false, if_true, hl1, hx]
  rw [State.fab_loadLanes]
  rfl

/-- The effect of an LD whose lines pass the checks. -/
theorem exec_ld_act {g : GroupRef} {u : Fields} {as : List LineAcc}
    (hacc : s.accesses (inst g u) .load (2 ^ u.bits 12 3) ((s.grp (inst g u)).passing u) = (.inr as, s1)) :
    ∃ act, exec (.ld g u) s = .next (s.issue (inst g u) (ldForm u) act) ∧
      act s = .next (as.foldl (fun s a => s.loadLine (inst g u) (u.bits 12 3) (u.bit 11) (u.bit 10) (u.bits 0 2) a) s1) := by
  refine ⟨_, rfl, ?_⟩
  simp only [show sizeBytes (u.bits 12 3) = 2 ^ u.bits 12 3 from rfl, hacc]

/-! One request of a group. -/

/-- An instruction that executes once per group and sends one request. -/
theorem State.onceIssue_sent {f : Form} {act : State → Effect} {q : Req} (h : s.executes i f) (hp : (s.grp i).passing i.u ≠ 0)
    (hact : act s = .next (t.send q)) (ha : s.adds t) :
    (s.onceIssue i f act).store = s.store ∧
      ∀ p : Req → Prop, (∀ id place, p { q with id, place }) → s.sent (s.onceIssue i f act) p := by
  have hend := (t.send q).adds_retire i
  rw [State.onceIssue_eq_issue h hp, State.issue_of_next h hact]
  exact ⟨((ha.trans (t.adds_send q)).trans hend).1, fun p hq => (State.sent_send ha q hq).mono hend⟩

theorem exec_ldres_act {g : GroupRef} {u : Fields} {x : Target} {off : Nat}
    (hacc : s.uniformAccess (inst g u) .ldres (u.bits 12 3) = (.inr (x, off), s1)) :
    ∃ act, exec (.ldres g u) s = .next (s.onceIssue (inst g u) (ldresForm u) act) ∧ ∃ granule,
      act s = .next ((s1.flushEntry g.core x).send ((s1.flushEntry g.core x).vecReq (inst g u) x 0
        (.ldres (u.bits 12 3) u.d.toNat off granule))) := by
  refine ⟨_, rfl, ?_⟩
  simp only [hacc]
  exact ⟨_, rfl⟩

theorem exec_stcond_act {g : GroupRef} {u : Fields} {x : Target} {off : Nat}
    (hacc : s.uniformAccess (inst g u) .stcond (u.bits 12 3) = (.inr (x, off), s1)) :
    ∃ act, exec (.stcond g u) s = .next (s.onceIssue (inst g u) (stcondForm u) act) ∧
      act s = .next ((s1.flushEntry g.core x).send ((s1.flushEntry g.core x).vecReq (inst g u) x 0
        (.stcond (u.bits 12 3) off u.d.toNat (s.uVal (inst g u) u.c.toNat)))) := by
  have hv : (s1.flushEntry g.core x).uVal (inst g u) u.c.toNat = s.uVal (inst g u) u.c.toNat :=
    ((State.uniformAccess_looksUp hacc).accessed.trans (s1.accessed_flushEntry g.core x)).uVal _
  refine ⟨_, rfl, ?_⟩
  simp only [hacc, ← hv]
  rfl

/-! The constant pool. -/

theorem l1Key_module (line : Nat) : l1Key .module line = line := rfl

/-- LDK of a doubleword of the pool that the L1 holds (R122). -/
theorem State.ldk_hit {f : Form} {act : State → Effect} {d key : Nat} {v : DWord} {bytes : List Byte} (h : s.executes i f)
    (hp : (s.grp i).passing i.u ≠ 0)
    (hact : act s = .next (((s.updCore i.c fun k => k.count 0x148 1).fillL1 i.c key bytes).putU i d v)) :
    (s.onceIssue i f act).store = s.store ∧ (s.grp i).writesU ((s.onceIssue i f act).grp i) d v := by
  have ha : s.accessed ((s.updCore i.c fun k => k.count 0x148 1).fillL1 i.c key bytes) i.c :=
    (State.accessed_updCore ⟨_, _, _, _, rfl⟩).trans (State.accessed_updCore ⟨_, _, _, _, rfl⟩)
  rw [State.onceIssue_eq_issue h hp, State.issue_of_next h hact]
  refine ⟨((ha.1.trans (State.adds_setCore _ i.c _)).trans (State.adds_retire _ i)).1, Group.writesU_of ?_⟩
  rw [State.advance_placed, State.grp_countIssue, State.putU, State.grp_setGrp, ha.grp]

theorem exec_ldk_act {g : GroupRef} {u : Fields} {k pa : Nat}
    (hk : k = (s.uVal (inst g u) u.a.toNat + 8 * u.mod.signExtend 64).toNat) (hal : k % 8 = 0)
    (hpool : k < (s.core (inst g u).c).kernel.poolBytes) (hpa : pa = (s.core (inst g u).c).kernelBase + (s.core (inst g u).c).kernel.poolOff + k) :
    ∃ act, exec (.ldk g u) s = .next (s.onceIssue (inst g u) (ldkForm u) act) ∧
      (∀ y, (s.core (inst g u).c).l1.find? (fun y => y.line == lineOf pa) = some y →
        act s = .next (((s.updCore (inst g u).c fun k => k.count 0x148 1).fillL1 (inst g u).c (lineOf pa) y.bytes).putU (inst g u) u.d.toNat
          (BitVec.ofNat 64 (gather (fun o => y.bytes.getD o 0) (pa % 128) 8)))) ∧
      ((s.core (inst g u).c).l1.find? (fun y => y.line == lineOf pa) = none →
        ∃ q, act s = .next ((s.updCore (inst g u).c fun k => k.count 0x150 1).send q) ∧
        q.agent = .ldk g.core g.slot ∧ q.addr = lineOf pa ∧ q.op = .ldk u.d.toNat (pa % 128)) := by
  have h8 : (k % 8 != 0) = false := by rw [hal]; rfl
  refine ⟨_, rfl, fun y hy => ?_, fun hy => ?_⟩
  · simp only [l1Key_module, ← hk, ← hpa, h8, Nat.not_le.2 hpool, hy, Bool.false_eq_true, if_false]
  · simp only [l1Key_module, ← hk, ← hpa, h8, Nat.not_le.2 hpool, hy, Bool.false_eq_true, if_false]
    exact ⟨_, rfl, rfl, rfl, rfl⟩

end Loads

/-- Settles O20: each line of a load is read from the L1, or by a request that stays on its way when the next lines follow. -/
theorem loads : Obligations.Loads := by
  unfold Obligations.Loads
  refine ⟨fun g u s s1 as h hacc => ?_, fun g u s s1 x off hp => ⟨fun h hacc => ?_, fun h hacc => ?_, fun k pa h hk hal hpool hpa => ?_⟩⟩
  · obtain ⟨act, hexec, hact⟩ := exec_ld_act hacc
    have hl := State.accesses_looksUp hacc
    obtain ⟨hst, hsent⟩ := State.issue_lines (rel := fun x y => x.reads y (inst g u).c) h hact State.reads.trans And.left hl.reads
      fun t a => t.loadLine_reads _ _ _ _ _ a
    refine ⟨_, hexec, hst, fun a ha hd => hsent a ha _ fun t ht => State.loadLine_direct ht _ _ _ _ hd,
      fun a ha hd hro hmiss => hsent a ha _ fun t ht => State.loadLine_miss ht _ _ _ _ hd hro hmiss, ?_⟩
    rintro a rfl hd hro hhit
    obtain ⟨-, utlb, counters, hcore⟩ := id hl
    have hfab : s1.fab = s.fab := by
      obtain ⟨⟨cores, xlat, hs1⟩, -⟩ := id hl
      rw [hs1]
    rw [State.issue_of_next h hact, State.fab_retire]
    exact (State.loadLine_hit s1 (inst g u) _ _ _ _ hd hro (by rw [hcore]; exact hhit)).trans hfab
  · obtain ⟨act, hexec, granule, hact⟩ := exec_ldres_act hacc
    obtain ⟨hst, hsent⟩ := State.onceIssue_sent h hp hact ((State.uniformAccess_looksUp hacc).adds.trans (State.adds_flushEntry s1 _ x))
    exact ⟨_, hexec, hst, hsent _ fun _ _ => ⟨rfl, rfl, granule, rfl⟩⟩
  · obtain ⟨act, hexec, hact⟩ := exec_stcond_act hacc
    obtain ⟨hst, hsent⟩ := State.onceIssue_sent h hp hact ((State.uniformAccess_looksUp hacc).adds.trans (State.adds_flushEntry s1 _ x))
    exact ⟨_, hexec, hst, hsent _ fun _ _ => ⟨rfl, rfl, rfl⟩⟩
  · obtain ⟨act, hexec, hhit, hmiss⟩ := exec_ldk_act hk hal hpool hpa
    refine ⟨_, hexec, ?_⟩
    split
    · next y hy => exact State.ldk_hit h hp (hhit y hy)
    · next hy =>
      obtain ⟨q, hact, hagent, haddr, hop⟩ := hmiss hy
      obtain ⟨hst, hsent⟩ := State.onceIssue_sent h hp hact (State.adds_setCore s _ _)
      exact ⟨hst, hsent _ fun _ _ => ⟨hagent, haddr, hop⟩⟩

end Sys2Proof.Machine

/-! Sweeps and way changes of a cache half (R194 to R197, R223): what they leave of its settings, and when nothing is left to do. -/

namespace Sys2Proof.Machine

section CacheControls

variable {r s t : State} {h : Nat}

/-! Work on the lines of a half. -/

/-- Only lines, counters and high-water marks differ. -/
def Half.worked (x y : Half) : Prop := ∃ lines counters hwm, y = { x with lines, counters, hwm }

theorem Half.worked_setLine (x : Half) (key : Nat) (l : CLine) : x.worked (x.setLine key l) := ⟨_, _, _, rfl⟩

theorem Half.worked.trans {x y z : Half} (hx : x.worked y) (hy : y.worked z) : x.worked z := by
  obtain ⟨lines, counters, hwm, rfl⟩ := hx
  obtain ⟨lines', counters', hwm', rfl⟩ := hy
  exact ⟨lines', counters', hwm', rfl⟩

/-- Lines of half `h` were worked on: memory stands, and of the half only lines, counters and high-water marks differ. -/
def State.worksHalf (s t : State) (h : Nat) : Prop := t.store = s.store ∧ (s.half h).worked (t.half h)

theorem State.worksHalf.refl (s : State) (h : Nat) : s.worksHalf s h := ⟨rfl, _, _, _, rfl⟩

theorem State.worksHalf.trans (hr : r.worksHalf s h) (hs : s.worksHalf t h) : r.worksHalf t h :=
  ⟨hs.1.trans hr.1, hr.2.trans hs.2⟩

theorem State.worksHalf_setHalf {x : Half} (hx : (s.half h).worked x) : s.worksHalf (s.setHalf h x) h :=
  ⟨rfl, by rw [State.half_setHalf_self]; exact hx⟩

theorem State.worksHalf_of_halves (hs : t.store = s.store) (hh : t.fab.halves = s.fab.halves) : s.worksHalf t h := by
  have hx : t.half h = s.half h := congrArg (fun m => SMap.get ({} : Half) m h) hh
  exact ⟨hs, by rw [hx]; exact ⟨_, _, _, rfl⟩⟩

theorem State.worksHalf_pushMem (s : State) (h a : Nat) (op : MemOp) : s.worksHalf (s.pushMem a op) h := State.worksHalf_of_halves rfl rfl

theorem State.worksHalf_foldl {α : Type} {f : State → α → State} (hf : ∀ (s : State) (a : α), s.worksHalf (f s a) h)
    (l : List α) (s : State) : s.worksHalf (l.foldl f s) h :=
  List.foldlRecOn (motive := fun t => s.worksHalf t h) l f (State.worksHalf.refl s h) fun t ht a _ => ht.trans (hf t a)

theorem State.worksHalf_cacheCount (s : State) (h p off n : Nat) : s.worksHalf (s.cacheCount h p off n) h := by
  unfold State.cacheCount
  dsimp only
  split
  · exact State.worksHalf.refl s h
  · exact State.worksHalf_setHalf ⟨_, _, _, rfl⟩

theorem State.worksHalf_writeDirty (s : State) (h key : Nat) : s.worksHalf (s.writeDirty h key) h := by
  unfold State.writeDirty
  refine State.worksHalf.trans (State.worksHalf_foldl (fun t k => ?_) _ s) (State.worksHalf_setHalf (Half.worked_setLine _ _ _))
  exact (t.worksHalf_pushMem h _ _).trans (State.worksHalf_cacheCount _ h _ _ _)

theorem State.worksHalf_emptyWay (s : State) (h key : Nat) : s.worksHalf (s.emptyWay h key) h := by
  refine State.worksHalf_setHalf ?_
  split
  · exact (Half.worked_setLine _ _ _).trans (Half.worked_setLine _ _ _)
  · exact Half.worked_setLine _ _ _

theorem State.worksHalf_reduceWriteback (s : State) (h key : Nat) : s.worksHalf (s.reduceWriteback h key) h :=
  ((s.worksHalf_pushMem h _ _).trans (State.worksHalf_cacheCount _ h _ _ _)).trans (State.worksHalf_emptyWay _ h key)

theorem State.worksHalf_evictNow (s : State) (h key : Nat) : s.worksHalf (s.evictNow h key) h := by
  have hr : s.worksHalf (s.removalEndsResv ((s.half h).line key).addr) h := State.worksHalf_of_halves rfl rfl
  unfold State.evictNow
  dsimp only
  split
  · exact hr.trans (State.worksHalf_reduceWriteback _ h key)
  · exact hr.trans ((State.worksHalf_writeDirty _ h key).trans (State.worksHalf_emptyWay _ h key))
  · exact hr.trans ((State.worksHalf_writeDirty _ h key).trans (State.worksHalf_emptyWay _ h key))
  · exact hr.trans (State.worksHalf_emptyWay _ h key)

theorem State.worksHalf_dropReplica (s : State) (h key : Nat) : s.worksHalf (s.dropReplica h key) h := by
  unfold State.dropReplica
  dsimp only
  split
  · exact State.worksHalf_setHalf (Half.worked_setLine _ _ _)
  · exact (State.worksHalf_cacheCount s h _ _ _).trans (State.worksHalf_setHalf (Half.worked_setLine _ _ _))

theorem State.worksHalf_startInvalidate (s : State) (h key : Nat) (after : AfterHold) (waiters : List Nat) :
    s.worksHalf (s.startInvalidate h key after waiters) h :=
  State.worksHalf_setHalf ⟨_, _, _, rfl⟩

theorem State.worksHalf_clearWay (s : State) (h key : Nat) : s.worksHalf (s.clearWay h key) h := by
  unfold State.clearWay
  dsimp only
  split
  · exact s.worksHalf_dropReplica h key
  · exact s.worksHalf_dropReplica h key
  · exact State.worksHalf.refl s h
  · exact State.worksHalf.refl s h
  · split
    · exact State.worksHalf.refl s h
    · split
      · exact s.worksHalf_evictNow h key
      · exact s.worksHalf_startInvalidate h key _ _

theorem State.worksHalf_clearRoles (s : State) (h : Nat) : s.worksHalf (s.clearRoles h) h :=
  State.worksHalf_foldl (fun t k => t.worksHalf_clearWay h k) _ s

theorem State.worksHalf_sweepCtx (s : State) (h ctx : Nat) : s.worksHalf (s.sweepCtx h ctx) h := by
  refine State.worksHalf_foldl (fun t k => ?_) _ s
  dsimp only
  split
  · exact (t.worksHalf_writeDirty h k).trans (State.worksHalf_setHalf (Half.worked_setLine _ _ _))
  · split
    · exact State.worksHalf.refl t h
    · exact t.worksHalf_reduceWriteback h k
  · exact t.worksHalf_dropReplica h k
  · exact t.worksHalf_dropReplica h k
  · split
    · exact State.worksHalf.refl t h
    · exact t.worksHalf_writeDirty h k
  · split
    · exact State.worksHalf.refl t h
    · exact t.worksHalf_writeDirty h k
  · exact State.worksHalf.refl t h

theorem State.worksHalf_runSweep (s : State) (h : Nat) : s.worksHalf (s.runSweep h) h := by
  unfold State.runSweep
  dsimp only
  split
  · exact s.worksHalf_sweepCtx h _
  · exact State.worksHalf_foldl (fun t k => t.worksHalf_clearWay h k) _ s

/-! When no named line is left. -/

theorem Half.keys_eq_nil {x : Half} {p : Nat → CLine → Bool} (hx : ∀ e ∈ x.lines, p e.1 e.2 = true → e.2.state = .invalid) :
    x.keys p = [] := by
  rw [Half.keys, List.map_eq_nil_iff, List.filter_eq_nil_iff]
  intro e he hp
  rw [Bool.and_eq_true, bne_iff_ne] at hp
  exact hp.2 (hx e he hp.1)

/-- A change of roles with no line left in a way that changes its role. -/
theorem State.clearRoles_of_clear
    (hx : ∀ e ∈ (s.half h).lines, roleChanges (s.half h).nReplica (s.half h).nNext (keyWay e.1) = true → e.2.state = .invalid) :
    s.clearRoles h = s := by
  rw [State.clearRoles, Half.keys_eq_nil hx, List.foldl_nil]

/-- The lines that the sweep of a half names. -/
def Half.swept (x : Half) (key : Nat) (l : CLine) : Prop :=
  if x.sweepMode then l.ctx = x.sweepCtx else sweepTakes x.sweepPart x.sweepWays key l = true

theorem State.runSweep_of_swept (hx : ∀ e ∈ (s.half h).lines, (s.half h).swept e.1 e.2 → e.2.state = .invalid) : s.runSweep h = s := by
  unfold Half.swept at hx
  unfold State.runSweep
  dsimp only
  cases hm : (s.half h).sweepMode with
  | true =>
    simp only [hm, if_true] at hx
    rw [if_pos rfl, State.sweepCtx, Half.keys_eq_nil fun e he hp => hx e he (beq_iff_eq.1 hp), List.foldl_nil]
  | false =>
    simp only [hm, Bool.false_eq_true, if_false] at hx
    rw [if_neg Bool.false_ne_true, State.sweepPart, Half.keys_eq_nil hx, List.foldl_nil]

theorem Half.sweepLeft_of_swept {x : Half} (hx : ∀ e ∈ x.lines, x.swept e.1 e.2 → e.2.state = .invalid) : x.sweepLeft = [] := by
  refine Half.keys_eq_nil fun e he hp => hx e he ?_
  unfold Half.swept
  split at hp
  · next hm =>
    rw [if_pos hm]
    exact beq_iff_eq.1 (Bool.and_eq_true _ _ ▸ hp).1
  · next hm =>
    rw [if_neg hm]
    exact hp

theorem State.half_of_raised (hr : s.raised t) (h : Nat) : t.half h = s.half h := by
  have hh := congrArg (fun x : State => x.half h) hr.2
  exact hh

theorem State.half_replicaSetDone (s : State) (h : Nat) : s.replicaSetDone.half h = s.half h := by
  unfold State.replicaSetDone
  split
  · split
    · rfl
    · unfold State.opDone
      split
      · rfl
      · exact State.half_of_raised (State.raised_mbxEvent _ _ _ _) h
  · rfl

end CacheControls

end Sys2Proof.Machine

/-! Register writes of the wardens (R65, R252, R334, R335, R366). -/

namespace Sys2Proof.Machine

section Registers

variable {s : State}

theorem leNat_leBytes (n v : Nat) : leNat (leBytes n v) = v % 256 ^ n := by
  induction n generalizing v with
  | zero => exact (Nat.mod_one v).symm
  | succ n ih =>
    rw [leBytes, leNat, ih, BitVec.toNat_ofNat, Nat.pow_succ' (m := 256), Nat.mod_mul]

/-- A word that a warden writes in internal control space (R366). -/
theorem exec_registerWrite_ics (off : Nat) (v : Word) (hal : off % 4 = 0) (hoff : off < 2 ^ 40) :
    exec (.registerWrite .ics off (leBytes 4 v.toNat)) s = .next (s.icsWordWrite off v) := by
  have hv : BitVec.ofNat 32 (leNat (leBytes 4 v.toNat)) = v := by
    rw [leNat_leBytes, Nat.mod_eq_of_lt (show v.toNat < 256 ^ 4 from v.isLt), BitVec.ofNat_toNat, BitVec.setWidth_eq]
  show execRegisterWrite .ics off (leBytes 4 v.toNat) s = _
  have hw : wfPayload (leBytes 4 v.toNat) = true := by
    rw [wfPayload, length_leBytes]
    rfl
  unfold execRegisterWrite
  simp only [hw, hoff, length_leBytes, hal, decide_true, Bool.and_self, Bool.not_true, Bool.false_eq_true, if_false, Bool.true_or,
    beq_self_eq_true, if_true, State.icsWrite, hv]
  rfl

/-- A write of a warden to a word of a block. -/
theorem exec_registerWrite_block {off w : Nat} {b : Block} (v : Word) (hal : off % 4 = 0) (hoff : off < 2 ^ 40)
    (hb : (icsBlock off).1 = b ∧ (icsBlock off).2 = w) {t : State}
    (ht : icsBlock off = (b, w) → s.icsWordWrite off v = t) : exec (.registerWrite .ics off (leBytes 4 v.toNat)) s = .next t := by
  rw [exec_registerWrite_ics off v hal hoff, ht (Prod.ext hb.1 hb.2)]

theorem bitsOf_zero (n len : Nat) : bitsOf n 0 len = n % 2 ^ len := by
  rw [bitsOf, Nat.pow_zero, Nat.div_one]

/-- CORE_CTX, which a warden writes only in IDLE (R65). -/
theorem Core.configure_ctx (k : Core) (v : Word) :
    k.configure 0x10 v = { k with partition := v.toNat / 2 ^ 16 % 256, context := v.toNat % 2 ^ 16 } := by
  rw [← bitsOf_zero v.toNat 16]
  rfl

/-- The fields of MESH_CTRL (R252). -/
theorem State.meshCtrlWrite_core (s : State) (c : CoreIdx) (v : Word) :
    (s.meshCtrlWrite c v).core c = { s.core c with router := { (s.core c).router with
      run := v.getLsbD 0, running := (s.core c).router.running && v.getLsbD 0,
      lc := if (s.core c).router.run then (s.core c).router.lc else v.getLsbD 12,
      edge := if (s.core c).router.run then (s.core c).router.edge else v.extractLsb' 4 4 } } := by
  have he : BitVec.ofNat 4 (bitsOf v.toNat 4 4) = v.extractLsb' 4 4 := by
    apply BitVec.eq_of_toNat_eq
    rw [BitVec.toNat_ofNat, BitVec.extractLsb'_toNat, bitsOf, Nat.mod_mod, Nat.shiftRight_eq_div_pow]
  rw [State.meshCtrlWrite, State.updCore_eq, State.core_setCore_self, he]
  dsimp only
  split_ifs
  · rfl
  · rfl

/-- A write of an arbiter's limit that a pending launch holds off (R335). -/
theorem State.arb_unless (s : State) (b : Bool) (key : Nat) (x : Arb) :
    s.onlyArb (if b then s else s.setArb key x) key ∧ (if b then s else s.setArb key x).arb key = if b then s.arb key else x := by
  cases b with
  | true => exact ⟨⟨rfl, fun _ _ => rfl⟩, rfl⟩
  | false => exact ⟨s.onlyArb_setArb key x, s.arb_setArb_self key x⟩

end Registers

section HalfRegisters

variable {s : State} {h : Nat} {x : Half}

/-- The beginning of a change of the replica ways (R197). -/
theorem State.setReplicaWays_half (s : State) (h n : Nat) :
    ((s.setReplicaWays h n).half h).cfgBusy = true ∧ ((s.setReplicaWays h n).half h).nReplica = (s.half h).nReplica ∧
      ((s.setReplicaWays h n).half h).nNext = Nat.min n 8 ∧ (s.setReplicaWays h n).store = s.store := by
  obtain ⟨hst, lines, counters, hwm, hx⟩ :=
    (s.setHalf h { s.half h with cfgBusy := true, nNext := Nat.min n 8 }).worksHalf_clearRoles h
  rw [State.half_setHalf_self] at hx
  rw [State.setReplicaWays, hx]
  exact ⟨rfl, rfl, rfl, hst⟩

theorem exec_cacheReplicaChangeDone {h : HalfIdx} (hbusy : (s.half h).cfgBusy = true)
    (hclear : ∀ e ∈ (s.half h).lines, roleChanges (s.half h).nReplica (s.half h).nNext (keyWay e.1) = true → e.2.state = .invalid) :
    exec (.cacheReplicaChangeDone h) s =
      .next (s.setHalf h { s.half h with cfgBusy := false, nReplica := (s.half h).nNext }).replicaSetDone := by
  show execCacheReplicaChangeDone h s = _
  have hk : ((s.half h).keys fun k _ => roleChanges (s.half h).nReplica (s.half h).nNext (keyWay k)) = [] := Half.keys_eq_nil hclear
  simp only [execCacheReplicaChangeDone, hbusy, State.clearRoles_of_clear hclear, hk, Bool.not_true, Bool.false_eq_true,
    if_false, List.isEmpty_nil, if_true]

/-- The settings of a sweep (R196). -/
def Half.sweepSet (x : Half) (v : DWord) : Half :=
  { x with sweepMode := v.getLsbD 30, sweepPart := bitsOf v.toNat 16 8, sweepCtx := bitsOf v.toNat 32 16, sweepWays := BitVec.ofNat 16 v.toNat,
           sweepBusy := v.getLsbD 31 }

theorem State.cacheSweepStart_of_idle {h : HalfIdx} (hidle : (s.half h).sweepBusy = false) (v : DWord) :
    s.cacheSweepStart h v = if v.getLsbD 31 then (s.setHalf h ((s.half h).sweepSet v)).runSweep h else s.setHalf h ((s.half h).sweepSet v) := by
  unfold State.cacheSweepStart
  dsimp only
  rw [if_neg (by rw [hidle]; exact Bool.false_ne_true)]
  rfl

/-- A sweep that begins works on the lines of its half under its own settings. -/
theorem State.cacheSweepStart_worked {h : HalfIdx} (hidle : (s.half h).sweepBusy = false) (v : DWord) :
    (s.cacheSweepStart h v).store = s.store ∧ ((s.half h).sweepSet v).worked ((s.cacheSweepStart h v).half h) := by
  have hset := (s.setHalf h ((s.half h).sweepSet v)).worksHalf_runSweep h
  rw [State.worksHalf, State.half_setHalf_self] at hset
  rw [State.cacheSweepStart_of_idle hidle]
  split
  · exact hset
  · rw [State.half_setHalf_self]
    exact ⟨rfl, _, _, _, rfl⟩

theorem exec_sweepComplete {h : HalfIdx} (hbusy : (s.half h).sweepBusy = true)
    (hx : ∀ e ∈ (s.half h).lines, (s.half h).swept e.1 e.2 → e.2.state = .invalid) :
    exec (.sweepComplete h) s = .next (s.setHalf h { s.half h with sweepBusy := false }) := by
  show execSweepComplete h s = _
  simp only [execSweepComplete, hbusy, State.runSweep_of_swept hx, Half.sweepLeft_of_swept hx, Bool.not_true, Bool.false_eq_true,
    if_false, List.isEmpty_nil, if_true]

end HalfRegisters

/-- Settles O34: a register's row is found by its block and offset, and a sweep or a role change with no named line left does nothing. -/
theorem registersAndCacheControls : Obligations.RegistersAndCacheControls := by
  unfold Obligations.RegistersAndCacheControls
  constructor
  · rintro s off v c h m a k hal hoff rfl
    refine ⟨?_, fun hb => ?_, ?_, ?_, ?_⟩
    · simp only [List.forall_mem_cons]
      refine ⟨fun hb => ?_, fun hb => ?_, fun hb => ?_, fun hb => ?_, fun hb => ?_, List.forall_mem_nil _⟩
      · exact exec_registerWrite_block v hal hoff hb fun e => by rw [State.icsWordWrite, e]; rfl
      · exact exec_registerWrite_block v hal hoff hb fun e => by rw [State.icsWordWrite, e]; rfl
      · exact exec_registerWrite_block v hal hoff hb fun e => by rw [State.icsWordWrite, e]; rfl
      · exact exec_registerWrite_block v hal hoff hb fun e => by rw [State.icsWordWrite, e]; rfl
      · exact exec_registerWrite_block v hal hoff hb fun e => by rw [State.icsWordWrite, e]; rfl
    · have hw : exec (.registerWrite .ics off (leBytes 4 v.toNat)) s =
          .next (s.setCore c (if (s.core c).mode = .idle then (s.core c).configure 0x10 v else s.core c)) :=
        exec_registerWrite_block v hal hoff hb fun e => by rw [State.icsWordWrite, e]; rfl
      refine ⟨_, hw, s.onlyCore_setCore _ _, ?_⟩
      rw [State.core_setCore_self, Core.configure_ctx]
    · exact ⟨s.meshCtrlWrite c v, rfl, s.onlyCore_setCore _ _, s.meshCtrlWrite_core c v⟩
    · have hw := s.arb_unless s.lcBusy (arbKey a) { s.arb (arbKey a) with waitLimit := some (v.toNat % 2 ^ 16) }
      refine ⟨s.arbWaitLimitWrite a v, rfl, ?_⟩
      rw [State.arbWaitLimitWrite, bitsOf_zero]
      exact hw
    · have hw := s.arb_unless s.lcBusy (arbKey a) { s.arb (arbKey a) with holdLimit := v.toNat % 2 ^ 16 }
      refine ⟨s.arbHoldLimitWrite a v, rfl, ?_⟩
      rw [State.arbHoldLimitWrite, bitsOf_zero]
      exact hw
  · rintro s h p v w x rfl
    refine ⟨?_, ⟨s.cacheCfgWrite h v, rfl, ?_⟩, fun hbusy hclear => ?_, fun hidle => ?_, fun hbusy hswept => ?_⟩
    · have hx : (s.cacheWaymaskWrite h p v).half h = { s.half h with waymask := SMap.set 0 (s.half h).waymask p (v.setWidth 16) } :=
        s.half_setHalf_self h _
      refine ⟨s.cacheWaymaskWrite h p v, rfl, s.onlyHalf_setHalf _ _, by rw [hx], fun q => ?_⟩
      rw [hx, SMap.get_set]
      simp only [eq_comm]
    · rw [State.cacheCfgWrite, bitsOf_zero]
      exact s.setReplicaWays_half h _
    · refine ⟨_, exec_cacheReplicaChangeDone hbusy hclear, ?_⟩
      rw [State.half_replicaSetDone, State.half_setHalf_self]
    · obtain ⟨hst, lines, counters, hwm, hx⟩ := State.cacheSweepStart_worked hidle w
      refine ⟨s.cacheSweepStart h w, rfl, hst, by rw [hx]; rfl, by rw [hx]; rfl, by rw [hx]; rfl, by rw [hx]; rfl, ?_, fun hoff => ?_⟩
      · rw [hx]
        rfl
      · have hs := State.cacheSweepStart_of_idle hidle w
        rw [if_neg (by rw [hoff]; exact Bool.false_ne_true)] at hs
        rw [hs, State.half_setHalf_self]
        exact ⟨s.onlyHalf_setHalf _ _, rfl⟩
    · exact ⟨_, exec_sweepComplete hbusy fun e he hs => hswept e he hs, s.onlyHalf_setHalf _ _, s.half_setHalf_self _ _⟩

end Sys2Proof.Machine

/-! Loads of the matrix engine, and what its streams and drains pass on to tile memory (R73, R79, R83 to R85, R95). -/

namespace Sys2Proof.Machine

section MatrixRows

/-! Rows of 64 words, and accesses that tile memory holds. -/

/-- Values written at the keys from `base` on. -/
theorem SMap.get_setRange {α : Type} [DecidableEq α] (d : α) (f : Nat → α) (base n : Nat) (w : SMap α) (j : Nat) :
    SMap.get d ((List.range n).foldl (fun w m => SMap.set d w (base + m) (f m)) w) j =
      if base ≤ j ∧ j < base + n then f (j - base) else SMap.get d w j := by
  induction n with
  | zero => rw [if_neg (by omega)]; rfl
  | succ n ih =>
    rw [List.range_succ, List.foldl_append, List.foldl_cons, List.foldl_nil, SMap.get_set, ih]
    by_cases hj : base + n = j
    · rw [if_pos hj, if_pos (by omega), ← hj, Nat.add_sub_cancel_left]
    · rw [if_neg hj]
      exact if_congr (by omega) rfl rfl

/-- A row of a plane, or a column of the accumulators: 64 words. -/
def setRow (f : Nat → Word) (r : Nat) (w : SMap Word) : SMap Word :=
  (List.range 64).foldl (fun w m => SMap.set 0 w (64 * r + m) (f m)) w

theorem get_setRow (f : Nat → Word) (r : Nat) (w : SMap Word) (x : Nat) {m : Nat} (hm : m < 64) :
    SMap.get 0 (setRow f r w) (64 * x + m) = if r = x then f m else SMap.get 0 w (64 * x + m) := by
  rw [setRow, SMap.get_setRange]
  obtain rfl | hx := eq_or_ne r x
  · rw [if_pos rfl, if_pos (by omega), Nat.add_sub_cancel_left]
  · rw [if_neg hx, if_neg (by omega)]

/-- The same row, from the list of its words. -/
theorem setRow_eq_zipIdx (f : Nat → Word) (r : Nat) (w : SMap Word) :
    (((List.range 64).map f).zipIdx.foldl (fun (x : SMap Word) (v : Word × Nat) => SMap.set 0 x (64 * r + v.2) v.1) w) = setRow f r w := by
  have hz : ((List.range 64).map f).zipIdx = (List.range 64).map fun m => (f m, m) :=
    List.ext_getElem (by simp) fun n h1 h2 => by simp
  rw [hz, List.foldl_map, setRow]

/-- An access of aligned rows that ends inside tile memory (R80). -/
theorem reach_ok {t base stride addr len : Nat} (hb : base % 4 = 0) (hs : stride % 4 = 0) (h : addr + len ≤ t) :
    reach t base stride addr len = .ok := by
  rw [reach, hb, hs, if_neg (by decide), if_neg (Nat.not_lt.2 h)]

/-- Rows up to the last one end inside tile memory when the last one does. -/
theorem reach_row_ok {t base stride len n : Nat} (hb : base % 4 = 0) (hs : stride % 4 = 0) (h : base + (n - 1) * stride + len ≤ t)
    {r : Nat} (hr : r < n) : reach t base stride (base + r * stride) len = .ok := by
  have hle : r * stride ≤ (n - 1) * stride := Nat.mul_le_mul_right _ (by omega)
  exact reach_ok hb hs (by omega)

end MatrixRows

section MatrixQueue

variable {k : Core} {e : MtxEntry}

/-! Entries of the matrix queue. -/

theorem Core.mem_of_mtxNext {before q earlier : List MtxEntry} (h : k.mtxNext before q = some (earlier, e)) : e ∈ q := by
  induction q generalizing before with
  | nil => cases h
  | cons y rest ih =>
    rw [Core.mtxNext] at h
    split at h
    · exact List.mem_cons_of_mem _ (ih h)
    · split at h
      · split at h
        · cases h
        · exact List.mem_cons_of_mem _ (ih h)
      · cases h
        exact List.mem_cons_self
      · cases h
        exact List.mem_cons_self
      · cases h

/-- A started entry stands unchanged while drains take their columns. -/
theorem mem_snapDrains_of_started (acc : SMap Word) {q : List MtxEntry} (he : e ∈ q) (hs : e.started = true) : e ∈ snapDrains acc q := by
  induction q with
  | nil => cases he
  | cons y rest ih =>
    rw [snapDrains]
    rcases List.mem_cons.1 he with rfl | hr
    · rw [if_pos hs]
      exact List.mem_cons_self
    · split
      · exact List.mem_cons_of_mem _ (ih hr)
      · split
        · exact List.mem_cons_of_mem _ (ih hr)
        · exact List.mem_cons_of_mem _ (ih hr)
        · exact List.mem_cons_of_mem _ hr

theorem Core.mem_setEntry {x : MtxEntry} (hx : e ∈ k.mtxQ) (hu : e.uid = x.uid) : x ∈ (k.setEntry x).mtxQ :=
  List.mem_map.2 ⟨e, hx, if_pos hu⟩

/-! The two planes. -/

@[simp] theorem Core.plane_setPlane_self (k : Core) (p : Bool) (x : Plane) : (k.setPlane p x).plane p = x := by
  cases p <;> rfl

@[simp] theorem Core.plane_setPlane_not (k : Core) (p : Bool) (x : Plane) : (k.setPlane p x).plane (!p) = k.plane (!p) := by
  cases p <;> rfl

@[simp] theorem Core.setPlane_setPlane (k : Core) (p : Bool) (x y : Plane) : (k.setPlane p x).setPlane p y = k.setPlane p y := by
  cases p <;> rfl

@[simp] theorem Core.T_setPlane (k : Core) (p : Bool) (x : Plane) : (k.setPlane p x).T = k.T := by
  cases p <;> rfl

@[simp] theorem Core.tile_setPlane (k : Core) (p : Bool) (x : Plane) : (k.setPlane p x).tile = k.tile := by
  cases p <;> rfl

@[simp] theorem Core.acc_setPlane (k : Core) (p : Bool) (x : Plane) : (k.setPlane p x).acc = k.acc := by
  cases p <;> rfl

@[simp] theorem Core.mtxQ_setPlane (k : Core) (p : Bool) (x : Plane) : (k.setPlane p x).mtxQ = k.mtxQ := by
  cases p <;> rfl

end MatrixQueue

end Sys2Proof.Machine

namespace Sys2Proof.Machine

section MatrixLoads

variable {s : State} {c : CoreIdx} {e : MtxEntry}

/-! MATRIX_LOAD_START. -/

/-- Word `m` of row `r` that a load reads from tile memory (R79). -/
def Core.rowWord (k : Core) (kind src stride r m : Nat) : Word :=
  BitVec.ofNat 32 (leNat (SMap.getBytes k.tile (src + r * stride + kindBits kind / 8 * m) (kindBits kind / 8)))

/-- One row of a load that tile memory holds. -/
theorem Core.loadRows_succ {k : Core} {p : Bool} {src stride r : Nat} (n : Nat)
    (h : reach k.T src stride (src + r * stride) (kindRowBytes (k.plane p).kind) = .ok) :
    k.loadRows p src stride r (n + 1) =
      ((k.setPlane p { k.plane p with words := setRow (k.rowWord (k.plane p).kind src stride r) r (k.plane p).words }).count 0x320 1).loadRows
        p src stride (r + 1) n := by
  simp only [Core.loadRows, h]
  rfl

/-- Rows that tile memory holds go into the words of their plane, and nothing but counters changes besides. -/
theorem Core.loadRows_ok {p : Bool} {src stride : Nat} (n : Nat) {k : Core} {r : Nat}
    (h : ∀ x, r ≤ x → x < r + n → reach k.T src stride (src + x * stride) (kindRowBytes (k.plane p).kind) = .ok) :
    ∃ words counters,
      k.loadRows p src stride r n = ({ k.setPlane p { k.plane p with words } with counters }, .ok) ∧
      ∀ x m, m < 64 → SMap.get 0 words (64 * x + m) =
        if r ≤ x ∧ x < r + n then k.rowWord (k.plane p).kind src stride x m else SMap.get 0 (k.plane p).words (64 * x + m) := by
  induction n generalizing k r with
  | zero =>
    refine ⟨(k.plane p).words, k.counters, ?_, fun x m _ => ?_⟩
    · cases p <;> rfl
    · rw [if_neg (by omega)]
  | succ n ih =>
    rw [Core.loadRows_succ n (h r le_rfl (by omega))]
    generalize hw : setRow (k.rowWord (k.plane p).kind src stride r) r (k.plane p).words = w
    generalize hk1 : (k.setPlane p { k.plane p with words := w }).count 0x320 1 = k1
    have hT : k1.T = k.T := by rw [← hk1]; exact Core.T_setPlane _ _ _
    have htile : k1.tile = k.tile := by rw [← hk1]; exact Core.tile_setPlane _ _ _
    have hp : k1.plane p = { k.plane p with words := w } := by rw [← hk1]; exact Core.plane_setPlane_self _ _ _
    obtain ⟨words, counters, heq, hwords⟩ := @ih k1 (r + 1) fun x h1 h2 => by
      rw [hT, hp]
      exact h x (by omega) (by omega)
    refine ⟨words, counters, ?_, fun x m hm => ?_⟩
    · rw [heq, hp, ← hk1]
      cases p <;> rfl
    · rw [hwords x m hm, hp, ← hw, get_setRow _ _ _ _ hm]
      have hrow : k1.rowWord (k.plane p).kind src stride x m = k.rowWord (k.plane p).kind src stride x m := by
        rw [Core.rowWord, Core.rowWord, htile]
      dsimp only
      rw [hrow]
      obtain rfl | hx := eq_or_ne r x
      · rw [if_neg (by omega), if_pos rfl, if_pos (by omega)]
      · rw [if_neg hx]
        exact if_congr (by omega) rfl rfl

/-- A load that is under way. -/
def MtxEntry.loading (x : MtxEntry) : Bool := x.started && (match x.op with | .load _ _ _ => true | _ => false)

theorem MtxEntry.loading_eq_false {x : MtxEntry} (h : x.started = true → ∀ a b d, x.op ≠ .load a b d) : x.loading = false := by
  rw [MtxEntry.loading, Bool.and_eq_false_iff]
  cases hs : x.started with
  | false => exact .inl rfl
  | true =>
    right
    split
    · next a b d hop => exact absurd hop (h hs a b d)
    · rfl

/-- The core at the start of a load: its entry has started and its plane has the load's kind (R84, R89). -/
def Core.startLoad (k : Core) (e : MtxEntry) (p : Bool) (kind : Nat) : Core :=
  (k.setEntry { e with started := true }).setPlane p { k.plane p with kind }

theorem exec_matrixLoadStart {earlier : List MtxEntry} {ua : DWord} {p : Bool} {kind : Nat} {k1 : Core} (hlive : (s.core c).live = true)
    (hnext : (s.core c).mtxNext [] (s.core c).mtxQ = some (earlier, e)) (hop : e.op = .load ua p kind)
    (hidle : ∀ x ∈ (s.core c).mtxQ, x.loading = false)
    (hrows : ((s.core c).startLoad e p kind).loadRows p (bitsOf ua.toNat 0 21) (bitsOf ua.toNat 32 16) 0 64 = (k1, .ok)) :
    exec (.matrixLoadStart c) s = .next (s.setCore c k1.snap) := by
  show execMatrixLoadStart c s = _
  simp only [Core.startLoad, hop] at hrows
  simp only [execMatrixLoadStart, hlive, if_true, hnext, hop, hrows]
  rw [if_neg]
  · rfl
  · intro hany
    obtain ⟨x, hx, hl⟩ := List.any_eq_true.1 hany
    exact Bool.false_ne_true ((hidle x hx).symm.trans hl)

/-- MATRIX_LOAD_COMPLETE of the first load under way (R85). -/
theorem exec_matrixLoadComplete {ua : DWord} {p : Bool} {kind : Nat} (hfind : (s.core c).mtxQ.find? MtxEntry.loading = some e)
    (hop : e.op = .load ua p kind) :
    exec (.matrixLoadComplete c) s =
      .next (s.setCore c (((s.core c).dropEntry e).setPlane p { (s.core c).plane p with loaded := true })) := by
  show execMatrixLoadComplete c s = _
  unfold execMatrixLoadComplete
  dsimp only
  generalize hf : List.find? _ _ = found
  obtain rfl : found = some e := hf.symm.trans hfind
  simp only [hop]

end MatrixLoads

section MatrixDrains

variable {s : State} {c : CoreIdx} {e : MtxEntry}

/-! MATRIX_STREAM_COMPLETE and MATRIX_DRAIN_COMPLETE. -/

/-- Draining columns writes tile memory and counts: the queue and the accumulators stay (R95). -/
theorem Core.drainCols_frame (uc : DWord) (mod : BitVec 15) (cols : List (Nat × List Word)) (k : Core) :
    ∃ tile counters, (k.drainCols uc mod cols).1 = { k with tile, counters } := by
  induction cols generalizing k with
  | nil => exact ⟨k.tile, k.counters, rfl⟩
  | cons col rest ih =>
    rw [Core.drainCols]
    dsimp only
    split
    · obtain ⟨tile, counters, h⟩ := ih _
      exact ⟨tile, counters, h⟩
    · exact ⟨k.tile, k.counters, rfl⟩

/-- A stream or a drain that is under way. -/
def MtxEntry.draining (x : MtxEntry) : Bool :=
  x.started && (match x.op with | .stream _ _ _ _ => true | .drain _ _ _ _ => true | _ => false)

/-- Completion of the first stream or drain under way, when that is a stream: its columns are drained, and two freeze counters grow. -/
theorem exec_matrixStreamComplete {ua ub uc : DWord} {mod : BitVec 15} {k1 : Core}
    (hfind : (s.core c).mtxQ.find? MtxEntry.draining = some e) (hop : e.op = .stream ua ub uc mod)
    (hdrain : (s.core c).drainCols uc mod e.cols = (k1, .ok)) :
    ∃ feed drain, exec (.matrixStreamComplete c) s =
      .next (({ s with free := s.free + 2 } : State).setCore c (((k1.dropEntry e).count 0x308 feed).count 0x310 drain)) := by
  refine ⟨(s.draw 32).1.toNat, ((s.draw 32).2.draw 32).1.toNat, ?_⟩
  show execMatrixStreamComplete c s = _
  unfold execMatrixStreamComplete
  dsimp only
  generalize hf : List.find? _ _ = found
  obtain rfl : found = some e := hf.symm.trans hfind
  simp only [hop, hdrain]
  rfl

/-- Completion of the first stream or drain under way, when that is a drain. -/
theorem exec_matrixDrainComplete {ua ub uc : DWord} {mod : BitVec 15} {k1 : Core}
    (hfind : (s.core c).mtxQ.find? MtxEntry.draining = some e) (hop : e.op = .drain ua ub uc mod)
    (hdrain : (s.core c).drainCols uc mod e.cols = (k1, .ok)) :
    exec (.matrixDrainComplete c) s = .next (s.setCore c (k1.dropEntry e)) := by
  show execMatrixDrainComplete c s = _
  unfold execMatrixDrainComplete
  dsimp only
  generalize hf : List.find? _ _ = found
  obtain rfl : found = some e := hf.symm.trans hfind
  simp only [hop, hdrain]

end MatrixDrains

/-- Settles O25: the rows of a load all lie inside tile memory because the last one does, and draining touches neither queue nor accumulators. -/
theorem matrixLoadsAndCompletions : Obligations.MatrixLoadsAndCompletions := by
  unfold Obligations.MatrixLoadsAndCompletions
  constructor
  · rintro c s k e ua p kind rfl
    refine ⟨fun earlier src stride hlive hnext hop hidle hsrc hstride hs4 hd4 hT => ?_, fun hfind hop => ?_⟩
    · subst hsrc hstride
      obtain ⟨words, counters, hrows, hwords⟩ := Core.loadRows_ok (k := (s.core c).startLoad e p kind) (p := p)
        (src := bitsOf ua.toNat 0 21) (stride := bitsOf ua.toNat 32 16) (r := 0) 64 fun x _ hx => by
          rw [Core.startLoad, Core.T_setPlane, Core.plane_setPlane_self]
          exact reach_row_ok hs4 hd4 hT (by omega)
      have hexec := exec_matrixLoadStart hlive hnext hop (fun x hx => MtxEntry.loading_eq_false (hidle x hx)) hrows
      have hstart : ((s.core c).startLoad e p kind).plane p = { (s.core c).plane p with kind } := Core.plane_setPlane_self _ _ _
      simp only [hstart] at hexec hwords
      rw [Core.startLoad, Core.setPlane_setPlane] at hexec
      refine ⟨_, hexec, s.onlyCore_setCore _ _, ?_⟩
      rw [State.core_setCore_self]
      refine ⟨Core.tile_setPlane _ _ _, Core.acc_setPlane _ _ _, Core.plane_setPlane_not _ _ _,
        congrArg Plane.kind (Core.plane_setPlane_self _ _ _), ⟨{ e with started := true }, ?_, rfl, rfl⟩, fun r m hr hm => ?_⟩
      · refine mem_snapDrains_of_started _ ?_ rfl
        dsimp only
        rw [Core.mtxQ_setPlane]
        exact Core.mem_setEntry (Core.mem_of_mtxNext hnext) rfl
      · have hplane := Core.plane_setPlane_self ((s.core c).setEntry { e with started := true }) p
          { (s.core c).plane p with kind, words }
        refine (congrArg (fun x : Plane => SMap.get 0 x.words (64 * r + m)) hplane).trans ?_
        dsimp only
        rw [hwords r m hm, if_pos (by omega), Core.rowWord, Core.startLoad, Core.tile_setPlane]
        rfl
    · exact ⟨_, exec_matrixLoadComplete hfind hop, s.onlyCore_setCore _ _, State.core_setCore_self _ _ _⟩
  · rintro c s k k1 e ua ub uc mod rfl hfind hdrain
    obtain ⟨tile, counters, hframe⟩ := (s.core c).drainCols_frame uc mod e.cols
    obtain rfl : k1 = _ := (congrArg Prod.fst hdrain).symm.trans hframe
    refine ⟨fun hop => ?_, fun hop => ?_⟩
    · obtain ⟨feed, drain, hexec⟩ := exec_matrixStreamComplete hfind hop hdrain
      refine ⟨_, hexec, s.onlyCore_setCore _ _, ?_⟩
      rw [State.core_setCore_self]
      exact ⟨rfl, rfl, rfl⟩
    · refine ⟨_, exec_matrixDrainComplete hfind hop hdrain, s.onlyCore_setCore _ _, ?_⟩
      rw [State.core_setCore_self]
      exact ⟨rfl, rfl, rfl⟩

end Sys2Proof.Machine

/-! Streams of the matrix engine (R81, R82, R92). -/

namespace Sys2Proof.Machine

section MatrixStreams

variable {s : State} {c : CoreIdx} {e : MtxEntry}

/-- Accumulator columns of vectors that are no more than the ring is long: each vector has its own (R81). -/
theorem ringColumn_ne {base off len i j : Nat} (hlen : len ≤ 2048) (hij : i < j) (hj : j < i + len) :
    (base + (off + i) % len) % 2048 ≠ (base + (off + j) % len) % 2048 := by
  intro h
  have hpos : 0 < len := by omega
  have hi : (off + i) % len < len := Nat.mod_lt _ hpos
  have hj' : (off + j) % len < len := Nat.mod_lt _ hpos
  have hmod : (off + i) % len = (off + j) % len := by omega
  have hdvd : len ∣ j - i := by
    have hsub : (off + j) - (off + i) = j - i := by omega
    exact hsub ▸ (Nat.modEq_iff_dvd' (by omega)).1 hmod
  exact absurd (Nat.le_of_dvd (by omega) hdvd) (by omega)

/-- The dot product of the record at `a` of tile memory with column `m` of a plane (R92). -/
def Core.dotProduct (k : Core) (f : StreamFmt) (p : Bool) (a m : Nat) : FVal :=
  columnSum f (k.plane p).kind (fun r => SMap.get 0 (k.plane p).words (64 * r + m))
    (leNat (SMap.getBytes k.tile a (f.recordBytes (k.plane p).kind)))

/-- An accumulator word that takes a dot product: replaced by it, or increased (R82). -/
def accumulate (first : Bool) (y : FVal) (old : Word) : Word :=
  BitVec.ofNat 32 (FFmt.fp32.pack 0 true (if first then y else FVal.add false (FFmt.fp32.decode old.toNat) y))

/-- Word `m` of column `x` after the vector at `a` has been accumulated there. -/
def Core.accumulated (k : Core) (f : StreamFmt) (p first : Bool) (a x m : Nat) : Word :=
  accumulate first (k.dotProduct f p a m) (SMap.get 0 k.acc (64 * x + m))

/-- One vector of a stream whose record tile memory holds. -/
theorem Core.streamVectors_succ {k : Core} {f : StreamFmt} {p : Bool} {src stride : Nat} {col : Nat → Nat} {first last : Bool} {i : Nat}
    (n : Nat) (h : reach k.T src stride (src + i * stride) (f.recordBytes (k.plane p).kind) = .ok) :
    ∃ cols, k.streamVectors e f p src stride col first last i (n + 1) =
      (({ k with acc := setRow (k.accumulated f p first (src + i * stride) (col i)) (col i) k.acc } : Core).count 0x300 1).streamVectors
        { e with cols } f p src stride col first last (i + 1) n := by
  refine ⟨if last then e.cols ++ [(i, (List.range 64).map (k.accumulated f p first (src + i * stride) (col i)))] else e.cols, ?_⟩
  rw [← setRow_eq_zipIdx]
  simp only [Core.streamVectors, h]
  cases last <;> rfl

/-- Vectors that tile memory holds, each with a column of its own, are accumulated: of the core nothing but accumulators and counters changes,
of the entry nothing but the columns that it passes on (R81, R82). -/
theorem Core.streamVectors_ok {f : StreamFmt} {p : Bool} {src stride : Nat} {col : Nat → Nat} {first last : Bool} (n : Nat) {k : Core}
    {e : MtxEntry} {i : Nat}
    (h : ∀ j, i ≤ j → j < i + n → reach k.T src stride (src + j * stride) (f.recordBytes (k.plane p).kind) = .ok)
    (hcol : ∀ j l, i ≤ j → j < l → l < i + n → col j ≠ col l) :
    ∃ acc counters cols,
      k.streamVectors e f p src stride col first last i n = ({ k with acc, counters }, { e with cols }, .ok) ∧
      (∀ j m, i ≤ j → j < i + n → m < 64 →
        SMap.get 0 acc (64 * col j + m) = k.accumulated f p first (src + j * stride) (col j) m) ∧
      ∀ x m, m < 64 → (∀ j, i ≤ j → j < i + n → col j ≠ x) → SMap.get 0 acc (64 * x + m) = SMap.get 0 k.acc (64 * x + m) := by
  induction n generalizing k e i with
  | zero => exact ⟨k.acc, k.counters, e.cols, rfl, fun j m h1 h2 _ => by omega, fun x m _ _ => rfl⟩
  | succ n ih =>
    obtain ⟨cols1, hstep⟩ := Core.streamVectors_succ (e := e) (col := col) (first := first) (last := last) n (h i le_rfl (by omega))
    rw [hstep]
    generalize hw : setRow (k.accumulated f p first (src + i * stride) (col i)) (col i) k.acc = w
    have hget : ∀ x m, m < 64 → SMap.get 0 w (64 * x + m) =
        if col i = x then k.accumulated f p first (src + i * stride) (col i) m else SMap.get 0 k.acc (64 * x + m) :=
      fun x m hm => by rw [← hw, get_setRow _ _ _ _ hm]
    obtain ⟨acc, counters, cols, heq, hmine, hother⟩ := @ih (({ k with acc := w } : Core).count 0x300 1) { e with cols := cols1 } (i + 1)
      (fun j h1 h2 => h j (by omega) (by omega)) (fun j l h1 h2 h3 => hcol j l (by omega) h2 (by omega))
    refine ⟨acc, counters, cols, heq, fun j m h1 h2 hm => ?_, fun x m hm hx => ?_⟩
    · obtain rfl | hij := eq_or_ne i j
      · rw [hother _ m hm fun l h3 h4 => (hcol i l le_rfl (by omega) (by omega)).symm]
        exact (hget _ m hm).trans (if_pos rfl)
      · rw [hmine j m (by omega) (by omega) hm]
        exact congrArg (accumulate first (k.dotProduct f p (src + j * stride) m))
          ((hget _ m hm).trans (if_neg (hcol i j le_rfl (by omega) h2)))
    · rw [hother x m hm fun j h3 h4 => hx j (by omega) (by omega)]
      exact (hget x m hm).trans (if_neg (hx i le_rfl (by omega)))

/-- A load into plane `p`, under way or not. -/
def MtxEntry.loadsPlane (p : Bool) (x : MtxEntry) : Bool := match x.op with | .load _ q _ => q == p | _ => false

theorem MtxEntry.loadsPlane_eq_false {p : Bool} {x : MtxEntry} (h : ∀ a d, x.op ≠ .load a p d) : x.loadsPlane p = false := by
  unfold MtxEntry.loadsPlane
  split
  · next a q d hop =>
    rw [beq_eq_false_iff_ne]
    rintro rfl
    exact h a d hop
  · rfl

/-- The accumulator column of vector `i` of a stream (R81). -/
def streamColumn (ub : DWord) (i : Nat) : Nat :=
  (bitsOf ub.toNat 0 11 + (bitsOf ub.toNat 32 11 + i) % (bitsOf ub.toNat 16 11 + 1)) % 2048

theorem streamColumn_ne (ub : DWord) {i j : Nat} (hij : i < j) (hj : j < i + (bitsOf ub.toNat 16 11 + 1)) :
    streamColumn ub i ≠ streamColumn ub j :=
  ringColumn_ne (Nat.mod_lt _ (by decide)) hij hj

/-- MATRIX_STREAM_START of a stream that passes the checks of R75 and R80. -/
theorem exec_matrixStreamStart {earlier : List MtxEntry} {ua ub uc : DWord} {mod : BitVec 15} {f : StreamFmt} {k1 : Core} {e1 : MtxEntry}
    (hlive : (s.core c).live = true) (hnext : (s.core c).mtxNext [] (s.core c).mtxQ = some (earlier, e)) (hop : e.op = .stream ua ub uc mod)
    (hloads : ∀ x ∈ earlier, x.loadsPlane (mod.getLsbD 14) = false)
    (hpair : pairOk (bitsOf mod.toNat 7 4) ((s.core c).plane (mod.getLsbD 14)).kind = true)
    (hfmt : streamFmt (bitsOf mod.toNat 7 4) = some f)
    (hstride : f.recordBytes ((s.core c).plane (mod.getLsbD 14)).kind ≤ bitsOf ua.toNat 32 16) (hn : bitsOf ua.toNat 48 16 ≠ 0)
    (hvectors : (s.core c).streamVectors { e with started := true } f (mod.getLsbD 14) (bitsOf ua.toNat 0 21) (bitsOf ua.toNat 32 16)
      (streamColumn ub) (mod.getLsbD 13) (mod.getLsbD 12) 0 (bitsOf ua.toNat 48 16) = (k1, e1, .ok)) :
    exec (.matrixStreamStart c) s = .next (s.setCore c (k1.setEntry e1).snap) := by
  show execMatrixStreamStart c s = _
  have hcol : streamColumn ub = fun i =>
      (bitsOf ub.toNat 0 11 + (bitsOf ub.toNat 32 11 + i) % (bitsOf ub.toNat 16 11 + 1)) % 2048 := rfl
  simp only [hcol, hop] at hvectors
  simp only [execMatrixStreamStart, hlive, if_true, hnext, hop, hpair, hfmt, if_neg (Nat.not_lt.2 hstride), if_neg hn, hvectors]
  rw [if_neg]
  · rfl
  · intro hany
    obtain ⟨x, hx, hl⟩ := List.any_eq_true.1 hany
    exact Bool.false_ne_true ((hloads x hx).symm.trans hl)

end MatrixStreams

/-- Settles O26: no two vectors of a stream share a column, so each column takes one dot product, onto the word that stood there at the start. -/
theorem matrixStreams : Obligations.MatrixStreams := by
  unfold Obligations.MatrixStreams
  rintro c s k earlier e ua ub uc mod p f src stride n len col rfl hlive hnext hop rfl hloads hpair hfmt rfl rfl rfl hn rfl hle rfl hstride
    hs4 hd4 hT
  obtain ⟨acc, counters, cols, hvectors, hmine, hother⟩ := Core.streamVectors_ok (k := s.core c) (e := { e with started := true }) (f := f)
    (p := mod.getLsbD 14) (col := streamColumn ub) (first := mod.getLsbD 13) (last := mod.getLsbD 12) (i := 0) (bitsOf ua.toNat 48 16)
    (fun j _ hj => reach_row_ok hs4 hd4 hT (by omega)) fun j l _ hjl hl => streamColumn_ne ub hjl (by omega)
  have hexec := exec_matrixStreamStart hlive hnext hop (fun x hx => MtxEntry.loadsPlane_eq_false (hloads x hx)) hpair hfmt hstride hn hvectors
  refine ⟨_, hexec, s.onlyCore_setCore _ _, ?_⟩
  rw [State.core_setCore_self]
  refine ⟨rfl, rfl, rfl, fun i m hi hm => ?_, fun x m hm hx => ?_⟩
  · exact hmine i m (Nat.zero_le i) (by omega) hm
  · exact hother x m hm fun j _ hj => hx j (by omega)

end Sys2Proof.Machine

/-! Integer results (R119 to R121, R124): the operations of the model as operations of bit vectors. -/

namespace Sys2Proof.Machine

section IntegerResults

variable {w : Nat} (a b : BitVec w)

theorem mulHiU_eq : mulHiU a b = (a.setWidth (2 * w) * b.setWidth (2 * w)).extractLsb' w w := by
  have ha : a.toNat < 2 ^ (2 * w) := Nat.lt_of_lt_of_le a.isLt (Nat.pow_le_pow_right (by decide) (by omega))
  have hb : b.toNat < 2 ^ (2 * w) := Nat.lt_of_lt_of_le b.isLt (Nat.pow_le_pow_right (by decide) (by omega))
  have hab : a.toNat * b.toNat < 2 ^ (2 * w) := by
    rw [Nat.two_mul, Nat.pow_add]
    exact Nat.mul_lt_mul'' a.isLt b.isLt
  apply BitVec.eq_of_toNat_eq
  rw [mulHiU, BitVec.extractLsb'_toNat, BitVec.toNat_mul, BitVec.toNat_setWidth, BitVec.toNat_setWidth, Nat.mod_eq_of_lt ha, Nat.mod_eq_of_lt hb,
    Nat.mod_eq_of_lt hab, Nat.shiftRight_eq_div_pow, BitVec.toNat_ofNat]

/-- The high half of an integer in twice the width is the integer divided. -/
theorem extractHigh_ofInt (z : Int) : (BitVec.ofInt (2 * w) z).extractLsb' w w = BitVec.ofInt w (z / (2 ^ w : Nat)) := by
  have hpow : ((2 ^ (2 * w) : Nat) : Int) = (2 ^ w : Nat) * (2 ^ w : Nat) := by
    rw [Nat.two_mul, Nat.pow_add, Nat.cast_mul]
  have hpos : (0 : Int) < (2 ^ w : Nat) := by exact_mod_cast Nat.two_pow_pos w
  have hr : 0 ≤ z % (2 ^ (2 * w) : Nat) := Int.emod_nonneg _ (by rw [hpow]; exact (Int.mul_pos hpos hpos).ne')
  apply BitVec.eq_of_toNat_eq
  rw [BitVec.extractLsb'_toNat, BitVec.toNat_ofInt, BitVec.toNat_ofInt, Nat.shiftRight_eq_div_pow]
  apply Int.natCast_inj.1
  rw [Int.natCast_emod, Int.natCast_ediv, Int.toNat_of_nonneg hr, Int.toNat_of_nonneg (Int.emod_nonneg _ hpos.ne'), hpow]
  conv_rhs => rw [← Int.emod_add_mul_ediv z ((2 ^ w : Nat) * (2 ^ w : Nat)), mul_assoc, Int.add_mul_ediv_left _ _ hpos.ne',
    Int.add_mul_emod_self_left]

theorem mulHiS_eq : mulHiS a b = (a.signExtend (2 * w) * b.signExtend (2 * w)).extractLsb' w w := by
  rw [mulHiS, BitVec.signExtend, BitVec.signExtend, ← BitVec.ofInt_mul, extractHigh_ofInt]

theorem shiftArith_eq :
    shiftArith a b = if w ≤ b.toNat then (if a.msb then BitVec.allOnes w else 0) else a.sshiftRight b.toNat := by
  unfold shiftArith
  split
  · refine BitVec.eq_of_getLsbD_eq fun i hi => ?_
    rw [BitVec.getLsbD_sshiftRight, if_neg (by omega), decide_eq_false (Nat.not_le.2 hi)]
    cases a.msb <;> simp [hi]
  · rfl

theorem minS_eq : minS a b = if a.slt b then a else b := by
  rw [minS, BitVec.slt_eq_decide]
  by_cases h : a.toInt = b.toInt
  · rw [BitVec.toInt_inj.1 h, ite_self, ite_self]
  · grind

theorem maxS_eq : maxS a b = if a.slt b then b else a := by
  rw [maxS, BitVec.slt_eq_decide]
  simp only [decide_eq_true_eq]

theorem minU_eq : minU a b = if a.ult b then a else b := by
  rw [minU, BitVec.ult_eq_decide]
  by_cases h : a.toNat = b.toNat
  · rw [BitVec.eq_of_toNat_eq h, ite_self, ite_self]
  · grind

theorem maxU_eq : maxU a b = if a.ult b then b else a := by
  rw [maxU, BitVec.ult_eq_decide]
  simp only [decide_eq_true_eq]

theorem popCount_eq (a : Word) : popCount a = (List.range 32).countP fun k => a.getLsbD k := List.countP_eq_length_filter.symm

/-- The comparison codes of R121, each with its condition. -/
def comparisons : List (Nat × ((w : Nat) → BitVec w → BitVec w → Bool)) :=
  [(0, fun _ a b => a == b), (1, fun _ a b => a != b), (2, fun _ a b => BitVec.slt a b), (3, fun _ a b => BitVec.sle a b),
   (4, fun _ a b => BitVec.slt b a), (5, fun _ a b => BitVec.sle b a), (6, fun _ a b => BitVec.ult a b),
   (7, fun _ a b => BitVec.ule a b), (8, fun _ a b => BitVec.ult b a), (9, fun _ a b => BitVec.ule b a)]

theorem compareCode_eq : ∀ e ∈ comparisons, compareCode e.1 a b = e.2 w a b := by
  simp only [comparisons, List.forall_mem_cons, compareCode, BitVec.slt_eq_decide, BitVec.sle_eq_decide, BitVec.ult_eq_decide,
    BitVec.ule_eq_decide, true_and]
  exact List.forall_mem_nil _

end IntegerResults

/-! What the instructions of classes 0x1 to 0x5 write, by their shape. -/

section Registers

variable {s : State} {i : Inst}

theorem State.scalarOp_retires {f f' : DWord → DWord → DWord} (h : s.executes i (scalarForm i.u (.uDst i.u.d.toNat) (i.u.mod == 0)))
    (hf : ∀ a b, f a b = f' a b) : s.retiresU (s.scalarOp i f) i (f' (s.uVal i i.u.a.toNat) (s.scalarB i)) :=
  State.onceIssue_putU h (by rw [hf])

theorem State.vecOp_retires {f f' : Word → Word → Word}
    (h : s.executes i (vecForm i.u .any .any .unused (dstT i.u) (i.u.opmod == 0) false)) (hf : ∀ a b, f a b = f' a b) :
    s.retiresT (s.vecOp i f) i ((s.grp i).passing i.u) fun l => f' (s.srcA i l) (s.srcB i l) :=
  State.issue_putT h (by simp only [hf])

theorem State.vecUnary_retires {f f' : Word → Word}
    (h : s.executes i (vecForm i.u .any .unused .unused (dstT i.u) (i.u.opmod == 0) false)) (hf : ∀ a, f a = f' a) :
    s.retiresT (s.vecUnary i f) i ((s.grp i).passing i.u) fun l => f' (s.srcA i l) :=
  State.issue_putT h (by simp only [hf])

theorem State.floatOp_retires {kb kc : SrcKind} {rounds : Bool} (f : Bool → FVal → FVal → FVal → FVal)
    (h : s.executes i (vecForm i.u .any kb kc (dstT i.u) (i.u.onlyBits (if rounds then 0x7830 else 0x7800)) false)) :
    s.retiresT (s.floatOp i kb kc rounds f) i ((s.grp i).passing i.u) fun l =>
      f32 (s.ftz i) (i.u.bits 4 2) (f (i.u.bits 4 2 == 2) (ld32 (s.ftz i) (s.srcA i l)) (ld32 (s.ftz i) (s.srcB i l))
        (ld32 (s.ftz i) (s.srcC i l))) :=
  State.issue_putT h rfl

theorem State.packedOp_retires {kc : SrcKind} (f : (Nat → FVal) → FVal)
    (h : s.executes i (vecForm i.u .any .any kc (dstT i.u) (i.u.onlyBits 0x7840) false)) :
    s.retiresT (s.packedOp i kc f) i ((s.grp i).passing i.u) fun l =>
      packed2 (if i.u.bit 6 then .fp16 else .bf16) (s.ftz i) f [s.srcA i l, s.srcB i l, s.srcC i l] :=
  State.issue_putT h rfl

/-- An instruction that draws free values for its lanes and writes t[d]. -/
theorem State.issue_putT_free {f : Form} {act : State → Effect} {m : Mask} {v : Nat → Word} {n : Nat}
    (h : s.executes i f) (ha : act s = .next { s.putT i m i.u.d.toNat v with free := n }) :
    s.retiresT { s.issue i f act with free := s.free } i m v := by
  have hput : s.retiresT (s.issue i f fun s => .next (s.putT i m i.u.d.toNat v)) i m v := State.issue_putT h rfl
  rw [State.issue_of_next (t := s.putT i m i.u.d.toNat v) h rfl] at hput
  rw [State.issue_of_next h ha, State.retire_free]
  have hfree := State.onlyCore_free hput.1.1
  generalize ((s.putT i m i.u.d.toNat v).countIssue i).advance i = x at hput hfree
  rw [← hfree]
  exact hput

theorem State.nearOp_retires (f : Bool → Nat → Nat → Nat)
    (h : s.executes i (vecForm i.u .any .unused .unused (dstT i.u) (i.u.opmod == 0) false)) :
    s.retiresT { s.nearOp i f with free := s.free } i ((s.grp i).passing i.u) fun l =>
      BitVec.ofNat 32 (f (s.ftz i) (s.srcA i l).toNat (Config.freeNat (s.free + l))) :=
  State.issue_putT_free (n := s.free + 64) h rfl

/-- An instruction that executes once per group and writes p[d] of every active lane, unless no lane passes (R116, R119). -/
theorem State.onceIssue_putP {f : Form} {act : State → Effect} {v : Nat → Bool} (h : s.executes i f)
    (ha : act s = .next (s.putP i (s.grp i).active i.u.d.toNat v)) :
    s.retiresP (s.onceIssue i f act) i (if (s.grp i).passing i.u = 0 then 0 else (s.grp i).active) v := by
  by_cases hp : (s.grp i).passing i.u = 0
  · rw [if_pos hp]
    obtain ⟨ho, hpl⟩ := State.issue_idle (act := fun s => if (s.grp i).passing i.u = 0 then .next s else act s) h (if_pos hp)
    exact ⟨ho, Group.writesP_none _ _ hpl⟩
  · rw [if_neg hp, State.onceIssue_eq_issue h hp]
    exact State.issue_putP h ha

/-- The first check of R107 that a form with illegal modifiers fails is that of its place or that of its fields. -/
theorem State.defect_of_illegal {f : Form} (h : f.ok = false) : ∃ d, s.defect i f = some d := by
  unfold State.defect firstDefect
  dsimp only
  split
  · exact ⟨_, rfl⟩
  · exact ⟨2, if_pos (by rw [h]; rfl)⟩

/-- An instruction that may issue and fails a check of R107 raises ILLEGAL_INSTRUCTION (R106, R107). -/
theorem State.issue_illegal {f : Form} {d : Nat} (act : State → Effect) (hr : s.ready i = true) (hf : (s.grp i).fenced f.access = false)
    (hs : s.scoreFree i f.slots = true) (he : s.engineHeld i f.engine = false) (hd : s.defect i f = some d) :
    s.issue i f act = (s.countIssue i).takeFault (s.instFault i fkIllegal d 0 0) := by
  simp only [State.issue, hr, hf, hs, he, hd, Bool.not_false, Bool.and_self, Bool.not_true, Bool.false_eq_true, if_false]

end Registers

/-- Settles O8: each code's condition is a function of bit vectors, and a code above 9 makes the form illegal. -/
theorem comparisonCodes : Obligations.ComparisonCodes := by
  unfold Obligations.ComparisonCodes
  intro g u s
  refine ⟨fun e he => ⟨fun hc h => ⟨_, rfl, ?scmp⟩, fun hc h => ⟨_, rfl, ?icmp⟩⟩, fun hr hf => ?reserved⟩
  case scmp => exact State.onceIssue_putP h (by simp only [hc, compareCode_eq _ _ e he]; rfl)
  case icmp => exact State.issue_putP h (by simp only [hc, compareCode_eq _ _ e he]; rfl)
  case reserved =>
    simp only [List.forall_mem_cons]
    refine ⟨fun hs he hc => ?_, fun hs he hc => ?_, List.forall_mem_nil _⟩
    · have hlegal : decide (u.bits 0 4 ≤ 9) = false := decide_eq_false (by omega)
      obtain ⟨d, hd⟩ := State.defect_of_illegal (s := s) (i := inst g u)
        (f := scalarForm u (.p u.d.toNat) (u.onlyBits 0xF && decide (u.bits 0 4 ≤ 9))) (by rw [hlegal, Bool.and_false]; rfl)
      exact ⟨_, d, rfl, State.issue_illegal _ hr hf hs he hd⟩
    · have hlegal : decide (u.opmod ≤ 9) = false := decide_eq_false (by omega)
      obtain ⟨d, hd⟩ := State.defect_of_illegal (s := s) (i := inst g u)
        (f := vecForm u .any .any .unused (dstP u) (decide (u.opmod ≤ 9)) false) (by rw [hlegal]; rfl)
      exact ⟨_, d, rfl, State.issue_illegal _ hr hf hs he hd⟩

/-- Settles O12: every instruction is its operation on one u register. -/
theorem scalarInstructions : Obligations.ScalarInstructions := by
  unfold Obligations.ScalarInstructions
  refine ⟨fun g u s h => ?_, fun g u s => ⟨fun h => ⟨_, rfl, ?_⟩, fun h => ⟨_, rfl, ?_⟩, fun h => ⟨_, rfl, ?_⟩⟩⟩
  · have retires {f f'} (hf : ∀ a b, f a b = f' a b) := State.scalarOp_retires (f := f) (f' := f') h hf
    simp only [List.forall_mem_cons]
    exact ⟨⟨_, rfl, retires fun _ _ => rfl⟩, ⟨_, rfl, retires fun _ _ => rfl⟩, ⟨_, rfl, retires fun _ _ => rfl⟩,
      ⟨_, rfl, (retires mulHiU_eq :)⟩, ⟨_, rfl, (retires mulHiS_eq :)⟩, ⟨_, rfl, retires fun _ _ => rfl⟩, ⟨_, rfl, retires fun _ _ => rfl⟩,
      ⟨_, rfl, retires fun _ _ => rfl⟩, ⟨_, rfl, retires fun _ _ => rfl⟩, ⟨_, rfl, retires fun _ _ => rfl⟩,
      ⟨_, rfl, (retires shiftArith_eq :)⟩, ⟨_, rfl, (retires minS_eq :)⟩, ⟨_, rfl, (retires maxS_eq :)⟩, ⟨_, rfl, (retires minU_eq :)⟩,
      ⟨_, rfl, (retires maxU_eq :)⟩, List.forall_mem_nil _⟩
  · exact State.onceIssue_putU h rfl
  · exact State.onceIssue_putU h rfl
  · exact State.onceIssue_putU h rfl

/-- Settles O13: every instruction is its operation in each passing lane. -/
theorem vectorIntegerLanes : Obligations.VectorIntegerLanes := by
  unfold Obligations.VectorIntegerLanes
  refine fun g u s => ⟨fun h => ?binary, fun h => ?unary, fun h => ⟨_, rfl, ?_⟩, fun h => ⟨_, rfl, ?_⟩⟩
  case binary =>
    have retires {f f'} (hf : ∀ a b, f a b = f' a b) := State.vecOp_retires (f := f) (f' := f') h hf
    simp only [List.forall_mem_cons]
    exact ⟨⟨_, rfl, retires fun _ _ => rfl⟩, ⟨_, rfl, retires fun _ _ => rfl⟩, ⟨_, rfl, retires fun _ _ => rfl⟩,
      ⟨_, rfl, (retires mulHiU_eq :)⟩, ⟨_, rfl, (retires mulHiS_eq :)⟩, ⟨_, rfl, retires fun _ _ => rfl⟩, ⟨_, rfl, retires fun _ _ => rfl⟩,
      ⟨_, rfl, retires fun _ _ => rfl⟩, ⟨_, rfl, retires fun _ _ => rfl⟩, ⟨_, rfl, retires fun _ _ => rfl⟩,
      ⟨_, rfl, (retires shiftArith_eq :)⟩, ⟨_, rfl, (retires minS_eq :)⟩, ⟨_, rfl, (retires maxS_eq :)⟩, ⟨_, rfl, (retires minU_eq :)⟩,
      ⟨_, rfl, (retires maxU_eq :)⟩, ⟨_, rfl, retires fun _ _ => rfl⟩, ⟨_, rfl, retires fun _ _ => rfl⟩, List.forall_mem_nil _⟩
  case unary =>
    simp only [List.forall_mem_cons]
    exact ⟨⟨_, rfl, (State.vecUnary_retires h fun a => congrArg (BitVec.ofNat 32) (popCount_eq a) :)⟩,
      ⟨_, rfl, State.vecUnary_retires h fun _ => rfl⟩,
      ⟨_, rfl, State.vecUnary_retires h fun _ => rfl⟩, List.forall_mem_nil _⟩
  · exact State.issue_putT h rfl
  · exact State.issue_putT h rfl

/-- Settles O14: the instructions are those of three shapes, FP32, packed and free within a bound, and FCMP. -/
theorem vectorFloat : Obligations.VectorFloat := by
  unfold Obligations.VectorFloat
  refine ⟨fun g u s kb kc => ⟨fun rounds h => ?fp32, fun h => ?packed⟩, fun g u s h => ?near, fun g u s h => ⟨_, rfl, ?compare⟩⟩
  case fp32 =>
    simp only [List.forall_mem_cons]
    refine ⟨?_, ?_, ?_, ?_, ?_, ?_, ?_, ?_, ?_, List.forall_mem_nil _⟩ <;>
    · rintro rfl rfl rfl
      exact ⟨_, rfl, State.floatOp_retires _ h⟩
  case packed =>
    simp only [List.forall_mem_cons]
    refine ⟨?_, ?_, ?_, List.forall_mem_nil _⟩ <;>
    · rintro rfl
      exact ⟨_, rfl, State.packedOp_retires _ h⟩
  case near =>
    simp only [List.forall_mem_cons]
    exact ⟨⟨_, rfl, State.nearOp_retires _ h⟩, ⟨_, rfl, State.nearOp_retires _ h⟩, ⟨_, rfl, State.nearOp_retires _ h⟩,
      ⟨_, rfl, State.nearOp_retires _ h⟩, List.forall_mem_nil _⟩
  case compare => exact State.issue_putP h rfl

/-- Settles O15: each conversion is a function of the lane's sources and its old register. -/
theorem conversionLanes : Obligations.ConversionLanes := by
  unfold Obligations.ConversionLanes
  exact fun g u s => ⟨fun h => ⟨_, rfl, State.issue_putT h rfl⟩, fun h => ⟨_, rfl, State.issue_putT h rfl⟩,
    fun h => ⟨_, rfl, State.issue_putT h rfl⟩, fun h => ⟨_, rfl, State.issue_putT h rfl⟩⟩

end Sys2Proof.Machine

/-! System instructions (R141, R142). -/

namespace Sys2Proof.Machine

section Rinse

variable {s : State} {i : Inst}

/-- An instruction that sets the rinse rate of its core, once per group (R142). -/
theorem State.onceIssue_setRinse {f : Form} {act : State → Effect} {rate : Option Nat} (h : s.executes i f) (hp : (s.grp i).passing i.u ≠ 0)
    (ha : act s = .next (s.updCore i.c fun k => { k with rinse := rate })) :
    s.onlyCore (s.onceIssue i f act) i.c ∧ (s.grp i).placed ((s.onceIssue i f act).grp i) = s.grp i ∧
      ((s.onceIssue i f act).core i.c).rinse = rate := by
  rw [State.updCore_eq] at ha
  rw [State.onceIssue_eq_issue h hp]
  obtain ⟨ho, -, -, hplaced⟩ := State.issue_next_core h ha (s.onlyCore_setCore _ _)
  refine ⟨ho, (hplaced _).trans (congrArg _ (State.grp_setCore_of_groups rfl)), ?_⟩
  rw [State.issue_of_next h ha]
  exact (congrArg Core.rinse (State.retire_core _ i)).trans (congrArg Core.rinse (s.core_setCore_self _ _))

end Rinse

/-- Settles O31: CNTR and MERR write u[d], and the rinse rate is a field of the core that no end of an instruction touches. -/
theorem systemInstructions : Obligations.SystemInstructions := by
  unfold Obligations.SystemInstructions
  refine fun g u s => ⟨fun h => ⟨_, rfl, ?_⟩, fun h => ⟨_, rfl, ?_⟩, fun hp => ⟨fun h hrate => ⟨_, rfl, ?_⟩, fun h => ⟨_, rfl, ?_⟩⟩⟩
  · exact State.onceIssue_putU h rfl
  · exact State.onceIssue_putU h rfl
  · exact State.onceIssue_setRinse h hp (if_neg (Nat.not_lt.2 hrate))
  · exact State.onceIssue_setRinse h hp rfl

end Sys2Proof.Machine

/-! Cache operations (R133, R214, R215). -/

namespace Sys2Proof.Machine

section CacheOperations

variable {s s1 t : State} {i : Inst}

/-- An instruction whose effect takes lines one after the other, each an access of its core: memory stands, and what sets out for a line has
set out in the end. -/
theorem State.issue_accesses {α : Type} {f : Form} {act : State → Effect} {line : State → α → State} {as : List α} (h : s.executes i f)
    (ha : act s = .next (as.foldl line t)) (ht : s.accessed t i.c) (hline : ∀ (x : State) (a : α), x.accessed (line x a) i.c) :
    (s.issue i f act).store = s.store ∧
      ∀ a ∈ as, ∀ p : Req → Prop, (∀ x, s.accessed x i.c → s.sent (line x a) p) → s.sent (s.issue i f act) p := by
  have hend := (as.foldl line t).adds_retire i
  rw [State.issue_of_next h ha]
  constructor
  · have hs : s.accessed (as.foldl line t) i.c :=
      List.foldlRecOn (motive := fun x => s.accessed x i.c) as line ht fun x hx a _ => hx.trans (hline x a)
    exact (hs.1.trans hend).1
  · intro a hmem p hp
    exact State.sent.mono (foldl_reaches (inv := fun x => s.accessed x i.c) (q := fun x => s.sent x p) (fun x a hx => hx.trans (hline x a))
      (fun x a hx => hx.mono (hline x a).1) hp hmem ht) hend

/-- One line of a cache operation up to its request: a buffered entry has left, and CINV has dropped the line from the core's L1. -/
theorem State.rangeLine_eq (s : State) (i : Inst) (op : RangeOp) (x : Target) :
    ∃ t, s.accessed t i.c ∧ s.rangeLine i op x = if x.kind = .module then t.send (t.vecReq i x 0 (.range op)) else t := by
  have hflush := s.accessed_flushEntry i.c x
  by_cases hop : op = .invalidate
  · exact ⟨_, hflush.trans (State.accessed_updCore (f := fun k => { k with l1 := k.l1.filter fun y => y.line != l1Key x.kind x.addr })
      ⟨_, _, _, _, rfl⟩), by simp only [State.rangeLine, if_pos hop]⟩
  · exact ⟨_, hflush, by simp only [State.rangeLine, if_neg hop]⟩

theorem State.rangeLine_accessed (s : State) (i : Inst) (op : RangeOp) (x : Target) : s.accessed (s.rangeLine i op x) i.c := by
  obtain ⟨t, ht, heq⟩ := s.rangeLine_eq i op x
  rw [heq]
  split
  · exact ht.trans (State.accessed_send _ _ i.c)
  · exact ht

theorem State.rangeLine_sent (h : s.accessed t i.c) (op : RangeOp) {x : Target} (hm : x.kind = .module) :
    s.sent (t.rangeLine i op x) fun r => r.agent = .vec i.c i.slot ∧ r.addr = x.addr ∧ r.op = .range op := by
  obtain ⟨t', ht, heq⟩ := t.rangeLine_eq i op x
  rw [heq, if_pos hm]
  exact State.sent_send (h.trans ht).1 _ fun _ _ => ⟨rfl, rfl, rfl⟩

/-- The use that the lines of a cache operation are checked for (R562). -/
def RangeOp.use : RangeOp → Use
  | .discard => .discard
  | _ => .flush

/-- A cache operation with a length of zero does nothing (R133). -/
theorem State.cacheOp_zero {op : RangeOp} (h : s.executes i (cacheOpForm i.u (if op = .prefetch then .read else .write)))
    (hp : (s.grp i).passing i.u ≠ 0) (hn : (s.uVal i i.u.b.toNat).toNat = 0) : s.onlyGroup (s.cacheOp i op) i := by
  rw [State.cacheOp, State.onceIssue_eq_issue h hp]
  exact (State.issue_idle h (by simp [hn])).1

/-- CFLUSH, CINV and CDISC of a length that is allowed check their lines and act on them. -/
theorem State.cacheOp_act {op : RangeOp} {a n : Nat} (hop : op ≠ .prefetch) (ha : a = (s.uVal i i.u.a.toNat).toNat)
    (hn : n = (s.uVal i i.u.b.toNat).toNat) (hmax : n ≤ 65536) (hn0 : n ≠ 0) (haligned : op = .discard → a % 128 = 0 ∧ n % 128 = 0) :
    ∃ act, s.cacheOp i op = s.onceIssue i (cacheOpForm i.u .write) act ∧ act s = s.rangeOpAct i op op.use (rangeLines a n) := by
  have hsound : (op = .discard && (a % 128 != 0 || n % 128 != 0)) = false := by
    rw [Bool.and_eq_false_imp, decide_eq_true_eq]
    intro hd
    obtain ⟨h1, h2⟩ := haligned hd
    rw [h1, h2]
    rfl
  refine ⟨_, by rw [State.cacheOp, if_neg hop], ?_⟩
  simp only [← ha, ← hn, if_neg (Nat.not_lt.2 hmax), if_neg hn0, hsound, Bool.false_eq_true, if_false]
  cases op with
  | prefetch => exact absurd rfl hop
  | flush => rfl
  | invalidate => rfl
  | discard => rfl

/-- They send a line operation for every line of module memory that passes the checks of R562. -/
theorem State.cacheOp_sent {op : RangeOp} {ts : List (Nat × Target)} {a n : Nat} (hop : op ≠ .prefetch)
    (h : s.executes i (cacheOpForm i.u .write)) (hp : (s.grp i).passing i.u ≠ 0) (ha : a = (s.uVal i i.u.a.toNat).toNat)
    (hn : n = (s.uVal i i.u.b.toNat).toNat) (hmax : n ≤ 65536) (hn0 : n ≠ 0) (haligned : op = .discard → a % 128 = 0 ∧ n % 128 = 0)
    (hcheck : s.checkLines i.c op.use 1 ((rangeLines a n).map fun va => (0, va)) ((rangeLines a n).map (· / 128)) = (.inr ts, s1)) :
    (s.cacheOp i op).store = s.store ∧ ∀ x ∈ ts, x.2.kind = .module →
      s.sent (s.cacheOp i op) fun r => r.agent = .vec i.c i.slot ∧ r.addr = x.2.addr ∧ r.op = .range op := by
  have hlooks := State.checkLines_looksUp i.c op.use 1 ((rangeLines a n).map fun va => (0, va)) ((rangeLines a n).map (· / 128)) s
  rw [hcheck] at hlooks
  obtain ⟨act, hissue, hact⟩ := State.cacheOp_act hop ha hn hmax hn0 haligned
  rw [State.rangeOpAct, hcheck] at hact
  rw [hissue, State.onceIssue_eq_issue h hp]
  obtain ⟨hst, hsent⟩ := State.issue_accesses h hact hlooks.accessed fun x y => x.rangeLine_accessed i op y.2
  exact ⟨hst, fun x hx hm => hsent x hx _ fun t ht => State.rangeLine_sent ht op hm⟩

/-! CPREF. -/

/-- One line of CPREF: a line that it may not fetch is skipped (R215). -/
def State.prefetchLine (s : State) (i : Inst) (va : Nat) : State :=
  match s.compute i.c va .load with
  | (.inl t, s1) => if t.type == .device || t.kind != .module then s1 else s1.rangeLine i .prefetch t
  | (.inr _, s1) => s1

theorem State.prefetchLine_accessed (s : State) (i : Inst) (va : Nat) : s.accessed (s.prefetchLine i va) i.c := by
  unfold State.prefetchLine
  split
  · next hc =>
    have hlooks := (State.looksUp_of_compute hc).accessed
    split
    · exact hlooks
    · exact hlooks.trans (State.rangeLine_accessed _ i _ _)
  · next hc => exact (State.looksUp_of_compute hc).accessed

theorem State.prefetchLine_sent {va : Nat} {x : Target} (hc : s.compute i.c va .load = (.inl x, s1)) (ht : x.type ≠ .device)
    (hm : x.kind = .module) :
    s.sent (s.prefetchLine i va) fun r => r.agent = .vec i.c i.slot ∧ r.addr = x.addr ∧ r.op = .range .prefetch := by
  have hfetch : (x.type == .device || x.kind != .module) = false := by simp [ht, hm]
  simp only [State.prefetchLine, hc, hfetch, Bool.false_eq_true, if_false]
  exact State.rangeLine_sent (State.looksUp_of_compute hc).accessed _ hm

/-- CPREF of a length that is allowed acts on its lines one after the other. -/
theorem State.prefetch_act {a n : Nat} (ha : a = (s.uVal i i.u.a.toNat).toNat) (hn : n = (s.uVal i i.u.b.toNat).toNat) (hmax : n ≤ 65536)
    (hn0 : n ≠ 0) :
    ∃ act, s.cacheOp i .prefetch = s.onceIssue i (cacheOpForm i.u .read) act ∧
      act s = .next ((rangeLines a n).foldl (fun s va => s.prefetchLine i va) s) := by
  refine ⟨_, rfl, ?_⟩
  simp only [← ha, ← hn, if_neg (Nat.not_lt.2 hmax), if_neg hn0]
  rfl

/-- CPREF changes no memory, and sends a line operation for the one line of a short range, when it may fetch it. -/
theorem State.prefetch_sent {a n : Nat} (h : s.executes i (cacheOpForm i.u .read)) (hp : (s.grp i).passing i.u ≠ 0)
    (ha : a = (s.uVal i i.u.a.toNat).toNat) (hn : n = (s.uVal i i.u.b.toNat).toNat) (hmax : n ≤ 65536) (hn0 : n ≠ 0) :
    (s.cacheOp i .prefetch).store = s.store ∧
      ∀ (va : Nat) (x : Target), rangeLines a n = [va] → s.compute i.c va .load = (.inl x, s1) → x.type ≠ .device → x.kind = .module →
        s.sent (s.cacheOp i .prefetch) fun r => r.agent = .vec i.c i.slot ∧ r.addr = x.addr ∧ r.op = .range .prefetch := by
  obtain ⟨act, hissue, hact⟩ := State.prefetch_act ha hn hmax hn0
  rw [hissue, State.onceIssue_eq_issue h hp]
  refine ⟨(State.issue_accesses h hact (State.accessed.refl s _) fun x va => x.prefetchLine_accessed i va).1, fun va x hl hc ht hm => ?_⟩
  rw [hl] at hact
  rw [State.issue_of_next h hact]
  exact (State.prefetchLine_sent hc ht hm).mono (State.adds_retire _ _)

end CacheOperations

/-! CPREF with a length of zero and an address inside a line: `rangeLines` extends the empty range outward to one line, which the instruction
does not fetch. -/

/-- Page 0 of context 0x400, of type Normal, pinned at the first page of Tier 1. -/
def unfetchedPage : TlbEntry :=
  { ctx := 0x400, va := 0, size := 4096, out := 0, kind := .module, writable := false, attr := 0, pinned := true }

/-- A group whose u[1] is the address 1, and whose u[2] is the length 0. -/
def unfetchedCore : Core :=
  { mode := .running, kernel := { codeBytes := 8 }, context := 0x400, utlb := [unfetchedPage],
    groups := [(0, { occupied := true, active := 1, live := 1, u := [(1, 1)] })] }

/-- The page is mapped by its context and lies in a region. -/
def unfetchedState : State :=
  { cores := [(0, unfetchedCore)],
    xlat := { ctxs := [(0, { gen := 1, state := 1, windows := [{ va := 0, len := 4096, writable := false, stale := false, leaves := [] }] })] },
    store := { regions := [(0, some { base := 0, strands := [0], bays := 1, firstBay := 0 })] } }

/-- CPREF of u[1] and u[2]. -/
def unfetchedUnit : Fields := { d := 0, a := 1, b := 2, c := 0, pred := 0, neg := false, ext := none, mod := 0 }

theorem unfetched_executes : unfetchedState.executes (inst ⟨0, 0⟩ unfetchedUnit) (cacheOpForm unfetchedUnit .read) := by
  unfold State.executes
  decide

theorem unfetched_line_passes :
    ∃ x s1, unfetchedState.compute 0 0 .load = (.inl x, s1) ∧ x.type ≠ .device ∧ x.kind = .module :=
  ⟨_, _, rfl, by decide, by decide⟩

/-- Refutes O23: its last clause asks for a request wherever the range extends to one line, and so of a CPREF of length zero at address 1,
which does nothing (R133). -/
theorem not_cacheOperationsSendRequests : ¬ Obligations.CacheOperationsSendRequests := by
  unfold Obligations.CacheOperationsSendRequests
  intro h
  obtain ⟨x, s1, hc, ht, hm⟩ := unfetched_line_passes
  obtain ⟨t, -, -, hzero, hsent⟩ := (h ⟨0, 0⟩ unfetchedUnit unfetchedState s1 1 0 (by decide) (by decide) (by decide) (by decide)).2
    unfetched_executes
  have hfab : t.fab = unfetchedState.fab := by rw [← (hzero rfl).1.1]
  obtain ⟨r, hr, -⟩ := hsent 0 x (by decide) hc ht hm
  rw [hfab] at hr
  exact List.not_mem_nil hr

/-- What holds beside that: the clauses of O23, the last one for a length other than zero. -/
theorem cacheOperations_of_length {g : GroupRef} {u : Fields} {s s1 : State} {a n : Nat} (ha : a = (s.uVal (inst g u) u.a.toNat).toNat)
    (hn : n = (s.uVal (inst g u) u.b.toNat).toNat) (hmax : n ≤ 65536) (hp : (s.grp (inst g u)).passing u ≠ 0) :
    (∀ e ∈ [(Instr.cflush g u, RangeOp.flush), (.cinv g u, .invalidate), (.cdisc g u, .discard)],
      s.executes (inst g u) (cacheOpForm u .write) →
      (n = 0 → ∃ t, exec e.1 s = .next t ∧ s.onlyGroup t (inst g u)) ∧
      ∀ ts, n ≠ 0 → (e.2 = .discard → a % 128 = 0 ∧ n % 128 = 0) →
        s.checkLines g.core e.2.use 1 ((rangeLines a n).map fun va => (0, va)) ((rangeLines a n).map (· / 128)) = (.inr ts, s1) →
        ∃ t, exec e.1 s = .next t ∧ t.store = s.store ∧
          ∀ x ∈ ts, x.2.kind = .module → s.sent t fun r => r.agent = .vec g.core g.slot ∧ r.addr = x.2.addr ∧ r.op = .range e.2) ∧
    (s.executes (inst g u) (cacheOpForm u .read) →
      (n = 0 → ∃ t, exec (.cpref g u) s = .next t ∧ s.onlyGroup t (inst g u)) ∧
      (n ≠ 0 → ∃ t, exec (.cpref g u) s = .next t ∧ t.store = s.store ∧
        ∀ (va : Nat) (x : Target), rangeLines a n = [va] → s.compute g.core va .load = (.inl x, s1) → x.type ≠ .device →
          x.kind = .module → s.sent t fun r => r.agent = .vec g.core g.slot ∧ r.addr = x.addr ∧ r.op = .range .prefetch)) := by
  constructor
  · simp only [List.forall_mem_cons]
    refine ⟨fun h => ⟨fun h0 => ⟨_, rfl, State.cacheOp_zero h hp (hn ▸ h0)⟩, fun ts hn0 hal hc => ⟨_, rfl, ?_⟩⟩,
      fun h => ⟨fun h0 => ⟨_, rfl, State.cacheOp_zero h hp (hn ▸ h0)⟩, fun ts hn0 hal hc => ⟨_, rfl, ?_⟩⟩,
      fun h => ⟨fun h0 => ⟨_, rfl, State.cacheOp_zero h hp (hn ▸ h0)⟩, fun ts hn0 hal hc => ⟨_, rfl, ?_⟩⟩, List.forall_mem_nil _⟩
    · exact State.cacheOp_sent (op := .flush) (by decide) h hp ha hn hmax hn0 nofun hc
    · exact State.cacheOp_sent (op := .invalidate) (by decide) h hp ha hn hmax hn0 nofun hc
    · exact State.cacheOp_sent (op := .discard) (by decide) h hp ha hn hmax hn0 (fun _ => hal trivial) hc
  · exact fun h => ⟨fun h0 => ⟨_, rfl, State.cacheOp_zero h hp (hn ▸ h0)⟩, fun hn0 => ⟨_, rfl, State.prefetch_sent h hp ha hn hmax hn0⟩⟩

end Sys2Proof.Machine

/-! The scheduled mesh: MSEND, MRECV, the slots of a router, its start and the crossings (R140, R230 to R232, R235, R239). -/

namespace Sys2Proof.Machine

section Queues

/-! A send or a receive of one core (R231). -/

variable {k : Core} {w : MeshWait}

@[simp] theorem Router.sending_set (r : Router) (i : Nat) (q : List Flit) : { r with sendQ := SMap.set [] r.sendQ i q }.sending i = q :=
  SMap.get_set_self _ _ _ _

@[simp] theorem Router.recv_set (r : Router) (i : Nat) (q : List Flit) : { r with recvQ := SMap.set [] r.recvQ i q }.recv i = q :=
  SMap.get_set_self _ _ _ _

/-- Flits of the register form enter together, or none does. -/
theorem Core.sendMore_flits (ht : w.tile = false) :
    if (k.router.sending w.stream).length + w.flits.length ≤ 8 then
      ((k.sendMore w).1.router.sending w.stream).map (·.bytes) = (k.router.sending w.stream).map (·.bytes) ++ w.flits ∧
        (k.sendMore w).2 = none
    else (k.sendMore w).1.router = k.router ∧ (k.sendMore w).2 ≠ none := by
  unfold Core.sendMore
  simp only [ht, Bool.false_eq_true, if_false]
  split_ifs with hroom
  · refine ⟨?_, rfl⟩
    rw [Router.sending_set, List.map_append, List.map_map]
    exact congrArg _ (List.map_id _)
  · exact ⟨rfl, nofun⟩

/-- Flits of the tile form enter while there is room. -/
theorem Core.sendMore_tile {n : Nat} (ht : w.tile = true) (hn : n = Nat.min (8 - (k.router.sending w.stream).length) (w.left / 64)) :
    ((k.sendMore w).1.router.sending w.stream).map (·.bytes) =
        (k.router.sending w.stream).map (·.bytes) ++ (List.range n).map (fun j => SMap.getBytes k.tile (w.addr + 64 * j) 64) ∧
      (k.sendMore w).1.tile = k.tile ∧ ((k.sendMore w).2 = none ↔ w.left = 64 * n) := by
  unfold Core.sendMore
  simp only [ht, if_true, ← hn]
  refine ⟨?_, trivial, ?_⟩
  · rw [Router.sending_set, List.map_append, List.map_map]
    rfl
  · split_ifs with hl
    · exact iff_of_true rfl hl
    · exact iff_of_false nofun hl

/-- Flits of a register are taken together, or none is. -/
theorem Core.recvMore_flits (slot : Nat) (ht : w.tile = false) :
    if k.W / 16 ≤ (k.router.recv w.stream).length then
      (k.recvMore slot w).1.router.recv w.stream = (k.router.recv w.stream).drop (k.W / 16) ∧ (k.recvMore slot w).2 = none
    else (k.recvMore slot w).1.router = k.router ∧ (k.recvMore slot w).2 ≠ none := by
  unfold Core.recvMore
  simp only [ht, Bool.false_eq_true, if_false]
  split_ifs with hfull
  · exact ⟨Router.recv_set _ _ _, rfl⟩
  · exact ⟨rfl, nofun⟩

/-- The lanes of the mask take their words of the flits. -/
theorem Core.getT_recvMore (slot : Nat) (ht : w.tile = false) (hfull : k.W / 16 ≤ (k.router.recv w.stream).length) (hd : w.dreg < 256)
    {lane r : Nat} (hl : lane < 64) (hr : r < 256) :
    ((k.recvMore slot w).1.group slot).getT lane r =
      if r = w.dreg ∧ w.lanes.getLsbD lane then
        BitVec.ofNat 32 (fieldAt (((k.router.recv w.stream).take (k.W / 16)).flatMap Flit.bytes) (4 * lane) 4)
      else (k.group slot).getT lane r := by
  unfold Core.recvMore
  simp only [ht, Bool.false_eq_true, if_false, if_pos hfull]
  rw [Core.group_setGroup_self, Group.putT_get _ (nodup_lanesOf _) _ _ _ _ _ hr hd]
  simp only [mem_lanesOf, hl, true_and]

/-- Flits of the tile form are taken while there are some. -/
theorem Core.recvMore_tile (slot : Nat) {n : Nat} (ht : w.tile = true) (hn : n = Nat.min (k.router.recv w.stream).length (w.left / 64)) :
    (k.recvMore slot w).1.router.recv w.stream = (k.router.recv w.stream).drop n ∧
      (k.recvMore slot w).1.tile = (((k.router.recv w.stream).take n).zipIdx.foldl
        (fun (x : SMap Byte) (f : Flit × Nat) => SMap.putBytes x (w.addr + 64 * f.2) f.1.bytes) k.tile) ∧
      ((k.recvMore slot w).2 = none ↔ w.left = 64 * n) := by
  unfold Core.recvMore
  simp only [ht, if_true, ← hn]
  refine ⟨Router.recv_set _ _ _, trivial, ?_⟩
  split_ifs with hl
  · exact iff_of_true rfl hl
  · exact iff_of_false nofun hl

end Queues

section MeshInstructions

variable {s : State} {i : Inst} {c slot : Nat} {w : MeshWait}

/-- A step of a mesh instruction: what it does to its core, and what is left to do. -/
def Core.meshMore (k : Core) (slot : Nat) (w : MeshWait) : Core × Option MeshWait := if w.isSend then k.sendMore w else k.recvMore slot w

theorem State.core_meshGo : (s.meshGo c slot w).core c = ((s.core c).meshMore slot w).1.setGroup slot
    { ((s.core c).meshMore slot w).1.group slot with mesh := ((s.core c).meshMore slot w).2 } := s.core_setCore_self _ _

theorem State.router_meshGo : ((s.meshGo c slot w).core c).router = ((s.core c).meshMore slot w).1.router := by
  rw [State.core_meshGo]
  rfl

theorem State.tile_meshGo : ((s.meshGo c slot w).core c).tile = ((s.core c).meshMore slot w).1.tile := by
  rw [State.core_meshGo]
  rfl

theorem State.mesh_meshGo : (((s.meshGo c slot w).core c).group slot).mesh = ((s.core c).meshMore slot w).2 := by
  rw [State.core_meshGo, Core.group_setGroup_self]

/-- What the mesh instruction of a group has to do. -/
def State.meshWait (s : State) (i : Inst) (isSend : Bool) (m : Mask) (flits : List (List Byte)) (addr left : Nat) : MeshWait :=
  { isSend, tile := i.u.bit 13, stream := i.u.bits 0 4, dreg := i.u.d.toNat, lanes := m, flits, red := i.u.bit 12, bf16 := i.u.bit 10,
    addr, left, waited := 0, site := (s.grp i).site i.slot (s.core i.c) }

/-- The flits of the register form of MSEND: zero for the lanes outside the mask (R140). -/
def State.meshFlits (s : State) (i : Inst) (m : Mask) : List (List Byte) :=
  (List.range ((s.core i.c).W / 16)).map fun j =>
    (((List.range (s.core i.c).W).flatMap fun l => leBytes 4 (if m.getLsbD l then ((s.grp i).getT l i.u.a.toNat).toNat else 0)).drop
      (64 * j)).take 64

theorem State.meshIssue_flits {isSend : Bool} (m : Mask) (hn : s.streamNamed i.c (i.u.bits 0 4) isSend = true) (ht : i.u.bit 13 = false) :
    s.meshIssue i isSend m = .next (s.meshGo i.c i.slot (s.meshWait i isSend m (if isSend then s.meshFlits i m else []) 0 0)) := by
  simp only [State.meshIssue, hn, ht, Bool.not_true, Bool.false_eq_true, if_false, State.meshWait, State.meshFlits]

theorem State.meshIssue_tile {isSend : Bool} {a len : Nat} (m : Mask) (hn : s.streamNamed i.c (i.u.bits 0 4) isSend = true)
    (ht : i.u.bit 13 = true) (ha : a = (s.uVal i i.u.a.toNat).toNat) (hl : len = (s.uVal i i.u.b.toNat).toNat) (ha64 : a % 64 = 0)
    (hl64 : len % 64 = 0) (hl0 : len ≠ 0) (hT : a + len ≤ (s.core i.c).T) :
    s.meshIssue i isSend m = .next (s.meshGo i.c i.slot (s.meshWait i isSend m [] a len)) := by
  simp only [State.meshIssue, hn, ht, ← ha, ← hl, ha64, hl64, bne_self_eq_false, Bool.or_self, Bool.not_true, Bool.false_eq_true, if_false,
    if_true, decide_eq_false (Nat.not_lt.2 hT), Bool.and_false, if_neg hl0, State.meshWait]

/-- MSEND or MRECV whose mask is allowed: what it leaves of its core is what it did to the queues. -/
theorem State.collective_meshGo {f : Form} {cls : Nat} {part : Bool} {act : State → Mask → Effect} {m : Mask} {t : State} {r : Core × Option MeshWait}
    (ht : t = s.collective i f cls part act) (h : s.executes i f) (hm : m = (s.grp i).passing i.u) (hp : part = true ∨ m = (s.grp i).live)
    (ha : act s m = .next (s.meshGo i.c i.slot w)) (hr : (s.core i.c).meshMore i.slot w = r) :
    s.onlyCore t i.c ∧ (t.core i.c).router = r.1.router ∧ (t.core i.c).tile = r.1.tile ∧ (t.grp i).mesh = r.2 ∧
      ∀ lane n, (t.grp i).getT lane n = (r.1.group i.slot).getT lane n := by
  subst ht hm hr
  rw [State.collective_eq_issue h hp]
  obtain ⟨ho, htile, -, hplaced⟩ := State.issue_next_core (act := fun s => act s ((s.grp i).passing i.u)) h ha (s.onlyCore_setCore _ _)
  have hgrp : (s.meshGo i.c i.slot w).grp i =
      { ((s.core i.c).meshMore i.slot w).1.group i.slot with mesh := ((s.core i.c).meshMore i.slot w).2 } := by
    rw [State.grp, State.core_meshGo, Core.group_setGroup_self]
  rw [hgrp] at hplaced
  refine ⟨ho, ?_, htile.trans State.tile_meshGo, ?_, fun lane n => ?_⟩
  · rw [State.issue_of_next (t := s.meshGo i.c i.slot w) h ha]
    have hrest := congrArg Core.router (State.retire_core (s.meshGo i.c i.slot w) i)
    exact hrest.trans State.router_meshGo
  · have hmesh := congrArg Group.mesh (hplaced {})
    exact hmesh
  · have hregs := (Group.placed_inj (hplaced {})).1
    rw [Group.getT, hregs]
    rfl

/-- MSEND of a register (R140, R231). -/
theorem State.msend_flits {t : State} {m : Mask}
    (ht : t = s.collective i (sendForm i.u (s.core i.c)) 0xD (i.u.bit 11) fun s m => s.meshIssue i true m)
    (h : s.executes i (sendForm i.u (s.core i.c))) (hm : m = (s.grp i).passing i.u)
    (hp : i.u.bit 11 = true ∨ m = (s.grp i).live) (hn : s.streamNamed i.c (i.u.bits 0 4) true = true) (h13 : i.u.bit 13 = false) :
    s.onlyCore t i.c ∧
      if ((s.core i.c).router.sending (i.u.bits 0 4)).length + (s.core i.c).W / 16 ≤ 8 then
        ((t.core i.c).router.sending (i.u.bits 0 4)).map (·.bytes) =
            ((s.core i.c).router.sending (i.u.bits 0 4)).map (·.bytes) ++ s.meshFlits i m ∧
          (t.grp i).mesh = none
      else (t.core i.c).router = (s.core i.c).router ∧ (t.grp i).mesh ≠ none := by
  obtain ⟨ho, hr, -, hw, -⟩ := State.collective_meshGo ht h hm hp (State.meshIssue_flits m hn h13) rfl
  have hq := Core.sendMore_flits (k := s.core i.c) (w := s.meshWait i true m (s.meshFlits i m) 0 0) h13
  have hlen : (s.meshFlits i m).length = (s.core i.c).W / 16 := by rw [State.meshFlits, List.length_map, List.length_range]
  rw [hr, hw, ← hlen]
  exact ⟨ho, hq⟩

/-- MRECV into a register (R140, R231). -/
theorem State.mrecv_flits {t : State} {m : Mask}
    (ht : t = s.collective i (recvForm i.u (s.core i.c)) 0xD (i.u.bit 11) fun s m => s.meshIssue i false m)
    (h : s.executes i (recvForm i.u (s.core i.c))) (hm : m = (s.grp i).passing i.u)
    (hp : i.u.bit 11 = true ∨ m = (s.grp i).live) (hn : s.streamNamed i.c (i.u.bits 0 4) false = true) (h13 : i.u.bit 13 = false) :
    s.onlyCore t i.c ∧
      if (s.core i.c).W / 16 ≤ ((s.core i.c).router.recv (i.u.bits 0 4)).length then
        (t.core i.c).router.recv (i.u.bits 0 4) = ((s.core i.c).router.recv (i.u.bits 0 4)).drop ((s.core i.c).W / 16) ∧
        (t.grp i).mesh = none ∧
        ∀ lane r, lane < 64 → r < 256 → (t.grp i).getT lane r =
          if r = i.u.d.toNat ∧ m.getLsbD lane then
            BitVec.ofNat 32 (fieldAt ((((s.core i.c).router.recv (i.u.bits 0 4)).take ((s.core i.c).W / 16)).flatMap Flit.bytes) (4 * lane) 4)
          else (s.grp i).getT lane r
      else (t.core i.c).router = (s.core i.c).router ∧ (t.grp i).mesh ≠ none := by
  obtain ⟨ho, hr, -, hw, hregs⟩ := State.collective_meshGo ht h hm hp (State.meshIssue_flits m hn h13) rfl
  have hq := Core.recvMore_flits (k := s.core i.c) (w := s.meshWait i false m [] 0 0) i.slot h13
  refine ⟨ho, ?_⟩
  rw [hr, hw]
  by_cases hfull : (s.core i.c).W / 16 ≤ ((s.core i.c).router.recv (i.u.bits 0 4)).length
  · obtain ⟨hdrop, hdone⟩ := (if_pos hfull).mp hq
    rw [if_pos hfull]
    refine ⟨hdrop, hdone, fun lane r hl hr => (hregs lane r).trans ?_⟩
    exact Core.getT_recvMore (w := s.meshWait i false m [] 0 0) i.slot h13 hfull i.u.d.isLt hl hr
  · rw [if_neg hfull]
    exact (if_neg hfull).mp hq

/-- MSEND from tile memory (R140, R231). -/
theorem State.msend_tile {t : State} {m : Mask} {a len n : Nat}
    (ht : t = s.collective i (sendForm i.u (s.core i.c)) 0xD (i.u.bit 11) fun s m => s.meshIssue i true m)
    (h : s.executes i (sendForm i.u (s.core i.c))) (hm : m = (s.grp i).passing i.u)
    (hp : i.u.bit 11 = true ∨ m = (s.grp i).live) (hn : s.streamNamed i.c (i.u.bits 0 4) true = true) (h13 : i.u.bit 13 = true)
    (ha : a = (s.uVal i i.u.a.toNat).toNat) (hl : len = (s.uVal i i.u.b.toNat).toNat) (ha64 : a % 64 = 0) (hl64 : len % 64 = 0)
    (hl0 : len ≠ 0) (hT : a + len ≤ (s.core i.c).T)
    (hmin : n = Nat.min (8 - ((s.core i.c).router.sending (i.u.bits 0 4)).length) (len / 64)) :
    s.onlyCore t i.c ∧ (t.core i.c).tile = (s.core i.c).tile ∧
      ((t.core i.c).router.sending (i.u.bits 0 4)).map (·.bytes) = ((s.core i.c).router.sending (i.u.bits 0 4)).map (·.bytes) ++
        (List.range n).map (fun j => SMap.getBytes (s.core i.c).tile (a + 64 * j) 64) ∧
      ((t.grp i).mesh = none ↔ len = 64 * n) := by
  obtain ⟨ho, hr, hti, hw, -⟩ := State.collective_meshGo ht h hm hp (State.meshIssue_tile m hn h13 ha hl ha64 hl64 hl0 hT) rfl
  obtain ⟨hq, htile, hleft⟩ := Core.sendMore_tile (k := s.core i.c) (w := s.meshWait i true m [] a len) h13 hmin
  rw [hr, hti, hw]
  exact ⟨ho, htile, hq, hleft⟩

/-- MRECV into tile memory (R140, R231). -/
theorem State.mrecv_tile {t : State} {m : Mask} {a len n : Nat}
    (ht : t = s.collective i (recvForm i.u (s.core i.c)) 0xD (i.u.bit 11) fun s m => s.meshIssue i false m)
    (h : s.executes i (recvForm i.u (s.core i.c))) (hm : m = (s.grp i).passing i.u)
    (hp : i.u.bit 11 = true ∨ m = (s.grp i).live) (hn : s.streamNamed i.c (i.u.bits 0 4) false = true) (h13 : i.u.bit 13 = true)
    (ha : a = (s.uVal i i.u.a.toNat).toNat) (hl : len = (s.uVal i i.u.b.toNat).toNat) (ha64 : a % 64 = 0) (hl64 : len % 64 = 0)
    (hl0 : len ≠ 0) (hT : a + len ≤ (s.core i.c).T)
    (hmin : n = Nat.min ((s.core i.c).router.recv (i.u.bits 0 4)).length (len / 64)) :
    s.onlyCore t i.c ∧ (t.core i.c).router.recv (i.u.bits 0 4) = ((s.core i.c).router.recv (i.u.bits 0 4)).drop n ∧
      (t.core i.c).tile = ((((s.core i.c).router.recv (i.u.bits 0 4)).take n).zipIdx.foldl
        (fun (x : SMap Byte) (f : Flit × Nat) => SMap.putBytes x (a + 64 * f.2) f.1.bytes) (s.core i.c).tile) ∧
      ((t.grp i).mesh = none ↔ len = 64 * n) := by
  obtain ⟨ho, hr, hti, hw, -⟩ := State.collective_meshGo ht h hm hp (State.meshIssue_tile m hn h13 ha hl ha64 hl64 hl0 hT) rfl
  obtain ⟨hq, htile, hleft⟩ := Core.recvMore_tile (k := s.core i.c) (w := s.meshWait i false m [] a len) i.slot h13 hmin
  rw [hr, hti, hw]
  exact ⟨ho, hq, htile, hleft⟩

/-- MESH_QUEUE_WAIT_DONE goes on with the wait of a group. -/
theorem exec_meshQueueWaitDone {g : GroupRef} (hw : ((s.core g.core).group g.slot).mesh = some w) :
    exec (.meshQueueWaitDone g) s = .next (s.meshGo g.core g.slot w) := by
  show execMeshQueueWaitDone g s = _
  simp only [execMeshQueueWaitDone, hw]

end MeshInstructions

section Routers

variable {s t : State} {c : Nat}

/-! A slot of a router changes cores only. -/

/-- Only cores may differ. -/
def State.onlyCores (s t : State) : Prop := ∃ cores, t = { s with cores }

theorem State.onlyCores.trans {r : State} (h : r.onlyCores s) (h' : s.onlyCores t) : r.onlyCores t := by
  obtain ⟨_, rfl⟩ := h
  obtain ⟨cores, rfl⟩ := h'
  exact ⟨cores, rfl⟩

theorem State.onlyCores_updCore (s : State) (c : Nat) (f : Core → Core) : s.onlyCores (s.updCore c f) := ⟨_, rfl⟩

theorem State.deliverFlit_cores {port stream : Nat} {f : Flit} (h : s.deliverFlit c port stream f = .inr t) : s.onlyCores t := by
  unfold State.deliverFlit at h
  dsimp only at h
  split_ifs at h
  · cases h
    exact ⟨_, rfl⟩
  · cases h
    exact ⟨_, rfl⟩
  · split at h
    · cases h
      exact s.onlyCores_updCore _ _
    · cases h

theorem State.slotOutputs_cores {j : Nat} {k0 : Core} {ports : List Nat} (h : s.slotOutputs c j k0 ports = .inr t) : s.onlyCores t := by
  induction ports generalizing s with
  | nil =>
    cases h
    exact ⟨_, rfl⟩
  | cons p rest ih =>
    rw [State.slotOutputs] at h
    dsimp only at h
    split at h
    · exact ih h
    · split at h
      · cases h
      · exact (s.onlyCores_updCore _ _).trans (ih h)
      · split at h
        · cases h
        · next hd => exact (State.deliverFlit_cores hd).trans ((State.onlyCores_updCore _ _ _).trans (ih h))

/-- Some output entry of slot `j` takes its flit from port `p`. -/
def State.portNamed (s : State) (c j p : Nat) : Prop :=
  ∃ o < 5, let e := s.tableEntry c j o; e.srcA ≠ 0 ∧ (e.srcA = p + 1 ∨ (e.add = true ∧ e.srcB = p + 1))

/-- The end of a slot: the flits that its entries took are gone, and the next slot comes (R230). -/
def Core.slotTaken (k : Core) (c slots : Nat) (es : List SlotEntry) : Core :=
  { k.takeSources c es with router := { (k.takeSources c es).router with
      slots := slots + 1, inputs := (k.takeSources c es).router.inputs.filter fun x => slots < x.2.1 } }

/-- MESH_ROUTER_SLOT of a running router whose neighbours are ready, when no output finds a cause and every flit that arrives is named. -/
theorem exec_meshRouterSlot {s1 : State} {c : CoreIdx} {r : Router} (hr : r = (s.core c).router) (hrun : r.run = true)
    (hrunning : r.running = true) (hready : s.slotReady c = true)
    (hout : s.slotOutputs c (r.slots % r.length) (s.core c) [0, 1, 2, 3, 4] = .inr s1)
    (hnamed : ∀ x ∈ r.inputs, x.2.1 = r.slots → r.edge.getLsbD x.1 = false → s.portNamed c (r.slots % r.length) x.1) :
    exec (.meshRouterSlot c) s = .next (s1.setCore c ((s1.core c).slotTaken c r.slots
      ((List.range 5).map (s.tableEntry c (r.slots % r.length))))) := by
  subst hr
  show execMeshRouterSlot c s = _
  simp only [execMeshRouterSlot, hrun, hrunning, hready, hout, Bool.and_self, Bool.not_true, Bool.false_eq_true, if_false]
  rw [List.find?_eq_none.2]
  · rfl
  · intro x hx hbad
    simp only [Bool.and_eq_true, beq_iff_eq, Bool.not_eq_true', List.any_eq_false, List.mem_map, List.mem_range] at hbad
    obtain ⟨⟨hslot, hno⟩, hedge⟩ := hbad
    obtain ⟨o, ho, hA, hsrc⟩ := hnamed x hx hslot hedge
    exact hno _ ⟨o, ho, rfl⟩ (by simpa using ⟨hA, hsrc⟩)

/-- A slot of a router that raises no fault. -/
theorem meshRouterSlot_takes {s1 : State} {c : CoreIdx} {r : Router} (hr : r = (s.core c).router) (hrun : r.run = true)
    (hrunning : r.running = true) (hready : s.slotReady c = true)
    (hout : s.slotOutputs c (r.slots % r.length) (s.core c) [0, 1, 2, 3, 4] = .inr s1)
    (hnamed : ∀ x ∈ r.inputs, x.2.1 = r.slots → r.edge.getLsbD x.1 = false → s.portNamed c (r.slots % r.length) x.1) :
    ∃ t, exec (.meshRouterSlot c) s = .next t ∧ (t.core c).router.slots = r.slots + 1 ∧ t.store = s.store ∧
      ∀ d, d ≠ c.val → t.core d = s1.core d := by
  obtain ⟨cores, hs1⟩ := State.slotOutputs_cores hout
  refine ⟨_, exec_meshRouterSlot hr hrun hrunning hready hout hnamed, ?_, ?_, fun d hd => ?_⟩
  · rw [State.core_setCore_self]
    rfl
  · rw [State.setCore_store, hs1]
  · rw [State.core_setCore, if_neg hd.symm]

/-- MESH_START starts the routers of the die that may start, and changes no other core (R235). -/
theorem meshStart_starts (d : DieIdx) (s : State) {c : CoreIdx} (hd : dieOfCore c = d) :
    ∃ t, exec (.meshStart d) s = .next t ∧ { t with cores := s.cores } = s ∧
      t.core c = if (s.core c).router.run = true ∧ (s.core c).router.running = false ∧ (s.core c).mode ≠ .clearing ∧
          (s.core c).router.start.toNat ≤ s.dieTime d
        then { s.core c with router := { (s.core c).router with running := true, slots := 0, inputs := [] } } else s.core c := by
  subst hd
  refine ⟨_, rfl, rfl, (SMap.get_mapV _ _ _ _ ?unlisted).trans (if_congr ?begins rfl rfl)⟩
  case unlisted => simp
  case begins =>
    simp only [State.core, Bool.and_eq_true, beq_iff_eq, Bool.not_eq_true', bne_iff_ne, decide_eq_true_eq, and_assoc]
    exact and_iff_right rfl

/-- The core with a crossing queue, and with a crossing buffer, written. -/
def Core.setCrossQ (k : Core) (key : Nat) (q : List Flit) : Core :=
  { k with router := { k.router with crossQ := SMap.set [] k.router.crossQ key q } }
def Core.setCrossB (k : Core) (key : Nat) (b : List Flit) : Core :=
  { k with router := { k.router with crossB := SMap.set [] k.router.crossB key b } }

/-- CROSSING_FLIT_ARRIVE moves the head of the sender's queue into a buffer that has a place (R239). -/
theorem exec_crossingFlitArrive {c : CoreIdx} {p : Port} {vc : Fin 4} {n : Nat} {f : Flit} {rest : List Flit}
    (hn : neighbour c (portNo p) = some n) (hc : crossing c (portNo p) = true) (he : (s.core c).router.edge.getLsbD (portNo p) = false)
    (hq : SMap.get [] (s.core n).router.crossQ (4 * opposite (portNo p) + vc) = f :: rest)
    (hb : (SMap.get [] (s.core c).router.crossB (4 * portNo p + vc)).length < 8) :
    exec (.crossingFlitArrive c p vc) s =
      .next ((s.setCore n ((s.core n).setCrossQ (4 * opposite (portNo p) + vc) rest)).updCore c
        fun x => x.setCrossB (4 * portNo p + vc) (SMap.get [] (s.core c).router.crossB (4 * portNo p + vc) ++ [f])) := by
  show execCrossingFlitArrive c p vc s = _
  simp only [execCrossingFlitArrive, hn, hc, he, hq, hb, Bool.not_false, Bool.and_self, decide_true, if_true]
  rfl

end Routers

/-- Settles O30: the queues are written by one step of the instruction, the routers by one slot, one start and one crossing. -/
theorem mesh : Obligations.Mesh := by
  unfold Obligations.Mesh
  refine ⟨?instructions, fun c s s1 r hr hrun hrunning hready hout hnamed => meshRouterSlot_takes hr hrun hrunning hready hout hnamed,
    fun d s c r hd hr => hr ▸ meshStart_starts d s hd, fun c p vc s n f rest hn hc he hq hb => ?crossing⟩
  case instructions =>
    rintro g u s k m stream n rfl hm hp rfl
    refine ⟨?sendFlits, ?recvFlits, fun a len h13 ha hl ha64 hl64 hl0 hT => ⟨?sendTile, ?recvTile⟩, fun w hw hstream => ?wait⟩
    case sendFlits =>
      rintro h hn h13 rfl
      exact ⟨_, rfl, State.msend_flits rfl h hm hp hn h13⟩
    case recvFlits =>
      rintro h hn h13 rfl
      exact ⟨_, rfl, State.mrecv_flits rfl h hm hp hn h13⟩
    case sendTile => exact fun h hn hmin => ⟨_, rfl, State.msend_tile rfl h hm hp hn h13 ha hl ha64 hl64 hl0 hT hmin⟩
    case recvTile => exact fun h hn hmin => ⟨_, rfl, State.mrecv_tile rfl h hm hp hn h13 ha hl ha64 hl64 hl0 hT hmin⟩
    case wait =>
      rw [← hstream]
      refine ⟨_, exec_meshQueueWaitDone hw, s.onlyCore_setCore _ _, fun hsend htile hroom => ?_, fun hrecv htile hfull => ?_⟩
      · have hq := Core.sendMore_flits (k := s.core g.core) htile
        rw [if_pos hroom] at hq
        rw [State.router_meshGo, State.mesh_meshGo, Core.meshMore, if_pos hsend]
        exact hq
      · have hq := Core.recvMore_flits (k := s.core g.core) g.slot htile
        rw [if_pos hfull] at hq
        rw [State.router_meshGo, State.mesh_meshGo, Core.meshMore, if_neg (by rw [hrecv]; decide)]
        exact hq
  case crossing =>
    refine ⟨_, exec_crossingFlitArrive hn hc he hq hb, ?_, ?_⟩
    · rw [State.updCore_eq, State.core_setCore]
      split_ifs with hcn
      · subst hcn
        rw [State.core_setCore_self]
        exact SMap.get_set_self _ _ _ _
      · rw [State.core_setCore_self]
        exact SMap.get_set_self _ _ _ _
    · rw [State.updCore_eq, State.core_setCore_self]
      exact SMap.get_set_self _ _ _ _

end Sys2Proof.Machine

/-! Requests that hit at their home and change its line (R132, R134, R175, R176, R199, R214). -/

namespace Sys2Proof.Machine

section HomeHits

variable {s t : State} {r : Req} {id h key : Nat} {l : CLine}

/-! Frames of one half. -/

theorem State.onlyHalf_refl (s : State) (h : Nat) : s.onlyHalf s h := ⟨rfl, fun _ _ => rfl⟩

theorem State.onlyHalf_trans {x : State} (hs : x.onlyHalf s h) (ht : s.onlyHalf t h) : x.onlyHalf t h := by
  obtain ⟨h1, h2⟩ := hs
  obtain ⟨g1, g2⟩ := ht
  refine ⟨?_, fun k hk => (g2 k hk).trans (h2 k hk)⟩
  rw [← h1, ← g1]

/-- What the other parts of the state keep. -/
theorem State.onlyHalf_rest (ht : s.onlyHalf t h) :
    t.cores = s.cores ∧ t.store = s.store ∧ t.twin = s.twin ∧ t.fab.reqs = s.fab.reqs ∧ t.fab.ctrls = s.fab.ctrls := by
  obtain ⟨hrest, -⟩ := ht
  rw [← hrest]
  exact ⟨rfl, rfl, rfl, rfl, rfl⟩

@[simp] theorem Half.line_setLine_self (x : Half) (key : Nat) (l : CLine) : (x.setLine key l).line key = l := SMap.get_set_self _ _ _ _

@[simp] theorem State.line_putLine_self (s : State) (h key : Nat) (l : CLine) : ((s.putLine h key l).half h).line key = l := by
  rw [State.putLine, State.half_setHalf_self, Half.line_setLine_self]

/-- Half `h` differs, but not in its lines. -/
def State.keepsLines (s t : State) (h : Nat) : Prop := s.onlyHalf t h ∧ (t.half h).lines = (s.half h).lines

theorem State.keepsLines.refl (s : State) (h : Nat) : s.keepsLines s h := ⟨s.onlyHalf_refl h, rfl⟩

theorem State.keepsLines.trans {x : State} (hs : x.keepsLines s h) (ht : s.keepsLines t h) : x.keepsLines t h :=
  ⟨State.onlyHalf_trans hs.1 ht.1, ht.2.trans hs.2⟩

theorem State.keepsLines_setHalf {x : Half} (hx : x.lines = (s.half h).lines) : s.keepsLines (s.setHalf h x) h :=
  ⟨s.onlyHalf_setHalf h x, by rw [State.half_setHalf_self]; exact hx⟩

theorem State.keepsLines_cacheCount (s : State) (h p off n : Nat) : s.keepsLines (s.cacheCount h p off n) h := by
  unfold State.cacheCount
  dsimp only
  split
  · exact State.keepsLines.refl s h
  · exact State.keepsLines_setHalf rfl

theorem State.keepsLines_accepted (s : State) (h : Nat) (r : Req) (first : Bool) (off : Nat) : s.keepsLines (s.accepted h r first off) h := by
  unfold State.accepted
  dsimp only
  generalize hs1 : (if SMap.get none (s.half h).force (bankOf r.addr) = some r.id then
    s.setHalf h { s.half h with force := SMap.set none (s.half h).force (bankOf r.addr) none } else s) = s1
  have h1 : s.keepsLines s1 h := by
    rw [← hs1]
    split
    · exact State.keepsLines_setHalf rfl
    · exact State.keepsLines.refl s h
  have h2 := (h1.trans (s1.keepsLines_cacheCount h r.part 0x100 1)).trans (State.keepsLines_cacheCount _ h r.part off 1)
  split
  · exact h1
  · split
    · exact h2.trans (State.keepsLines_cacheCount _ h r.part 0x120 1)
    · exact h2

/-- A use of a line stamps it. -/
theorem State.touch_used (s : State) (h key : Nat) :
    s.onlyHalf (s.touch h key) h ∧ ∃ n, ((s.touch h key).half h).line key = { (s.half h).line key with used := n } :=
  ⟨s.onlyHalf_setHalf h _, _, by rw [State.touch, State.half_setHalf_self]; exact SMap.get_set_self _ _ _ _⟩

/-! A hit. -/

theorem State.id_of_req (hr : s.req id = some r) : r.id = id := by
  have := List.find?_some hr
  simpa using this

theorem State.homeHit_poison (hit : s.homeHit id r key l) : l.poison = 0 := by
  obtain ⟨-, -, -, -, -, -, -, -, hpoison, -⟩ := hit
  exact hpoison

/-- The home accepts a request that hits, stamps the line and performs the operation. -/
theorem State.homeServe_hit (hit : s.homeHit id r key l) :
    ∃ s1 n, s.homeServe id true = s1.perform (s.homeOf r.addr) key r ∧ s.onlyHalf s1 (s.homeOf r.addr) ∧
      (s1.half (s.homeOf r.addr)).line key = { l with used := n } := by
  obtain ⟨⟨hreq, -, -, -, -, hcheck, hdisc, hsync⟩, hstc, hldres, hway, rfl, hstate, hneeds, hsharers, -, hrep, -, -⟩ := hit
  have hacc := s.keepsLines_accepted (s.homeOf r.addr) r true 0x108
  obtain ⟨htouch, n, hn⟩ := (s.accepted (s.homeOf r.addr) r true 0x108).touch_used (s.homeOf r.addr) key
  refine ⟨_, n, ?_, State.onlyHalf_trans hacc.1 htouch, ?_⟩
  · have hserve : s.homeServe id true = s.serveHit (s.homeOf r.addr) key r true := by
      simp only [State.homeServe, hreq, hcheck, hdisc, hsync, hstc, hldres, hway, if_true, Bool.false_eq_true, if_false]
      rcases hstate with hc | hd
      · rw [hc]
      · rw [hd]
    rw [hserve]
    simp [State.serveHit, hneeds, hsharers, hrep]
  · rw [hn, Half.line, hacc.2]
    rfl

/-- Presenting a request of its kind that hits. -/
theorem State.present_hit {kind : Req → Bool} (hit : s.homeHit id r key l) (hk : kind r = true) :
    ∃ s1 n, s.present id kind = State.settle (s1.perform (s.homeOf r.addr) key r) ∧ s.onlyHalf s1 (s.homeOf r.addr) ∧
      (s1.half (s.homeOf r.addr)).line key = { l with used := n } := by
  obtain ⟨s1, n, hserve, hrest⟩ := State.homeServe_hit hit
  refine ⟨s1, n, ?_, hrest⟩
  obtain ⟨⟨hreq, hplace, hmod, htier, hturn, -⟩, -⟩ := hit
  have hat : s.atHome id kind = true := by
    simp [State.atHome, hreq, hplace, hmod, htier, hturn, hk]
  rw [State.present, if_pos hat, hserve]

/-! The end of a write: reservations of others end, and the request leaves (R176). -/

theorem State.group_dropResv (s : State) (p : Nat → Nat → Reservation → Bool) (c i : Nat) (hp : ∀ v, p c i v = false) :
    ((s.dropResv p).core c).group i = (s.core c).group i := by
  have hcore : (s.dropResv p).core c = { s.core c with groups := SMap.mapV {} (s.core c).groups fun j g =>
      match g.resv with
      | some v => if p c j v then { g with resv := none } else g
      | none => g } := SMap.get_mapV _ _ _ _ rfl
  rw [hcore]
  refine (SMap.get_mapV _ _ _ _ rfl).trans ?_
  simp only [hp]
  split <;> rfl

theorem State.gone_dropReq (s : State) (id : Nat) : (s.dropReq id).gone id := by
  intro x hx hid
  simp [State.dropReq, hid] at hx

/-- A write outside the mirror windows: memory and lines stand, the request is gone, and its own group keeps its registers. -/
theorem State.finishWrite_done {bytes : List (Nat × Byte)} (hw : s.winAt (lineOf r.addr) = none) (hm : r.agent ≠ .mirror) :
    (s.finishWrite r bytes).store = s.store ∧ (s.finishWrite r bytes).gone r.id ∧ (∀ k, (s.finishWrite r bytes).half k = s.half k) ∧
      ∀ c slot, r.agent = .vec c slot → ((s.finishWrite r bytes).core c).group slot = (s.core c).group slot := by
  unfold State.finishWrite
  dsimp only
  generalize hp : (fun (c i : Nat) (v : Reservation) => _ && r.op.offsets.any _) = p
  have hwin : (s.dropResv p).winAt (lineOf r.addr) = none := hw
  have hnot : (r.agent != .mirror) = true := by simpa using hm
  have hend : State.mirrorDone (s.dropResv p) r = s.dropResv p := by rw [State.mirrorDone, if_pos hnot]
  simp only [State.mirrorOut, if_neg hm, hwin, Bool.false_eq_true, if_false, hend]
  refine ⟨rfl, State.gone_dropReq _ _, fun _ => rfl, fun c slot ha => ?_⟩
  exact State.group_dropResv s p c slot fun v => by rw [← hp]; simp [ha]

/-- A request that hits and ends as a write: what it leaves is what its operation `x` left. -/
theorem State.present_hit_written {kind : Req → Bool} (hit : s.homeHit id r key l) (hk : kind r = true) :
    ∃ (s1 : State) (n : Nat), s1.cores = s.cores ∧ (s1.half (s.homeOf r.addr)).line key = { l with used := n } ∧
      ∀ (x : State) (bytes : List (Nat × Byte)), s1.perform (s.homeOf r.addr) key r = (x.finishWrite r bytes, []) → x.store = s1.store →
        x.twin = s1.twin →
        (s.present id kind).store = s.store ∧ (s.present id kind).gone id ∧ (∀ k, (s.present id kind).half k = x.half k) ∧
          ∀ c slot, r.agent = .vec c slot → ((s.present id kind).core c).group slot = (x.core c).group slot := by
  obtain ⟨s1, n, hpresent, honly, hline⟩ := State.present_hit hit hk
  obtain ⟨⟨hreq, -⟩, -, -, -, -, -, -, -, -, -, hwin, hmirror⟩ := hit
  obtain ⟨hcores, hstore, htwin, -, -⟩ := State.onlyHalf_rest honly
  refine ⟨s1, n, hcores, hline, fun x bytes hperf hst htw => ?_⟩
  have hw : x.winAt (lineOf r.addr) = none := by
    rw [State.winAt, htw, htwin]
    exact hwin
  obtain ⟨hfs, hfg, hfh, hfc⟩ := x.finishWrite_done (bytes := bytes) hw hmirror
  rw [State.id_of_req hreq] at hfg
  rw [hpresent, hperf]
  exact ⟨hfs.trans (hst.trans hstore), hfg, hfh, hfc⟩

/-! The operations on a line without poison. -/

section Operations

variable (hpoison : ((s.half h).line key).poison = 0)

include hpoison

theorem State.perform_write {bytes : List (Nat × Byte)} (hop : r.op = .write bytes) :
    s.perform h key r = ((s.putLine h key (((s.half h).line key).store r bytes)).finishWrite r bytes, []) := by
  simp [State.perform, hop, hpoison]

theorem State.perform_atomic {cas : Bool} {aop size d c slot : Nat} {lanes : List (Nat × Nat × DWord × DWord)}
    (hop : r.op = .atomic cas aop size d lanes) (ha : r.agent = .vec c slot) :
    let res := atomicInto ((s.half h).line key) cas aop size lanes
    s.perform h key r = (((s.putLine h key (((s.half h).line key).store r (res.1.pick r.op.offsets))).updGroup c slot fun g =>
      res.2.foldl (fun (g : Group) e => g.putElem e.1 d size false e.2) g).finishWrite r (res.1.pick r.op.offsets), []) := by
  simp [State.perform, hop, ha, hpoison]

theorem State.perform_reduce {op : RedOp} {type : RedType} {elems : List (Nat × Word)} (hop : r.op = .reduce op type elems) :
    ∃ bytes, s.perform h key r = ((s.putLine h key { ((s.half h).line key).store r
      ((redInto ((s.half h).line key) op type elems).pick r.op.offsets) with poison := 0 }).finishWrite r bytes, []) := by
  refine ⟨(redInto ((s.half h).line key) op type elems).pick (if (s.winAt r.addr).isSome then
    (sectorList (sectorsOf r.op.offsets)).flatMap fun k => (List.range 32).map (32 * k + ·) else r.op.offsets), ?_⟩
  simp [State.perform, hop, hpoison]

theorem State.perform_stcond {size off p c slot : Nat} {value : DWord} (hop : r.op = .stcond size off p value) (ha : r.agent = .vec c slot) :
    let bytes := (leBytes (2 ^ size) value.toNat).zipIdx.map fun e => (off + e.2, e.1)
    s.perform h key r = (((s.putLine h key (((s.half h).line key).store r bytes)).updGroup c slot fun g =>
      { g.setP p r.site.active (BitVec.allOnes 64) with resv := none }).finishWrite r bytes, []) := by
  simp [State.perform, hop, ha, hpoison, sizeBytes]

end Operations

theorem State.perform_range {op : RangeOp} (hop : r.op = .range op) : s.perform h key r = (s.rangeAct h key r op, []) := by
  simp [State.perform, hop, ReqOp.consumes]

/-- The time of last use has no part in an atomic, nor in a reduction. -/
theorem atomicInto_used (l : CLine) (n : Nat) (cas : Bool) (aop size : Nat) (lanes : List (Nat × Nat × DWord × DWord)) :
    atomicInto { l with used := n } cas aop size lanes =
      ({ (atomicInto l cas aop size lanes).1 with used := n }, (atomicInto l cas aop size lanes).2) := by
  unfold atomicInto
  refine List.foldl_hom (init := (l, [])) (fun acc : CLine × List (Nat × Nat) => ({ acc.1 with used := n }, acc.2)) ?_
  exact fun _ _ => rfl

theorem redInto_used (l : CLine) (n : Nat) (op : RedOp) (type : RedType) (elems : List (Nat × Word)) :
    redInto { l with used := n } op type elems = { redInto l op type elems with used := n } := by
  unfold redInto
  refine List.foldl_hom (init := l) (fun l : CLine => { l with used := n }) ?_
  exact fun _ _ => rfl

theorem State.group_updGroup {c slot : Nat} {f : Group → Group} (ho : ((s.core c).group slot).occupied = true) :
    ((s.updGroup c slot f).core c).group slot = f ((s.core c).group slot) := by
  rw [State.updGroup, State.updCore_eq, State.core_setCore_self, if_pos ho, Core.group_setGroup_self]

/-! Line operations (R214). -/

theorem State.ctrlOf_of_store (hs : t.store = s.store) (a : Nat) : t.ctrlOf a = s.ctrlOf a := by
  unfold State.ctrlOf State.spot State.regionAt
  rw [hs]

theorem State.homeOf_of_store (hs : t.store = s.store) (a : Nat) : t.homeOf a = s.homeOf a := by
  unfold State.homeOf State.spot State.regionAt
  rw [hs]

/-- Operations have been handed to the controller of an address; memory stands. -/
def State.hands (s t : State) (a : Nat) (ops : List MemOp) : Prop :=
  t.store = s.store ∧ (t.ctrl (s.ctrlOf a)).queue = (s.ctrl (s.ctrlOf a)).queue ++ ops

theorem State.hands.trans {x : State} {a : Nat} {ops ops' : List MemOp} (hs : x.hands s a ops) (ht : s.hands t a ops') :
    x.hands t a (ops ++ ops') := by
  obtain ⟨h1, h2⟩ := hs
  obtain ⟨g1, g2⟩ := ht
  refine ⟨g1.trans h1, ?_⟩
  rw [State.ctrlOf_of_store h1] at g2
  rw [g2, h2, List.append_assoc]

theorem State.hands_of_ctrls {a : Nat} (hs : t.store = s.store) (hc : t.fab.ctrls = s.fab.ctrls) : s.hands t a [] :=
  ⟨hs, by rw [List.append_nil, State.ctrl, hc]; rfl⟩

theorem State.hands_pushMem (s : State) (a : Nat) (op : MemOp) : s.hands (s.pushMem a op) a [op] :=
  ⟨rfl, by rw [State.pushMem, State.ctrl_setCtrl_self]⟩

theorem State.hands_onlyHalf {a : Nat} (ht : s.onlyHalf t h) : s.hands t a [] := by
  obtain ⟨-, hstore, -, -, hctrls⟩ := State.onlyHalf_rest ht
  exact State.hands_of_ctrls hstore hctrls

/-- A list of operations, each counted in a half. -/
theorem State.hands_fold (a p off : Nat) (op : Nat → MemOp) (ks : List Nat) (s : State) :
    s.hands (ks.foldl (fun s k => (s.pushMem a (op k)).cacheCount h p off 1) s) a (ks.map op) := by
  induction ks generalizing s with
  | nil => exact State.hands_of_ctrls rfl rfl
  | cons k ks ih =>
    have hcount := State.hands_onlyHalf (a := a) ((s.pushMem a (op k)).keepsLines_cacheCount h p off 1).1
    exact ((s.hands_pushMem a (op k)).trans hcount).trans (ih _)

/-- The dirty sectors of a line that are not poisoned go to its controller (R199). -/
theorem State.writeDirty_clean (hl : (s.half h).line key = l) (hpoison : l.poison = 0) :
    s.hands (s.writeDirty h key) l.addr ((sectorList l.dirty).map fun k => .write (l.addr + 32 * k) (l.bytes (32 * k) 32) false) ∧
      ((s.writeDirty h key).half h).line key = { l with dirty := 0 } := by
  subst hl
  unfold State.writeDirty
  dsimp only
  generalize hx : (sectorList ((s.half h).line key).dirty).foldl _ s = x
  have hfold : s.hands x _ _ := hx ▸ State.hands_fold (h := h) _ _ 0x148 (fun k => .write (((s.half h).line key).addr + 32 * k)
    (((s.half h).line key).bytes (32 * k) 32) (((s.half h).line key).poison.getLsbD k)) _ s
  have hset := hfold.trans (State.hands_onlyHalf (x.onlyHalf_setHalf h ((x.half h).setLine key { (s.half h).line key with dirty := 0 })))
  rw [List.append_nil] at hset
  refine ⟨?_, ?_⟩
  · simpa [hpoison] using hset
  · rw [State.half_setHalf_self, Half.line_setLine_self]

theorem State.hands_putLine (s : State) (h key : Nat) (l : CLine) (a : Nat) : s.hands (s.putLine h key l) a [] :=
  State.hands_onlyHalf (s.onlyHalf_setHalf h _)

/-- A way without a second one is emptied alone. -/
theorem State.emptyWay_single (hl : ((s.half h).line key).pair = none) : s.emptyWay h key = s.putLine h key {} := by
  simp only [State.emptyWay, hl]
  rfl

/-- A line at rest leaves its way: its dirty sectors go to its controller, and the way is empty. -/
theorem State.evictNow_rested (hl : (s.half h).line key = l) (hstate : l.state = .clean ∨ l.state = .dirty) (hpoison : l.poison = 0)
    (hpair : l.pair = none) :
    s.hands (s.evictNow h key) l.addr ((sectorList l.dirty).map fun k => .write (l.addr + 32 * k) (l.bytes (32 * k) 32) false) ∧
      ((s.evictNow h key).half h).line key = {} := by
  have hends : s.hands (s.removalEndsResv l.addr) l.addr [] := State.hands_of_ctrls rfl rfl
  obtain ⟨hhands, hline⟩ := State.writeDirty_clean (s := s.removalEndsResv l.addr) hl hpoison
  have hevict : s.evictNow h key = ((s.removalEndsResv l.addr).writeDirty h key).putLine h key {} := by
    unfold State.evictNow
    rw [hl, ← State.emptyWay_single (by rw [hline]; exact hpair)]
    rcases hstate with hc | hd
    · simp only [hc]
    · simp only [hd]
  rw [hevict, State.line_putLine_self]
  have hall := (hends.trans hhands).trans (State.hands_putLine _ h key {} l.addr)
  rw [List.append_nil] at hall
  exact ⟨hall, rfl⟩

/-- A replica that waits for the line is no line of its home half. -/
theorem State.sendReplica_home (s : State) (r : Req) (l : CLine) :
    (s.sendReplica r l).store = s.store ∧ (s.sendReplica r l).half (s.homeOf r.addr) = s.half (s.homeOf r.addr) := by
  unfold State.sendReplica
  split
  · next h k hf =>
    refine ⟨rfl, ?_⟩
    rw [State.half_setHalf, if_neg]
    unfold State.fillingReplica at hf
    dsimp only at hf
    split at hf
    · split at hf
      · next hc =>
        cases hf
        rw [Bool.and_eq_true, bne_iff_ne] at hc
        exact hc.2
      · cases hf
    · cases hf
  · exact ⟨rfl, rfl⟩

/-- The state that a line operation leaves the line in (R214). -/
def RangeOp.leaves (op : RangeOp) (old : LState) : LState :=
  match op with
  | .prefetch => old
  | .flush => .clean
  | .invalidate => .invalid
  | .discard => .dead

/-- A line operation on a line at rest. -/
theorem State.rangeAct_rested (op : RangeOp) (hh : h = s.homeOf r.addr) (hl : (s.half h).line key = l)
    (hstate : l.state = .clean ∨ l.state = .dirty) (hpoison : l.poison = 0) (hpair : l.pair = none) :
    (s.rangeAct h key r op).store = s.store ∧ (s.rangeAct h key r op).gone r.id ∧
      (((s.rangeAct h key r op).half h).line key).state = op.leaves l.state ∧
      (op = .flush ∨ op = .invalidate → s.hands (s.rangeAct h key r op) l.addr
        ((sectorList l.dirty).map fun k => .write (l.addr + 32 * k) (l.bytes (32 * k) 32) false)) := by
  have hdrop (x : State) : x.hands (x.dropReq r.id) l.addr [] := State.hands_of_ctrls rfl rfl
  cases op with
  | prefetch =>
    obtain ⟨hst, hhalf⟩ := s.sendReplica_home r ((s.half h).line key)
    refine ⟨hst, State.gone_dropReq _ _, ?_, by simp⟩
    subst hh
    show (((s.sendReplica r _).half _).line key).state = l.state
    rw [hhalf, hl]
  | flush =>
    obtain ⟨hhands, -⟩ := State.writeDirty_clean hl hpoison
    have hall := (hhands.trans (State.hands_putLine _ h key { ((s.writeDirty h key).half h).line key with state := .clean } l.addr)).trans (hdrop _)
    rw [List.append_nil, List.append_nil] at hall
    refine ⟨hhands.1, State.gone_dropReq _ _, ?_, fun _ => hall⟩
    exact congrArg CLine.state (State.line_putLine_self _ h key _)
  | invalidate =>
    obtain ⟨hhands, hline⟩ := State.evictNow_rested hl hstate hpoison hpair
    have hall := hhands.trans (hdrop _)
    rw [List.append_nil] at hall
    exact ⟨hhands.1, State.gone_dropReq _ _, congrArg CLine.state hline, fun _ => hall⟩
  | discard =>
    refine ⟨rfl, State.gone_dropReq _ _, ?_, by simp⟩
    exact congrArg CLine.state (State.line_putLine_self _ h key _)

end HomeHits

/-- Settles O36: a hit stamps its line, writes it, and ends as a write; the line operations end with the request alone. -/
theorem homeWrites : Obligations.HomeWrites := by
  unfold Obligations.HomeWrites
  rintro s id r key l h rfl hit
  have hpoison := State.homeHit_poison hit
  refine ⟨fun bytes hop htype => ?write, fun cas aop size d c slot lanes hop ha ho => ?atomic, fun op type elems hop => ?reduce,
    fun size off p c slot value hop ha ho => ?stcond, fun op hop halign haddr hpair => ?range⟩
  case write =>
    obtain ⟨s1, n, hcores, hline, hend⟩ := State.present_hit_written (kind := fun r => r.isWrite && r.type != .device) hit
      (by simp [Req.isWrite, hop, htype])
    obtain ⟨hst, hgone, hhalf, -⟩ := hend _ bytes (State.perform_write (by rw [hline]; exact hpoison) hop) rfl rfl
    exact ⟨_, rfl, hst, hgone, n, by rw [hhalf, State.line_putLine_self, hline]⟩
  case atomic =>
    obtain ⟨s1, n, hcores, hline, hend⟩ := State.present_hit_written (kind := Req.isAtomic) hit (by simp [Req.isAtomic, hop])
    obtain ⟨hst, hgone, hhalf, hgrp⟩ := hend _ _ (State.perform_atomic (by rw [hline]; exact hpoison) hop ha) rfl rfl
    have hcore := State.core_of_cores hcores c
    rw [hline, atomicInto_used] at hhalf hgrp
    refine ⟨_, rfl, hst, hgone, ⟨n, ?_⟩, ?_⟩
    · rw [hhalf]
      exact State.line_putLine_self s1 _ key _
    · rw [hgrp c slot ha, State.group_updGroup]
      · exact congrArg (fun g : Group => (atomicInto l cas aop size lanes).2.foldl (fun (g : Group) e => g.putElem e.1 d size false e.2) g)
          (congrArg (Core.group · slot) hcore)
      · exact (congrArg (fun k : Core => (k.group slot).occupied) hcore).trans ho
  case reduce =>
    obtain ⟨s1, n, hcores, hline, hend⟩ := State.present_hit_written (kind := Req.isReduce) hit (by simp [Req.isReduce, hop])
    obtain ⟨bytes, hperf⟩ := State.perform_reduce (s := s1) (by rw [hline]; exact hpoison) hop
    obtain ⟨hst, hgone, hhalf, -⟩ := hend _ bytes hperf rfl rfl
    refine ⟨_, rfl, hst, hgone, n, ?_⟩
    rw [hhalf, State.line_putLine_self, hline, redInto_used]
    rfl
  case stcond =>
    obtain ⟨s1, n, hcores, hline, hend⟩ := State.present_hit_written (kind := Req.isStcond) hit (by simp [Req.isStcond, hop])
    obtain ⟨hst, hgone, hhalf, hgrp⟩ := hend _ _ (State.perform_stcond (by rw [hline]; exact hpoison) hop ha) rfl rfl
    have hcore := State.core_of_cores hcores c
    refine ⟨_, rfl, hst, hgone, ⟨n, ?_⟩, ?_⟩
    · rw [hhalf, ← hline]
      exact State.line_putLine_self s1 _ key _
    · rw [hgrp c slot ha, State.group_updGroup]
      · exact congrArg (fun g : Group => { g.setP p r.site.active (BitVec.allOnes 64) with resv := none })
          (congrArg (Core.group · slot) hcore)
      · exact (congrArg (fun k : Core => (k.group slot).occupied) hcore).trans ho
  case range =>
    obtain ⟨s1, n, hpresent, honly, hline⟩ := State.present_hit (kind := Req.isRange) hit (by simp [Req.isRange, hop])
    obtain ⟨⟨hreq, -⟩, -, -, -, -, hstate, -⟩ := hit
    obtain ⟨-, hstore, -, -, -⟩ := State.onlyHalf_rest honly
    obtain ⟨hst, hgone, hstate', hhands⟩ := State.rangeAct_rested (r := r) op (State.homeOf_of_store hstore r.addr).symm hline hstate hpoison hpair
    rw [State.id_of_req hreq] at hgone
    have hexec : s.present id Req.isRange = s1.rangeAct (s.homeOf r.addr) key r op := by
      rw [hpresent, State.perform_range hop]
      rfl
    refine ⟨_, congrArg Host.Outcome.next hexec, hst.trans hstore, hgone, hstate', fun hfi => ?_⟩
    have hq := ((State.hands_onlyHalf honly).trans (hhands hfi)).2
    simp only [List.nil_append, haddr] at hq
    exact hq

end Sys2Proof.Machine

/-! Kernel images and stored graphs: registration, storing, patching and release (R142 to R150, R357, R397 to R400). -/

namespace Sys2Proof.Machine

section Checks

/-! The checks of an accepted command (R349), when nothing fails. -/

theorem firstBad_eq_none {bad : List (Bool × Nat)} (h : ∀ e ∈ bad, e.1 = false) : firstBad bad = none := by
  have step : ∀ l : List (Bool × Nat), (∀ e ∈ l, e.1 = false) →
      l.foldl (fun best e => if e.1 then (match best with | some b => some (Nat.min b e.2) | none => some e.2) else best) none = none := by
    intro l hl
    induction l with
    | nil => rfl
    | cons e l ih =>
      rw [List.foldl_cons, hl e (by simp)]
      exact ih fun y hy => hl y (List.mem_cons_of_mem _ hy)
  exact step bad h

theorem Cmd.check_passes {c : Cmd} {len : Nat} {bad rules : List (Bool × Nat)} {ok : Reply} (hl : c.payload.length = len)
    (hb : ∀ e ∈ bad, e.1 = false) (hr : ∀ e ∈ rules, e.1 = false) : c.check len bad rules ok = ok := by
  have hf : rules.find? (·.1) = none := List.find?_eq_none.2 fun e he => by simp [hr e he]
  simp only [Cmd.check, hl, firstBad_eq_none hb, hf, ne_eq, not_true_eq_false, if_false]

/-- A command in progress that passes checks 5 and 6 is answered with SUCCESS over its effect. -/
theorem State.answered_of_passes {s u : State} {c : Cmd} {opcode len : Nat} {zero : List (Nat × Nat)} {f : Cmd → Reply}
    {args rules : List (Bool × Nat)} (h : s.doing c opcode len zero) (hf : f c = c.check len (args ++ c.reserved zero) rules (.ok [] u))
    (ha : ∀ e ∈ args, e.1 = false) (hr : ∀ e ∈ rules, e.1 = false) : u.answered (s.run opcode f) c 0 [] := by
  obtain ⟨hcur, hdiscard, hop, hlen, hzero⟩ := id h
  have hb : ∀ e ∈ args ++ c.reserved zero, e.1 = false := fun e he => (List.mem_append.1 he).elim (ha e) (hzero e)
  rw [s.run_doing h, hf, Cmd.check_passes hlen hb hr]
  exact u.answered_respond c stSuccess [] hdiscard

theorem State.noCtx_eq_false {s : State} {c : Cmd} {id : Nat} {x : Ctx} (hx : s.ctxById id = some x) (hf : s.foreignTo c x.partition = false) :
    s.noCtx c id = false := by simp only [State.noCtx, hx, hf]

theorem State.noGraph_eq_false {s : State} {c : Cmd} {n : Nat} {g : Graph} (hg : s.graph n = some g) (hr : g.released = false)
    (hf : s.foreignTo c g.part = false) : s.noGraph c n = false := by simp only [State.noGraph, hg, hr, hf, Bool.or_self]

/-- No operation locks a kernel: the asynchronous commands name none. -/
theorem Cmd.kernel_notMem_names (c : Cmd) (h : Nat) : Obj.kernel h ∉ c.names := by
  unfold Cmd.names
  split_ifs <;> simp

theorem State.locked_kernel (s : State) (h : Nat) : s.locked (.kernel h) = false := by
  simp [State.locked, Cmd.kernel_notMem_names]

end Checks

section Operations

/-! The end of an operation (R343), and what its OP_DONE event leaves alone. -/

variable {s t u : State} {o : Op}

theorem State.opDone_raised (ho : o ∈ s.valac.ops) (status : Nat) (cancelled : Bool) (result : List Byte) :
    (s.withoutOp o.id).raised (s.opDone o.id status cancelled result) := by
  unfold State.opDone State.op
  split
  case h_1 hnone => exact absurd (List.find?_eq_none.1 hnone o ho) (by simp)
  case h_2 => exact State.raised_mbxEvent _ _ _ _

theorem State.raised_work (h : u.raised t) : t.work = u.work := (congrArg State.work h.2 :)
theorem State.raised_cores (h : u.raised t) : t.cores = u.cores := (congrArg State.cores h.2 :)
theorem State.raised_store (h : u.raised t) : t.store = u.store := (congrArg State.store h.2 :)
theorem State.raised_ops (h : u.raised t) : t.valac.ops = u.valac.ops := (congrArg Valac.ops h.1 :)

theorem State.ended_of_raised {id : Nat} (h : (u.withoutOp id).raised t) : t.ended id := by
  intro y hy
  rw [State.raised_ops h] at hy
  simpa using (List.mem_filter.1 hy).2

/-- An operation whose effect is in the tables `u.work` ends, and the cores and the memory stay. -/
theorem State.opDone_ends (ho : o ∈ u.valac.ops) (status : Nat) (cancelled : Bool) (result : List Byte) :
    (u.opDone o.id status cancelled result).ended o.id ∧ (u.opDone o.id status cancelled result).cores = u.cores ∧
      (u.opDone o.id status cancelled result).store = u.store ∧ (u.opDone o.id status cancelled result).work = u.work :=
  have h := State.opDone_raised ho status cancelled result
  ⟨State.ended_of_raised h, (State.raised_cores h :), (State.raised_store h :), (State.raised_work h :)⟩

end Operations

section Tables

/-! The new entry of the tables. -/

variable {s t u : State}

/-- `s` with `k` under the next handle. -/
def State.addKernel (s : State) (k : Kernel) : State :=
  { s.setKernel s.work.nextHandle (some k) with
    work := { (s.setKernel s.work.nextHandle (some k)).work with nextHandle := s.work.nextHandle + 1 } }

/-- `s` with `g` under the next number. -/
def State.addGraph (s : State) (g : Graph) : State :=
  { s.setGraph s.work.nextGraph (some g) with
    work := { (s.setGraph s.work.nextGraph (some g)).work with nextGraph := s.work.nextGraph + 1 } }

theorem State.kernel_addKernel (k : Kernel) (h : Nat) :
    (s.addKernel k).kernel h = if h = s.work.nextHandle then some k else s.kernel h := by
  calc (s.addKernel k).kernel h = if s.work.nextHandle = h then some k else s.kernel h := s.kernel_setKernel s.work.nextHandle (some k) h
    _ = if h = s.work.nextHandle then some k else s.kernel h := by simp only [eq_comm]

theorem State.graph_addGraph (g : Graph) : (s.addGraph g).graph s.work.nextGraph = some g :=
  s.graph_setGraph_self s.work.nextGraph (some g)

theorem State.kernel_eq_of_work (h : t.work = u.work) (i : Nat) : t.kernel i = u.kernel i :=
  congrArg (fun w : Work => SMap.get none w.kernels i) h

theorem State.graph_eq_of_work (h : t.work = u.work) (i : Nat) : t.graph i = u.graph i :=
  congrArg (fun w : Work => SMap.get none w.graphs i) h

end Tables

section Images

/-! Ends of KERNEL_REGISTER, GRAPH_STORE and GRAPH_PATCH. -/

variable {s : State} {o : Op}

/-- A registration whose image lies at `a` ends with the status of its verification, and a verified image takes the next handle. -/
theorem execKernelRegisterComplete_range {x : Ctx} {a : Nat} {p : ImagePlace} (ho : s.opOf 0x0400 = some o)
    (hx : s.ctxById (o.cmd.arg 0 2) = some x) (ha : s.imagePlace o.cmd x.partition p = .range a) :
    execKernelRegisterComplete p s = .next
      (if imageStatus (s.physBytes a (o.cmd.arg 0x10 4)) (o.cmd.arg 0x10 4) ≠ 0 then
        s.opDone o.id (imageStatus (s.physBytes a (o.cmd.arg 0x10 4)) (o.cmd.arg 0x10 4)) false []
      else
        (s.addKernel (kernelOf (s.physBytes a (o.cmd.arg 0x10 4)) x.partition (o.cmd.arg 0 2) a)).opDone o.id stSuccess false
          (leBytes 4 s.work.nextHandle)) := by
  simp only [execKernelRegisterComplete, ho, hx, ha]
  rfl

/-- Fewer stored nodes leave a sound node list sound. -/
theorem State.graphStatus_mono {p m n : Nat} {ds : List (List Byte)} (hmn : m ≤ n) (h : s.graphStatus p ds n = 0) : s.graphStatus p ds m = 0 := by
  unfold State.graphStatus at h ⊢
  dsimp only at h ⊢
  split_ifs at h with hbad hfull
  · exact absurd h (by decide)
  · exact absurd h (by decide)
  · simp only [Bool.or_eq_true, decide_eq_true_eq, not_or, not_lt] at hfull
    obtain ⟨htransits, hnodes⟩ := hfull
    rw [if_neg hbad, if_neg]
    · rfl
    · simp only [Bool.or_eq_true, decide_eq_true_eq, not_or, not_lt]
      exact ⟨htransits, by omega⟩

/-- Nodes `old` with those that the patch entries `es` name replaced; the last entry of a node counts. -/
def patchedNodes (old : List (List Byte)) (es : List (Nat × List Byte)) : List (List Byte) :=
  old.zipIdx.map fun e => match es.reverse.find? fun y => y.1 == e.2 with | some y => y.2 | none => e.1

theorem State.patchGraph_sound {b : List Byte} {g : Graph} {es : List (Nat × List Byte)} {old : GraphVersion} (hg : s.graph o.arg = some g)
    (hp : patchImage b = some es) (hold : (g.versions.find? fun v => v.version == g.newest) = some old) (hin : ∀ e ∈ es, e.1 < old.nodes.length)
    (hst : s.graphStatus g.part (patchedNodes old.nodes es) s.nodeCount = 0) (hk : g.kept.length < 8) :
    s.patchGraph o b = (s.setGraph o.arg (some { g with
      newest := g.newest + 1, versions := g.kept ++ [newVersion (g.newest + 1) (patchedNodes old.nodes es)] })).opDone o.id stSuccess false
        (leBytes 4 0 ++ leBytes 4 (g.newest + 1)) := by
  have hout : (es.any fun e => decide (old.nodes.length ≤ e.1)) = false := by simpa using hin
  have hroom : ¬ 8 ≤ g.kept.length := by omega
  simp only [State.patchGraph, hg, hp, hold, hout, stSuccess, hroom, Bool.false_eq_true, if_false, decide_false, Bool.and_false, ne_eq]
  exact if_neg (not_not.2 (State.graphStatus_mono (Nat.sub_le s.nodeCount _) hst))

theorem State.storeGraph_sound {b : List Byte} {ds : List (List Byte)} {x : Ctx} (hx : s.ctxById (o.cmd.arg 0 2) = some x)
    (hi : graphImage b = some ds) (hst : s.graphStatus x.partition ds s.nodeCount = 0) (hroom : s.graphCount < 1024) :
    s.storeGraph o b = (s.addGraph
      { part := x.partition, ctx := o.cmd.arg 0 2, newest := 1, versions := [newVersion 1 ds], released := false }).opDone o.id stSuccess false
        (leBytes 4 s.work.nextGraph ++ leBytes 4 1) := by
  have hfull : ¬ 1024 ≤ s.graphCount := by omega
  simp only [State.storeGraph, hx, hi, hst, hfull, stSuccess, decide_true, decide_false, Bool.and_false, Bool.false_eq_true, if_false, ne_eq,
    not_true_eq_false]
  rfl

/-- The image of a GRAPH_STORE was read whole. -/
theorem execGraphCheckComplete_store {image : ReadResult} {b : List Byte} {x : Ctx}
    (ho : (s.valac.ops.find? fun y => y.cmd.opcode == 0x0410 || y.cmd.opcode == 0x0411) = some o) (hop : o.cmd.opcode = 0x0410)
    (hx : s.ctxById (o.cmd.arg 0 2) = some x)
    (hb : s.valacRead (o.cmd.arg 0 2) x.partition (o.cmd.arg 8 8) (o.cmd.arg 0x10 4) image = .data b) (hl : b.length = o.cmd.arg 0x10 4) :
    execGraphCheckComplete image s = .next (s.storeGraph o b) := by
  simp only [execGraphCheckComplete, ho, hop, if_true, hx, hb, hl, ne_eq, not_true_eq_false, if_false]

/-- The image of a GRAPH_PATCH was read whole. -/
theorem execGraphCheckComplete_patch {image : ReadResult} {b : List Byte} {g : Graph} {x : Ctx}
    (ho : (s.valac.ops.find? fun y => y.cmd.opcode == 0x0410 || y.cmd.opcode == 0x0411) = some o) (hop : o.cmd.opcode = 0x0411)
    (hg : s.graph o.arg = some g) (hx : s.ctxById g.ctx = some x)
    (hb : s.valacRead g.ctx x.partition (o.cmd.arg 8 8) (o.cmd.arg 0x10 4) image = .data b) (hl : b.length = o.cmd.arg 0x10 4) :
    execGraphCheckComplete image s = .next (s.patchGraph o b) := by
  have hne : o.cmd.opcode ≠ 0x0410 := by omega
  simp only [execGraphCheckComplete, ho, hne, if_false, hg, hx, hb, hl, ne_eq, not_true_eq_false]

end Images

section Commands

/-! The commands that are answered (R357): what passes their checks. -/

variable {s : State} {c : Cmd}

theorem kernelRegister_answered {x : Ctx} (hx : s.ctxById (c.arg 0 2) = some x) (hf : s.foreignTo c x.partition = false)
    (hl : s.locked (.ctx (c.arg 0 2)) = false) (ho : s.opsFull c = false) (hd : s.doing c 0x0400 24 [(3, 5), (0x14, 4)])
    (hp : c.arg 2 1 ≤ 1) (hr : c.arg 2 1 = 0 → c.role ≠ 1) (hva : c.arg 8 8 % 256 = 0) (hn : c.arg 0x10 4 % 256 = 0) (h0 : c.arg 0x10 4 ≠ 0)
    (hmax : c.arg 0x10 4 ≤ 2 ^ 26) : ∃ t, exec .kernelRegister s = .next t ∧ (s.startOp c 0).answered t c 0 [] := by
  refine ⟨_, rfl, State.answered_of_passes hd rfl ?_ ?_⟩
  · have hctx := State.noCtx_eq_false hx hf
    have hmax' : c.arg 0x10 4 ≤ 67108864 := hmax
    simp [hctx, hva, hn, h0, hp, hmax']
  · simpa [hl, ho] using hr

theorem graphStore_answered {x : Ctx} (hx : s.ctxById (c.arg 0 2) = some x) (hf : s.foreignTo c x.partition = false)
    (hl : s.locked (.ctx (c.arg 0 2)) = false) (ho : s.opsFull c = false) (hd : s.doing c 0x0410 24 [(2, 6), (0x14, 4)])
    (hn : 64 ≤ c.arg 0x10 4) (hroom : s.graphCount < 1024) : ∃ t, exec .graphStore s = .next t ∧ (s.startOp c 0).answered t c 0 [] := by
  refine ⟨_, rfl, State.answered_of_passes hd rfl ?_ ?_⟩
  · have hctx := State.noCtx_eq_false hx hf
    simp [hctx, hn]
  · simp [hl, ho, hroom]

theorem kernelRelease_answered {k : Kernel} (hd : s.doing c 0x0401 4 []) (hk : s.kernel (c.arg 0 4) = some k)
    (hf : s.foreignTo c k.part = false) (hu : s.kernelUsed (c.arg 0 4) = false) :
    ∃ t, exec .kernelRelease s = .next t ∧ (s.setKernel (c.arg 0 4) none).answered t c 0 [] := by
  refine ⟨_, rfl, State.answered_of_passes (args := [(false, 0)])
    (rules := [(s.kernelUsed (c.arg 0 4) || s.locked (.kernel (c.arg 0 4)), stBusy)]) hd ?_ ?_ ?_⟩
  · simp only [hk, hf]
    rfl
  · simp
  · simp [hu, State.locked_kernel]

theorem graphPatch_answered {g : Graph} (hg : s.graph (c.arg 0 4) = some g) (hr : g.released = false) (hf : s.foreignTo c g.part = false)
    (hl : s.locked (.graph (c.arg 0 4)) = false) (hd : s.doing c 0x0411 24 [(4, 4), (0x14, 4)]) (hn : 64 ≤ c.arg 0x10 4)
    (ho : s.opsFull c = false) (hk : g.kept.length < 8) : ∃ t, exec .graphPatch s = .next t ∧ (s.startOp c (c.arg 0 4)).answered t c 0 [] := by
  refine ⟨_, rfl, State.answered_of_passes hd rfl ?_ ?_⟩
  · have hgraph := State.noGraph_eq_false hg hr hf
    simp [hgraph, hn]
  · simp [hl, ho, hg, hk]

theorem graphRelease_answered {g : Graph} (hg : s.graph (c.arg 0 4) = some g) (hr : g.released = false) (hf : s.foreignTo c g.part = false)
    (hl : s.locked (.graph (c.arg 0 4)) = false) (hd : s.doing c 0x0412 4 []) :
    ∃ t, exec .graphRelease s = .next t ∧ (s.setGraph (c.arg 0 4)
      (if g.kept = [] then none else some { g with released := true, versions := g.kept })).answered t c 0 [] := by
  refine ⟨_, rfl, State.answered_of_passes (args := [(s.noGraph c (c.arg 0 4), 0)]) (rules := [(s.locked (.graph (c.arg 0 4)), stBusy)])
    hd ?_ ?_ ?_⟩
  · simp only [hg, List.isEmpty_iff]
    rfl
  · simp [State.noGraph_eq_false hg hr hf]
  · simp [hl]

end Commands

section Completions

/-! The operations that end: what their state holds then. -/

variable {s : State} {o : Op}

theorem kernelRegisterComplete_verified {x : Ctx} {a : Nat} {p : ImagePlace} (ho : s.opOf 0x0400 = some o)
    (hx : s.ctxById (o.cmd.arg 0 2) = some x) (ha : s.imagePlace o.cmd x.partition p = .range a)
    (hst : imageStatus (s.physBytes a (o.cmd.arg 0x10 4)) (o.cmd.arg 0x10 4) = 0) :
    ∃ t, exec (.kernelRegisterComplete p) s = .next t ∧ t.ended o.id ∧ t.cores = s.cores ∧ t.store = s.store ∧
      t.work.nextHandle = s.work.nextHandle + 1 ∧
      ∀ h, t.kernel h = if h = s.work.nextHandle then some (kernelOf (s.physBytes a (o.cmd.arg 0x10 4)) x.partition (o.cmd.arg 0 2) a)
        else s.kernel h := by
  refine ⟨_, (execKernelRegisterComplete_range ho hx ha).trans (by rw [if_neg (not_not.2 hst)]), ?_⟩
  obtain ⟨hended, hcores, hstore, hwork⟩ := State.opDone_ends
    (u := s.addKernel (kernelOf (s.physBytes a (o.cmd.arg 0x10 4)) x.partition (o.cmd.arg 0 2) a))
    (List.mem_of_find?_eq_some ho) stSuccess false (leBytes 4 s.work.nextHandle)
  exact ⟨hended, hcores, hstore, congrArg Work.nextHandle hwork,
    fun h => (State.kernel_eq_of_work hwork h).trans (State.kernel_addKernel _ h)⟩

theorem kernelRegisterComplete_refused {x : Ctx} {a : Nat} {p : ImagePlace} (ho : s.opOf 0x0400 = some o)
    (hx : s.ctxById (o.cmd.arg 0 2) = some x) (ha : s.imagePlace o.cmd x.partition p = .range a)
    (hst : imageStatus (s.physBytes a (o.cmd.arg 0x10 4)) (o.cmd.arg 0x10 4) ≠ 0) :
    ∃ t, exec (.kernelRegisterComplete p) s = .next t ∧ (s.withoutOp o.id).raised t :=
  ⟨_, (execKernelRegisterComplete_range ho hx ha).trans (by rw [if_pos hst]), State.opDone_raised (List.mem_of_find?_eq_some ho) _ _ _⟩

theorem graphCheckComplete_stored {image : ReadResult} {b : List Byte} {ds : List (List Byte)} {x : Ctx}
    (ho : (s.valac.ops.find? fun y => y.cmd.opcode == 0x0410 || y.cmd.opcode == 0x0411) = some o) (hop : o.cmd.opcode = 0x0410)
    (hx : s.ctxById (o.cmd.arg 0 2) = some x)
    (hb : s.valacRead (o.cmd.arg 0 2) x.partition (o.cmd.arg 8 8) (o.cmd.arg 0x10 4) image = .data b) (hl : b.length = o.cmd.arg 0x10 4)
    (hi : graphImage b = some ds) (hst : s.graphStatus x.partition ds s.nodeCount = 0) (hroom : s.graphCount < 1024) :
    ∃ t, exec (.graphCheckComplete image) s = .next t ∧ t.ended o.id ∧ t.cores = s.cores ∧ t.store = s.store ∧
      t.work.nextGraph = s.work.nextGraph + 1 ∧ t.graph s.work.nextGraph =
        some { part := x.partition, ctx := o.cmd.arg 0 2, newest := 1, versions := [newVersion 1 ds], released := false } := by
  refine ⟨_, (execGraphCheckComplete_store ho hop hx hb hl).trans (congrArg _ (State.storeGraph_sound hx hi hst hroom)), ?_⟩
  obtain ⟨hended, hcores, hstore, hwork⟩ := State.opDone_ends
    (u := s.addGraph { part := x.partition, ctx := o.cmd.arg 0 2, newest := 1, versions := [newVersion 1 ds], released := false })
    (List.mem_of_find?_eq_some ho) stSuccess false (leBytes 4 s.work.nextGraph ++ leBytes 4 1)
  exact ⟨hended, hcores, hstore, congrArg Work.nextGraph hwork, (State.graph_eq_of_work hwork _).trans (State.graph_addGraph _)⟩

theorem graphCheckComplete_patched {image : ReadResult} {b : List Byte} {g : Graph} {es : List (Nat × List Byte)} {old : GraphVersion} {x : Ctx}
    (ho : (s.valac.ops.find? fun y => y.cmd.opcode == 0x0410 || y.cmd.opcode == 0x0411) = some o) (hop : o.cmd.opcode = 0x0411)
    (hg : s.graph o.arg = some g) (hx : s.ctxById g.ctx = some x)
    (hb : s.valacRead g.ctx x.partition (o.cmd.arg 8 8) (o.cmd.arg 0x10 4) image = .data b) (hl : b.length = o.cmd.arg 0x10 4)
    (hp : patchImage b = some es) (hold : (g.versions.find? fun v => v.version == g.newest) = some old) (hin : ∀ e ∈ es, e.1 < old.nodes.length)
    (hst : s.graphStatus g.part (patchedNodes old.nodes es) s.nodeCount = 0) (hk : g.kept.length < 8) :
    ∃ t, exec (.graphCheckComplete image) s = .next t ∧ t.ended o.id ∧ t.cores = s.cores ∧ t.store = s.store ∧ t.graph o.arg =
      some { g with newest := g.newest + 1, versions := g.kept ++ [newVersion (g.newest + 1) (patchedNodes old.nodes es)] } := by
  refine ⟨_, (execGraphCheckComplete_patch ho hop hg hx hb hl).trans (congrArg _ (State.patchGraph_sound hg hp hold hin hst hk)), ?_⟩
  obtain ⟨hended, hcores, hstore, hwork⟩ := State.opDone_ends (u := s.setGraph o.arg (some { g with
      newest := g.newest + 1, versions := g.kept ++ [newVersion (g.newest + 1) (patchedNodes old.nodes es)] }))
    (List.mem_of_find?_eq_some ho) stSuccess false (leBytes 4 0 ++ leBytes 4 (g.newest + 1))
  exact ⟨hended, hcores, hstore, (State.graph_eq_of_work hwork _).trans (State.graph_setGraph_self _ _ _)⟩

end Completions

/-- Settles O50: an accepted command passes its checks and is answered; the completions end their operation over the new table entry. -/
theorem kernelsAndGraphs : Obligations.KernelsAndGraphs := by
  unfold Obligations.KernelsAndGraphs
  intro s c
  refine ⟨fun x hx hf hl ho => ⟨?_, ?_⟩, ?_, fun k => kernelRelease_answered, fun n g hg hr => ⟨?_, ?_⟩, ?_⟩
  · exact kernelRegister_answered hx hf hl ho
  · exact graphStore_answered hx hf hl ho
  · rintro o part a x b place rfl ho hx rfl ha rfl
    exact ⟨kernelRegisterComplete_verified ho hx ha, kernelRegisterComplete_refused ho hx ha⟩
  · rintro rfl hf hl
    exact ⟨graphPatch_answered hg hr hf hl, graphRelease_answered hg hr hf hl⟩
  · rintro o image b es old ds x rfl rfl hop ho hx hb hlen hp hold hin rfl hst hk
    exact graphCheckComplete_patched ho hop hg hx hb hlen hp hold hin hst hk
  · rintro o image b ds x rfl hop ho hx hb hlen hi hst hroom
    exact graphCheckComplete_stored ho hop hx hb hlen hi hst hroom

end Sys2Proof.Machine

/-! Requests that read at their home: a hit delivers the bytes of its line, and a Device access goes to its controller (R155, R175, R199). -/

namespace Sys2Proof.Machine

section HomeReading

variable {s : State} {r : Req} {id h key c slot : Nat}

theorem State.settle_nil (s : State) : State.settle (s, []) = s := rfl

theorem State.core_dropReq (s : State) (id c : Nat) : (s.dropReq id).core c = s.core c := rfl

/-- When the check of the line finds it good, HOME_LOAD presents the load. -/
theorem exec_homeLoad_good (s : State) (id : Nat) :
    exec (.homeLoad id .good) s = .next (s.present id fun r => r.isLoad && r.type != .device) := by
  change execHomeLoad id .good s = _
  unfold execHomeLoad
  dsimp only
  by_cases hat : s.atHome id (fun r => r.isLoad && r.type != .device) = true
  · cases hreq : s.req id with
    | none => simp [State.atHome, hreq] at hat
    | some r =>
      simp only [hat, Bool.not_true, Bool.false_eq_true, if_false]
      split
      · split
        · rfl
        · rfl
      · rfl
  · rw [State.present, if_neg hat, if_pos (by rw [Bool.eq_false_iff.2 hat]; rfl)]

/-- A load that its home serves for itself delivers the bytes of the line and leaves. -/
theorem State.perform_load {d size : Nat} {sign ro : Bool} {lanes : List (Nat × Nat)} {fwd : List (Nat × Byte)}
    (hpoison : ((s.half h).line key).poison = 0) (hrep : r.replicable = false) (hop : r.op = .load d size sign ro lanes fwd) :
    s.perform h key r = ((s.deliverLoad r ((s.half h).line key).byte).dropReq r.id, []) := by
  simp [State.perform, hop, hpoison, hrep]

/-- LDRES reads its value from the line, and its reservation covers the one line (R175). -/
theorem State.perform_ldres {size d off : Nat} (hpoison : ((s.half h).line key).poison = 0) (halign : r.addr % 128 = 0) (hoff : off < 128)
    (hop : r.op = .ldres size d off 0) (ha : r.agent = .vec c slot) :
    s.perform h key r = ((s.updGroup c slot fun g =>
      { g.setU d (BitVec.ofNat 64 (gather ((s.half h).line key).byte off (2 ^ size))) with
        resv := some { pa := r.addr + off, base := r.addr, len := 128, age := 0 } }).dropReq r.id, []) := by
  have hline : lineOf r.addr = r.addr := by unfold lineOf; omega
  have hbase : (r.addr + off) / 128 * 128 = r.addr := by omega
  simp [State.perform, hop, ha, hpoison, sizeBytes, hline, hbase]

/-- A load delivered to an occupied slot writes the elements of its lanes there; memory and the homes stand. -/
theorem State.deliverLoad_vec {d size : Nat} {sign ro : Bool} {lanes : List (Nat × Nat)} {fwd : List (Nat × Byte)}
    (hop : r.op = .load d size sign ro lanes fwd) (ha : r.agent = .vec c slot) (ho : ((s.core c).group slot).occupied = true)
    (get : Nat → Byte) :
    (s.deliverLoad r get).store = s.store ∧ (∀ k, (s.deliverLoad r get).half k = s.half k) ∧
      ((s.deliverLoad r get).core c).group slot = lanes.foldl (fun (g : Group) e =>
        g.putElem e.1 d size sign (gather (forwarded fwd get) e.2 (2 ^ size))) ((s.core c).group slot) := by
  obtain ⟨s1, hs1, hstore, hhalf, hgrp⟩ : ∃ s1 : State, s.deliverLoad r get = s1.loadLanes c slot d size sign lanes (forwarded fwd get) ∧
      s1.store = s.store ∧ (∀ k, s1.half k = s.half k) ∧ (s1.core c).group slot = (s.core c).group slot := by
    unfold State.deliverLoad
    rw [hop, ha]
    refine ⟨_, rfl, ?_⟩
    cases ro with
    | false => exact ⟨rfl, fun _ => rfl, rfl⟩
    | true => exact ⟨rfl, fun _ => rfl, by rw [if_pos rfl, State.fillL1, State.updCore_eq, State.core_setCore_self]; rfl⟩
  rw [hs1]
  refine ⟨hstore, hhalf, ?_⟩
  rw [State.loadLanes, State.group_updGroup (by rw [hgrp]; exact ho), hgrp]
  rfl

/-- Every request of that number is placed. -/
theorem State.req_place {p : Place} {x : Req} (hx : (s.place id p).req id = some x) : x.place = p := by
  have hid := State.id_of_req hx
  obtain ⟨y, -, hy⟩ := List.mem_map.1 (List.mem_of_find?_eq_some hx)
  split at hy
  · rw [← hy]
  · next hne => exact absurd (hy ▸ hid) hne

/-- A request that waits for its controller has been handed to it. -/
theorem State.hands_accepted (s : State) (h : Nat) (r : Req) (op : MemOp) :
    s.hands (((s.accepted h r true 0x108).pushMem r.addr op).place r.id .waiting) r.addr [op] :=
  ((State.hands_onlyHalf (s.keepsLines_accepted h r true 0x108).1).trans (State.hands_pushMem _ r.addr op)).trans
    (State.hands_of_ctrls rfl rfl)

/-- A Device access of a core to a line that no home holds waits for its controller (R155). -/
theorem State.present_device {kind : Req → Bool} {op : MemOp} (hp : s.presents id r) (hk : kind r = true) (htype : r.type = .device)
    (hstc : s.stcondFails r = false) (hldres : s.ldresFull (s.homeOf r.addr) r = false) (hmiss : (s.half (s.homeOf r.addr)).homeWay r.addr = none)
    (hserve : ∀ h, s.serveUncached h r true = (((s.accepted h r true 0x108).pushMem r.addr op).place r.id .waiting, [])) :
    s.hands (s.present id kind) r.addr [op] ∧ ∀ x, (s.present id kind).req id = some x → x.place = .waiting := by
  obtain ⟨hreq, hplace, hmod, htier, hturn, hcheck, hdisc, hsync⟩ := hp
  have hat : s.atHome id kind = true := by
    simp [State.atHome, hreq, hplace, hmod, htier, hturn, hk]
  have hmissed : s.homeServe id true = s.serveUncached (s.homeOf r.addr) r true := by
    simp [State.homeServe, State.serveMiss, hreq, hcheck, hdisc, hsync, hstc, hldres, hmiss, htype]
  rw [State.present, if_pos hat, hmissed, hserve]
  refine ⟨s.hands_accepted _ r op, fun x hx => ?_⟩
  rw [← State.id_of_req hreq] at hx
  exact State.req_place hx

end HomeReading

/-- Settles O35: a hit stamps its line, delivers its bytes and ends with the request; a Device access that misses waits for its controller. -/
theorem homeReads : Obligations.HomeReads := by
  unfold Obligations.HomeReads
  rintro s id r key l c slot h rfl ha
  refine ⟨fun hit htype ho => ⟨fun d size sign lanes fwd ro hop => ?load, fun size d off hop halign hoff => ?ldres⟩,
    fun hp htype hmiss => ⟨fun d size sign lanes fwd hop => ?deviceLoad, fun bytes hop => ?deviceWrite⟩⟩
  case load =>
    obtain ⟨s1, n, hpresent, honly, hline⟩ := State.present_hit (kind := fun r => r.isLoad && r.type != .device) hit
      (by simp [Req.isLoad, hop, htype])
    have hpoison := State.homeHit_poison hit
    obtain ⟨⟨hreq, -⟩, -, -, -, -, -, -, -, -, hrep, -⟩ := hit
    obtain ⟨hcores, hstore, -, -, -⟩ := State.onlyHalf_rest honly
    have hcore := State.core_of_cores hcores c
    obtain ⟨hst, hhalf, hgrp⟩ := State.deliverLoad_vec (s := s1) hop ha (by rw [hcore]; exact ho) l.byte
    rw [State.perform_load (by rw [hline]; exact hpoison) hrep hop, hline, State.id_of_req hreq] at hpresent
    refine ⟨_, (exec_homeLoad_good s id).trans (congrArg _ hpresent), hst.trans hstore, State.gone_dropReq _ _, ⟨n, ?_⟩, ?_⟩
    · exact (congrArg (Half.line · key) (hhalf _)).trans hline
    · exact hgrp.trans (by rw [hcore])
  case ldres =>
    obtain ⟨s1, n, hpresent, honly, hline⟩ := State.present_hit (kind := Req.isLdres) hit (by simp [Req.isLdres, hop])
    have hpoison := State.homeHit_poison hit
    obtain ⟨⟨hreq, -⟩, -⟩ := hit
    obtain ⟨hcores, hstore, -, -, -⟩ := State.onlyHalf_rest honly
    have hcore := State.core_of_cores hcores c
    rw [State.perform_ldres (by rw [hline]; exact hpoison) halign hoff hop ha, hline, State.id_of_req hreq] at hpresent
    refine ⟨_, congrArg Host.Outcome.next hpresent, hstore, State.gone_dropReq _ _, ?_⟩
    rw [State.settle_nil, State.core_dropReq, State.group_updGroup (by rw [hcore]; exact ho), hcore]
    rfl
  case deviceLoad =>
    obtain ⟨⟨hst, hq⟩, hwaits⟩ := State.present_device (kind := fun r => (r.isLoad || r.isWrite) && r.type == .device) hp
      (by simp [Req.isLoad, hop, htype]) htype (by simp [State.stcondFails, hop]) (by simp [State.ldresFull, hop]) hmiss
      (op := .readFor (lineOf r.addr) r.id) (fun h => by simp [State.serveUncached, hop])
    rw [State.id_of_req hp.1] at hq
    exact ⟨_, rfl, hst, hq, hwaits⟩
  case deviceWrite =>
    obtain ⟨⟨hst, hq⟩, hwaits⟩ := State.present_device (kind := fun r => (r.isLoad || r.isWrite) && r.type == .device) hp
      (by simp [Req.isWrite, hop, htype]) htype (by simp [State.stcondFails, hop]) (by simp [State.ldresFull, hop]) hmiss
      (op := .writePart (lineOf r.addr) bytes r.id r.poison) (fun h => by simp [State.serveUncached, hop, ha, Agent.noAlloc])
    rw [State.id_of_req hp.1] at hq
    exact ⟨_, rfl, hst, hq, hwaits⟩

end Sys2Proof.Machine

/-! Invalidate Requests and accesses without an answer (R185, R186, R304, R307). -/

namespace Sys2Proof.Machine

section Invalidations

variable {r s t : State}

/-- Translation cache entry `e` stands in a second level or in a micro-TLB of a core. -/
def State.caches (s : State) (e : TlbEntry) : Prop :=
  (∃ h, e ∈ s.l2tlb h) ∨ ∃ c, e ∈ (s.core c).utlb ++ (s.core c).dtlb

/-- Memory, the cores and the second levels stand. -/
def State.keepsCaches (s t : State) : Prop := t.store = s.store ∧ t.cores = s.cores ∧ t.xlat.l2 = s.xlat.l2

theorem State.keepsCaches.refl (s : State) : s.keepsCaches s := ⟨rfl, rfl, rfl⟩

theorem State.keepsCaches.trans (h : r.keepsCaches s) (h' : s.keepsCaches t) : r.keepsCaches t := by
  obtain ⟨hst, hc, hl⟩ := h
  obtain ⟨hst', hc', hl'⟩ := h'
  exact ⟨hst'.trans hst, hc'.trans hc, hl'.trans hl⟩

theorem State.keepsCaches.caches (h : s.keepsCaches t) (e : TlbEntry) : t.caches e ↔ s.caches e := by
  obtain ⟨-, hc, hl⟩ := h
  unfold State.caches State.l2tlb State.core
  rw [hc, hl]

theorem State.keepsCaches_foldl {α : Type} {f : State → α → State} (hf : ∀ (s : State) (a : α), s.keepsCaches (f s a)) (as : List α) (s : State) :
    s.keepsCaches (as.foldl f s) :=
  List.foldlRecOn (motive := s.keepsCaches) as f (State.keepsCaches.refl s) fun t ht a _ => ht.trans (hf t a)

theorem State.keepsCaches_of_raised (h : s.raised t) : s.keepsCaches t :=
  ⟨State.raised_store h, State.raised_cores h, (congrArg (fun x : State => x.xlat.l2) h.2 :)⟩

theorem State.keepsCaches_countInval (s : State) : s.keepsCaches s.countInval :=
  State.keepsCaches_foldl (f := fun s d => s.xlatCount d 0x140 1) (fun _ _ => ⟨rfl, rfl, rfl⟩) _ s

theorem State.keepsCaches_staleWindows (s : State) (ctx lo len : Nat) : s.keepsCaches (s.staleWindows ctx lo len) := by
  unfold State.staleWindows
  split
  · exact State.keepsCaches.refl s
  · next x _ =>
    exact State.keepsCaches.trans (s := s.setCtx (ctxSlot ctx) _) ⟨rfl, rfl, rfl⟩
      (State.keepsCaches_foldl (fun s _ => State.keepsCaches_of_raised (State.raised_postPart s _ _ _)) _ _)

theorem State.keepsCaches_sendAts (s : State) (die : Nat) (row : XRow) : s.keepsCaches (s.sendAts die row) := by
  unfold State.sendAts
  split
  · split
    · exact ⟨rfl, rfl, rfl⟩
    · exact State.keepsCaches.refl s
  · exact State.keepsCaches.refl s

/-- Entry `e` translates for the context a byte of the range. -/
def TlbEntry.inRange (e : TlbEntry) (ctx lo len : Nat) : Bool := e.ctx == ctx && meets e.va e.size lo len

/-- The translation caches without the entries of a context that a range meets. -/
def State.uncached (s : State) (ctx lo len : Nat) : State :=
  { s with cores := SMap.mapV {} s.cores fun _ k =>
             { k with utlb := k.utlb.filter fun e => !e.inRange ctx lo len, dtlb := k.dtlb.filter fun e => !e.inRange ctx lo len },
           xlat := { s.xlat with l2 := SMap.mapV [] s.xlat.l2 fun _ l => l.filter fun e => !e.inRange ctx lo len } }

theorem State.caches_uncached (s : State) (ctx lo len : Nat) (e : TlbEntry) :
    (s.uncached ctx lo len).caches e ↔ s.caches e ∧ e.inRange ctx lo len = false := by
  have hl2 (h : Nat) : (s.uncached ctx lo len).l2tlb h = (s.l2tlb h).filter fun e => !e.inRange ctx lo len := SMap.get_mapV _ _ _ _ rfl
  have hcore (c : Nat) : (s.uncached ctx lo len).core c = { s.core c with
      utlb := (s.core c).utlb.filter fun e => !e.inRange ctx lo len, dtlb := (s.core c).dtlb.filter fun e => !e.inRange ctx lo len } :=
    SMap.get_mapV _ _ _ _ rfl
  simp only [State.caches, hl2, hcore, ← List.filter_append, List.mem_filter, Bool.not_eq_true', exists_and_right, ← or_and_right]

/-- After its caches are emptied, the invalidation of a context marks windows and rows and sends translation requests again. -/
theorem State.invalidateCtx_uncached (s : State) (ctx lo len : Nat) : (s.uncached ctx lo len).keepsCaches (s.invalidateCtx ctx lo len) := by
  unfold State.invalidateCtx
  dsimp only
  refine State.keepsCaches.trans (State.keepsCaches.trans ?_ (State.keepsCaches_staleWindows _ ctx lo len)) (State.keepsCaches_foldl ?_ _ _)
  · exact ⟨rfl, rfl, rfl⟩
  · intro s e
    split
    · next row _ =>
      split
      · split
        · exact State.keepsCaches.trans ⟨rfl, rfl, rfl⟩ (State.keepsCaches_sendAts _ row.die row)
        · exact State.keepsCaches.refl s
      · exact State.keepsCaches.refl s
    · exact State.keepsCaches.refl s

/-- Invalidating contexts removes their entries that the range meets, and no other entry (R307). -/
theorem State.caches_invalidateCtxs (lo len : Nat) (e : TlbEntry) (ctxs : List Nat) (s : State) :
    (ctxs.foldl (fun s ctx => s.invalidateCtx ctx lo len) s).caches e ↔ s.caches e ∧ ∀ ctx ∈ ctxs, e.inRange ctx lo len = false := by
  induction ctxs generalizing s with
  | nil => simp
  | cons ctx ctxs ih =>
    rw [List.foldl_cons, ih, (s.invalidateCtx_uncached ctx lo len).caches, State.caches_uncached, List.forall_mem_cons, and_assoc]

theorem State.invalidateCtxs_store (lo len : Nat) (ctxs : List Nat) (s : State) :
    (ctxs.foldl (fun s ctx => s.invalidateCtx ctx lo len) s).store = s.store :=
  List.foldlRecOn (motive := fun t : State => t.store = s.store) ctxs _ rfl fun t ht ctx _ => (t.invalidateCtx_uncached ctx lo len).1.trans ht

/-- An Invalidate Request stands among those of its function, and its contexts' entries that its range meets are gone. -/
theorem exec_atsInvalidateRequest (s : State) (fn : FnIdx) (pasid : BitVec 20) (global : Bool) (addr : DWord) (size : Nat) :
    ∃ t, exec (.atsInvalidateRequest fn pasid global addr size) s = .next t ∧ t.store = s.store ∧
      (∀ e, t.caches e ↔ s.caches e ∧ ∀ ctx ∈ s.invalTargets fn pasid.toNat global, e.inRange ctx addr.toNat size = false) ∧
      ∃ i ∈ (t.pri fn).inval, i.pasid = pasid.toNat ∧ i.every = global ∧ i.addr = addr.toNat ∧ i.size = size := by
  refine ⟨_, rfl, ?_, fun e => ?_, ?_⟩
  · exact (State.invalidateCtxs_store _ _ _ _).trans s.keepsCaches_countInval.1
  · rw [← s.keepsCaches_countInval.caches e]
    exact State.caches_invalidateCtxs _ _ e _ _
  · rw [State.pri_setPri_self]
    exact ⟨_, List.mem_append_right _ (List.mem_singleton_self _), rfl, rfl, rfl, rfl⟩

/-- The one Invalidate Request of a function is answered when nothing that used its translations is outstanding (R307). -/
theorem exec_atsInvalidateComplete_drained {fn : FnIdx} {i : Inval} (hi : (s.pri fn).inval = [i])
    (hd : s.invalDrained (s.invalTargets fn i.pasid i.every) i.upto = true) :
    exec (.atsInvalidateComplete fn) s = .next ((s.setPri fn { s.pri fn with inval := [] }).emit (.invalidateDone fn)) := by
  change execAtsInvalidateComplete fn s = _
  simp [execAtsInvalidateComplete, hi, hd]

/-- The access that got no answer is retired with the others of its context that wait on the host (R185, R186). -/
theorem State.retire_unanswered {x q : Req} (hx : x ∈ (s.retire q).fab.reqs) (hctx : x.ctx = q.ctx) (hplace : x.place = q.place) :
    x.agent.core = none := by
  simpa [hctx, hplace] using (List.mem_filter.1 hx).2

/-- An access of a core to the host that is never answered faults with UNREACHABLE. -/
theorem exec_targetTimeout_host {id c slot : Nat} {q : Req} (hq : s.req id = some q) (hplace : q.place = .host) (ha : q.agent = .vec c slot) :
    exec (.targetTimeout (.request id)) s = .next ((s.retire q).takeFault
      { core := c, ctx := q.ctx, part := q.part, site := q.site, kind := fkUnreachable, detail := 0, cause := 0, addr := q.va }) := by
  have hcore : q.agent.core = some c := by rw [ha]; rfl
  change execTargetTimeout (.request id) s = _
  simp [execTargetTimeout, hq, hplace, hcore, Req.fault, State.settle]

end Invalidations

/-- Settles O41: the fold over the contexts removes their entries that the range meets; the drained request is answered; the access that got
no answer leaves with those of its context, and faults. -/
theorem invalidationsAndTimeouts : Obligations.InvalidationsAndTimeouts := by
  unfold Obligations.InvalidationsAndTimeouts
  refine fun s fn => ⟨fun pasid global addr size ctx hctx => ?request, fun i hi hd => ?complete, fun id q c slot hq hplace ha => ?timeout⟩
  case request =>
    obtain ⟨t, hexec, hst, hcaches, hinval⟩ := exec_atsInvalidateRequest s fn pasid global addr size
    have hgone (e : TlbEntry) (he : t.caches e) (hec : e.ctx = ctx) : meets e.va e.size addr.toNat size = false := by
      have hout := ((hcaches e).1 he).2 ctx hctx
      rwa [TlbEntry.inRange, hec, beq_self_eq_true, Bool.true_and] at hout
    exact ⟨t, hexec, hst, fun h e he => hgone e (.inl ⟨h, he⟩), fun c e he => hgone e (.inr ⟨c, he⟩), hinval⟩
  case complete =>
    refine ⟨_, exec_atsInvalidateComplete_drained hi hd, ?_, rfl, rfl⟩
    exact congrArg PriState.inval (s.pri_setPri_self fn _)
  case timeout =>
    refine ⟨s.retire q, rfl, fun x hx hxc hxp => ?_, exec_targetTimeout_host hq hplace ha⟩
    exact State.retire_unanswered hx hxc (hxp.trans hplace.symm)

end Sys2Proof.Machine

/-! Fills, forwards, invalidations and replicas: lines that move between their states (R199 to R208). -/

namespace Sys2Proof.Machine

section LinesMoving

variable {s : State} {r : Req} {id a h key : Nat} {l : CLine}

/-! Lines at their home. -/

/-- The line without anything outstanding. -/
def CLine.released (l : CLine) : CLine :=
  { l with state := l.rest, why := .none, after := .serve, waiters := [], fetch := 0, merging := false }

theorem State.releaseLine_eq (s : State) (h key : Nat) :
    s.releaseLine h key = (s.putLine h key ((s.half h).line key).released).serveAll ((s.half h).line key).waiters := rfl

/-- The line with the sectors of an answered fetch (R199). -/
def CLine.filled (l : CLine) (x : Nat × BitVec 4 × SMap Byte × BitVec 4) : CLine :=
  { l with
    data := (sectorList x.2.1).foldl (fun m k => SMap.putBytes m (32 * k) (SMap.getBytes x.2.2.1 (32 * k) 32)) l.data,
    valid := l.valid ||| x.2.1, poison := l.poison ||| x.2.2.2, fetch := 0 }

@[simp] theorem State.checkLine_good (s : State) (h key : Nat) : s.checkLine h key .good = s := rfl

/-- A filled line that merges nothing rests, and its waiters are served. -/
theorem State.fillDone_putLine (s : State) (h key : Nat) (hm : l.merging = false) :
    (s.putLine h key l).fillDone h key = ((s.putLine h key l).putLine h key l.released).serveAll l.waiters := by
  simp only [State.fillDone, State.mergeIn, State.line_putLine_self, hm, Bool.not_false, if_true, State.releaseLine_eq]

/-- Sectors that arrive where no reload source covers the line fill it, and its waiters are served (R199, R200). -/
theorem exec_sectorsArrive_good {line : Nat} {x : Nat × BitVec 4 × SMap Byte × BitVec 4} (ha : a = lineOf line) (hh : h = s.homeOf a)
    (hway : (s.half h).homeWay a = some key) (hl : l = (s.half h).line key)
    (hx : (s.ctrl (s.ctrlOf a)).done.find? (fun y => y.1 == a) = some x) (hfill : l.state = .fill) (hm : l.merging = false)
    (hr : s.reloadAt a = none) :
    exec (.sectorsArrive line .good) s = .next (State.settle (
      (((s.setCtrl (s.ctrlOf a) { s.ctrl (s.ctrlOf a) with done := (s.ctrl (s.ctrlOf a)).done.erase x }).putLine h key
        (l.filled x)).putLine h key (l.filled x).released).serveAll l.waiters)) := by
  subst ha hh hl
  change execSectorsArrive line .good s = _
  unfold execSectorsArrive
  dsimp only
  rw [hx, hway]
  dsimp only
  rw [if_neg (by simp [hfill]), State.checkLine_good, ite_self]
  split
  · next hsome => exact absurd (hr.symm.trans hsome) nofun
  · exact congrArg (Host.Outcome.next ∘ State.settle) (State.fillDone_putLine _ _ _ hm)

/-- A forward that found no replica: its home leaves HOLD and serves the request, then the waiters of the line (R205). -/
theorem exec_forwardMiss_hold (hreq : s.req id = some r) (hplace : r.place = .missed) (hh : s.homeOf r.addr = h)
    (hway : (s.half h).homeWay r.addr = some key) (hl : l = (s.half h).line key) (hhold : l.state = .hold) :
    exec (.forwardMiss id) s = .next (State.settle (
      let m := (s.putLine h key { l with state := l.rest, why := .none, waiters := [] }).homeServe id false
      ((m.1.serveAll l.waiters).1, m.2 ++ (m.1.serveAll l.waiters).2))) := by
  subst hh hl
  change execForwardMiss id s = _
  simp [execForwardMiss, hreq, hplace, hway, hhold]

theorem ofNat_two_pow_eq_shiftLeft (d : DieIdx) : BitVec.ofNat 8 (2 ^ d.val) = 1#8 <<< d.val := by
  revert d
  decide

/-- A set bit is the only one of a mask when clearing it leaves none. -/
theorem clear_bit_eq_zero_iff {dies : BitVec 8} {d : DieIdx} (hd : dies.getLsbD d = true) :
    dies &&& ~~~(1#8 <<< d.val) = 0 ↔ dies = 1#8 <<< d.val := by
  revert dies d
  decide

/-- The acknowledgement of a sharer clears its bits; the last one lets the home go on (R207, R208). -/
theorem exec_invalidationAck {d : DieIdx} {line : Nat} {dies : BitVec 8} (ha : a = lineOf line) (hh : h = s.homeOf a)
    (hway : (s.half h).homeWay a = some key) (hl : l = (s.half h).line key) (hhold : l.state = .hold)
    (hwhy : l.why = .invalidate dies) (hd : dies.getLsbD d = true) (hno : s.noReplica d a = true) :
    exec (.invalidationAck d line) s = .next (
      let s1 := s.putLine h key
        { l with why := .invalidate (dies &&& ~~~(1#8 <<< d.val)), sharers := l.sharers &&& ~~~(1#8 <<< d.val) }
      if dies = 1#8 <<< d.val then State.settle (s1.holdDone h key) else s1) := by
  subst ha hh hl
  change execInvalidationAck d line s = _
  simp only [execInvalidationAck, hway, hwhy, hhold, hd, hno, Bool.and_self, decide_true, if_true, ofNat_two_pow_eq_shiftLeft,
    clear_bit_eq_zero_iff hd]

/-- An eviction notice clears the sharer bit of its die (R206). -/
theorem exec_evictionNotice {d : DieIdx} {line : Nat} (ha : a = lineOf line) (hh : h = s.homeOf a)
    (hway : (s.half h).homeWay a = some key) (hl : l = (s.half h).line key) (hd : l.sharers.getLsbD d = true)
    (hno : s.noReplica d a = true) :
    exec (.evictionNotice d line) s = .next (s.putLine h key { l with sharers := l.sharers &&& ~~~(1#8 <<< d.val) }) := by
  subst ha hh hl
  change execEvictionNotice d line s = _
  simp only [execEvictionNotice, hway, hd, hno, Bool.and_self, if_true, ofNat_two_pow_eq_shiftLeft]

/-- The forwarded line has arrived and no forward of it is open: the home leaves HOLD (R205). -/
theorem exec_replicaFillAck {d : DieIdx} {line k : Nat} (ha : a = lineOf line) (hh : h = s.homeOf a)
    (hway : (s.half h).homeWay a = some key) (hl : l = (s.half h).line key) (hhold : l.state = .hold)
    (hwhy : l.why = .forward d.val) (hk : (s.half (s.replicaHalf d a)).replicaWay a = some k)
    (hrep : ((s.half (s.replicaHalf d a)).line k).state = .replica)
    (hopen : ∀ r ∈ s.fab.reqs, lineOf r.addr = a → (∀ e, r.place ≠ .forwarded e) ∧ r.place ≠ .missed) :
    exec (.replicaFillAck d line) s = .next (State.settle (s.releaseLine h key)) := by
  subst ha hh hl
  change execReplicaFillAck d line s = _
  unfold execReplicaFillAck
  dsimp only
  rw [hway]
  refine congrArg Host.Outcome.next (if_pos ?_)
  simp only [hhold, hwhy, hk, hrep, decide_true, Bool.true_and, Bool.and_eq_true, Bool.not_eq_true', List.any_eq_false]
  refine ⟨rfl, fun r hr hopened => ?_⟩
  simp only [beq_iff_eq] at hopened
  obtain ⟨⟨hline, -⟩, hplace⟩ := hopened
  obtain ⟨hforwarded, hmissed⟩ := hopen r hr hline
  split at hplace
  · next e he => exact hforwarded e he
  · next he => exact hmissed he
  · cases hplace

/-! Replicas. -/

variable {c slot : Nat} {d : DieIdx}

/-- A load that a replica serves delivers the bytes of the line and leaves. -/
theorem State.replicaServe_load {hr : Nat} (hload : r.isLoad = true) (hpoison : ((s.half hr).line key).poison = 0) :
    ∃ s1 : State, s.replicaServe hr key r = ((s1.deliverLoad r ((s.half hr).line key).byte).dropReq r.id, []) ∧ s.onlyHalf s1 hr := by
  refine ⟨(s.cacheCount hr r.part 0x128 1).touch hr key, ?_,
    State.onlyHalf_trans (s.keepsLines_cacheCount hr r.part 0x128 1).1 (State.touch_used _ hr key).1⟩
  simp [State.replicaServe, hload, hpoison]

/-- A lookup that finds a replica is served there (R203). -/
theorem exec_replicaLookup_hit (hreq : s.req id = some r) (hplace : r.place = .replica) (hturn : s.turnOf r = true)
    (hcheck : s.homeCheck r = none) (hway : (s.half (s.replicaHalf r.die r.addr)).replicaWay r.addr = some key)
    (hrep : ((s.half (s.replicaHalf r.die r.addr)).line key).state = .replica) :
    exec (.replicaLookup id) s = .next (State.settle (s.replicaServe (s.replicaHalf r.die r.addr) key r)) := by
  change execReplicaLookup id s = _
  simp [execReplicaLookup, hreq, hplace, hturn, hcheck, hway, hrep]

/-- A sharer sends the line of a forwarded load to its core, when no replica is being filled for it (R205). -/
theorem exec_forwardReceive_load (hreq : s.req id = some r) (hplace : r.place = .forwarded d.val) (hload : r.isLoad = true)
    (hway : (s.half (s.replicaHalf d r.addr)).replicaWay r.addr = some key) (hl : l = (s.half (s.replicaHalf d r.addr)).line key)
    (hrep : l.state = .replica) (hpoison : l.poison = 0) (hnone : s.fillingReplica r = none) :
    exec (.forwardReceive id) s = .next ((s.deliverLoad r l.byte).dropReq id) := by
  subst hl
  change execForwardReceive id s = _
  simp [execForwardReceive, hreq, hplace, hway, hrep, hpoison, hnone, hload]

/-- A filled replica way delivers the line to the load that waits for it, and becomes a replica (R204). -/
theorem exec_replicaFillArrive_load {line : Nat} (ha : a = lineOf line) (hh : h = s.replicaHalf d a)
    (hway : (s.half h).replicaWay a = some key) (hl : l = (s.half h).line key) (hstate : l.state = .rfill)
    (hvalid : l.valid = 0xF) (hdoomed : l.doomed = false) (hwait : l.waiters = [id]) (hreq : s.req id = some r)
    (hload : r.isLoad = true) (hpoison : l.poison = 0) :
    ∃ s1 : State, exec (.replicaFillArrive d line) s = .next ((s1.deliverLoad r l.byte).dropReq id) ∧ s.onlyHalf s1 h ∧
      (s1.half h).line key = { l with state := .replica, waiters := [] } := by
  subst ha hh hl
  generalize hhr : s.replicaHalf d (lineOf line) = hr at *
  generalize hx : (s.half hr).line key = l at *
  have hcount := (s.putLine hr key { l with state := .replica, waiters := [] }).keepsLines_cacheCount hr l.part 0x130 1
  refine ⟨_, ?_, State.onlyHalf_trans (s.onlyHalf_setHalf hr _) hcount.1, ?_⟩
  · obtain ⟨-, -, -, hreqs, -⟩ := State.onlyHalf_rest hcount.1
    have hreq1 : ((s.putLine hr key { l with state := .replica, waiters := [] }).cacheCount hr l.part 0x130 1).req id = some r := by
      rw [State.req, hreqs]
      exact hreq
    change execReplicaFillArrive d line s = _
    unfold execReplicaFillArrive
    dsimp only
    rw [hhr, hway]
    dsimp only
    rw [hx, if_neg (by simp [hstate, hvalid]), if_neg (by simp [hdoomed]), hwait, List.foldl_cons, List.foldl_nil, hreq1]
    dsimp only
    rw [if_neg (by simp [hpoison]), hload]
    rfl
  · rw [Half.line, hcount.2]
    exact State.line_putLine_self s hr key _

/-- An invalidation drops the replica of a sharer that the home waits for (R207). -/
theorem exec_replicaInvalidate {line hk : Nat} {dies : BitVec 8} (ha : a = lineOf line)
    (hhome : (s.half (s.homeOf a)).homeWay a = some hk) (hhold : ((s.half (s.homeOf a)).line hk).state = .hold)
    (hwhy : ((s.half (s.homeOf a)).line hk).why = .invalidate dies) (hd : dies.getLsbD d = true)
    (hway : (s.half (s.replicaHalf d a)).replicaWay a = some key) :
    exec (.replicaInvalidate d line) s = .next (s.dropReplica (s.replicaHalf d a) key) := by
  subst ha
  change execReplicaInvalidate d line s = _
  simp [execReplicaInvalidate, hhome, hhold, hwhy, hd, hway]

/-- A replica that is dropped leaves its way empty. -/
theorem State.dropReplica_replica (hrep : ((s.half h).line key).state = .replica) :
    s.onlyHalf (s.dropReplica h key) h ∧ ((s.dropReplica h key).half h).line key = {} := by
  have hdrop : s.dropReplica h key = (s.cacheCount h ((s.half h).line key).part 0x140 1).putLine h key {} := by
    simp [State.dropReplica, hrep, State.putLine]
  rw [hdrop]
  exact ⟨State.onlyHalf_trans (s.keepsLines_cacheCount h _ _ _).1 (State.onlyHalf_setHalf _ h _), State.line_putLine_self _ h key _⟩

/-- A delivered load that leaves: memory stands, the lines of the halves stand, and its lanes hold their elements. -/
theorem State.deliverLoad_leaves {dst size : Nat} {sign ro : Bool} {lanes : List (Nat × Nat)} {fwd : List (Nat × Byte)} {s1 : State}
    (hop : r.op = .load dst size sign ro lanes fwd) (hagent : r.agent = .vec c slot) (ho : ((s.core c).group slot).occupied = true)
    (honly : s.onlyHalf s1 h) (get : Nat → Byte) :
    let t := (s1.deliverLoad r get).dropReq id
    t.store = s.store ∧ t.gone id ∧ (t.core c).group slot = lanes.foldl (fun (g : Group) e =>
      g.putElem e.1 dst size sign (gather (forwarded fwd get) e.2 (2 ^ size))) ((s.core c).group slot) ∧ ∀ k, t.half k = s1.half k := by
  obtain ⟨hcores, hstore, -, -, -⟩ := State.onlyHalf_rest honly
  have hcore := State.core_of_cores hcores c
  obtain ⟨hst, hhalf, hgrp⟩ := State.deliverLoad_vec (s := s1) hop hagent (by rw [hcore]; exact ho) get
  rw [hcore] at hgrp
  exact ⟨hst.trans hstore, State.gone_dropReq _ id, hgrp, hhalf⟩

end LinesMoving

/-- Settles O37: an answer brings its home line to rest and serves the waiters of the line; a load at a replica way delivers the bytes of
the line and leaves. -/
theorem linesAndReplicas : Obligations.LinesAndReplicas := by
  unfold Obligations.LinesAndReplicas
  refine ⟨fun s d line a h key l ha hh hway hl => ⟨fun x hx hfill hm hr => ?arrive, fun id r hreq hplace _ hhome hrway hhold => ?miss,
    fun dies hhold hwhy hd hno => ?ack, fun hd hno => ?notice, fun k hhold hwhy hk hrep hopen => ?fillAck⟩, ?replicas⟩
  case arrive =>
    refine ⟨_, ?_, ?_, ?_, ?_, exec_sectorsArrive_good ha hh hway hl hx hfill hm hr⟩
    · rfl
    · rfl
    · exact congrArg MemCtrl.done (State.ctrl_setCtrl_self _ _ _)
    · rw [State.line_putLine_self]
      simp only [CLine.released, CLine.filled, hm]
      rfl
  case miss =>
    refine ⟨_, ?_, State.line_putLine_self s h key _, exec_forwardMiss_hold hreq hplace hhome hrway hl hhold⟩
    rfl
  case ack =>
    refine ⟨_, ?_, State.line_putLine_self s h key _, exec_invalidationAck ha hh hway hl hhold hwhy hd hno⟩
    rfl
  case notice =>
    exact ⟨_, exec_evictionNotice ha hh hway hl hd hno, s.onlyHalf_setHalf h _, State.line_putLine_self s h key _⟩
  case fillAck =>
    subst hl
    refine ⟨_, ?_, State.line_putLine_self s h key _, exec_replicaFillAck ha hh hway rfl hhold hwhy hk hrep hopen⟩
    rfl
  case replicas =>
    rintro s d id r c slot hr key l rfl hway rfl halign
    have hline : r.addr = lineOf r.addr := by unfold lineOf; omega
    refine ⟨fun dst size sign ro lanes fwd after hreq hagent ho hpoison hop hafter => ?loads, fun hk dies hhome hhold hwhy hd hrep => ?invalidate⟩
    case loads =>
      have hload : r.isLoad = true := by simp [Req.isLoad, hop]
      refine ⟨fun hdie hplace hturn hcheck hrep => ?lookup, fun hplace hrep hnone => ?forward, fun hstate hvalid hdoomed hwait => ?fill⟩
      case lookup =>
        rw [← hdie] at hway hpoison hrep hafter
        obtain ⟨s1, hserve, honly⟩ := State.replicaServe_load (s := s) hload hpoison
        obtain ⟨hst, hgone, hgrp, -⟩ := State.deliverLoad_leaves (id := id) hop hagent ho honly
          ((s.half (s.replicaHalf r.die r.addr)).line key).byte
        have hexec := exec_replicaLookup_hit hreq hplace hturn hcheck hway hrep
        rw [hserve, State.id_of_req hreq] at hexec
        exact ⟨_, hexec, hst, hgone, hgrp.trans hafter.symm⟩
      case forward =>
        obtain ⟨hst, hgone, hgrp, -⟩ := State.deliverLoad_leaves (id := id) hop hagent ho (s.onlyHalf_refl 0)
          ((s.half (s.replicaHalf d r.addr)).line key).byte
        exact ⟨_, exec_forwardReceive_load hreq hplace hload hway rfl hrep hpoison hnone, hst, hgone, hgrp.trans hafter.symm⟩
      case fill =>
        obtain ⟨s1, hexec, honly, hl1⟩ := exec_replicaFillArrive_load hline rfl hway rfl hstate hvalid hdoomed hwait hreq hload hpoison
        obtain ⟨hst, hgone, hgrp, hhalf⟩ := State.deliverLoad_leaves (id := id) hop hagent ho honly
          ((s.half (s.replicaHalf d r.addr)).line key).byte
        exact ⟨_, hexec, hst, hgone, hgrp.trans hafter.symm, (congrArg (Half.line · key) (hhalf _)).trans hl1⟩
    case invalidate =>
      exact ⟨_, exec_replicaInvalidate hline hhome hhold hwhy hd hway, State.dropReplica_replica hrep⟩

end Sys2Proof.Machine

/-! Memory controllers, menders, needle buckets, flash, washers and repairs (R220, R267 to R277, R284). -/

namespace Sys2Proof.Machine

section MemoryFrames

variable {s t : State}

/-! The homes and the fabric leave memory alone: what they write goes to the memory controllers as operations (R199, R220). -/

@[simp] theorem State.store_cacheCount (s : State) (h p off n : Nat) : (s.cacheCount h p off n).store = s.store :=
  (s.worksHalf_cacheCount h p off n).1

@[simp] theorem State.store_writeDirty (s : State) (h key : Nat) : (s.writeDirty h key).store = s.store := (s.worksHalf_writeDirty h key).1

@[simp] theorem State.store_reduceWriteback (s : State) (h key : Nat) : (s.reduceWriteback h key).store = s.store :=
  (s.worksHalf_reduceWriteback h key).1

@[simp] theorem State.store_evictNow (s : State) (h key : Nat) : (s.evictNow h key).store = s.store := (s.worksHalf_evictNow h key).1

@[simp] theorem State.store_accepted (s : State) (h : Nat) (r : Req) (first : Bool) (off : Nat) : (s.accepted h r first off).store = s.store :=
  (State.onlyHalf_rest (s.keepsLines_accepted h r first off).1).2.1

@[simp] theorem State.store_putLine (s : State) (h key : Nat) (l : CLine) : (s.putLine h key l).store = s.store := rfl
@[simp] theorem State.store_touch (s : State) (h key : Nat) : (s.touch h key).store = s.store := rfl
@[simp] theorem State.store_emptyWay (s : State) (h key : Nat) : (s.emptyWay h key).store = s.store := rfl
@[simp] theorem State.store_openFill (s : State) (h key : Nat) (mask : BitVec 4) (ids : List Nat) : (s.openFill h key mask ids).store = s.store := rfl
@[simp] theorem State.store_startInvalidate (s : State) (h key : Nat) (after : AfterHold) (ids : List Nat) :
    (s.startInvalidate h key after ids).store = s.store := rfl
@[simp] theorem State.store_pushMem (s : State) (a : Nat) (op : MemOp) : (s.pushMem a op).store = s.store := rfl
@[simp] theorem State.store_place (s : State) (id : Nat) (p : Place) : (s.place id p).store = s.store := rfl
@[simp] theorem State.store_dropReq (s : State) (id : Nat) : (s.dropReq id).store = s.store := rfl
@[simp] theorem State.store_dropResv (s : State) (p : Nat → Nat → Reservation → Bool) : (s.dropResv p).store = s.store := rfl
@[simp] theorem State.store_removalEndsResv (s : State) (line : Nat) : (s.removalEndsResv line).store = s.store := rfl
@[simp] theorem State.store_updGroup (s : State) (c slot : Nat) (f : Group → Group) : (s.updGroup c slot f).store = s.store := rfl
@[simp] theorem State.store_sendRecord (s : State) (kind w v : Nat) (bytes : List Byte) : (s.sendRecord kind w v bytes).store = s.store := rfl

@[simp] theorem State.store_note (s : State) (i : LogItem) : (s.note i).store = s.store := congrArg (·.store) (s.note_rest i)

@[simp] theorem State.store_warn (s : State) (i : LogItem) : (s.warn i).store = s.store := by
  have hput : (s.logPut i).2.store = s.store := s.store_note i
  unfold State.warn
  split
  · next n s1 hs =>
    rw [hs] at hput
    exact (State.raised_store (s1.raised_post _ _ _)).trans hput
  · next s1 hs =>
    rw [hs] at hput
    exact hput

@[simp] theorem State.store_send (s : State) (r : Req) : (s.send r).store = s.store := by
  obtain ⟨place, out, hs⟩ := s.send_shape r
  rw [hs]

@[simp] theorem State.store_sendReplica (s : State) (r : Req) (l : CLine) : (s.sendReplica r l).store = s.store := (s.sendReplica_home r l).1

/-! What the lines of a half do. -/

@[simp] theorem State.store_beginMerge (s : State) (h key : Nat) (ids : List Nat) : (s.beginMerge h key ids).store = s.store :=
  s.store_cacheCount h _ _ _

@[simp] theorem State.store_retry (s : State) (h : Nat) (r : Req) (needsReg : Bool) : (s.retry h r needsReg).store = s.store := by
  unfold State.retry
  dsimp only
  split <;> simp

@[simp] theorem State.store_joinLine (s : State) (h key : Nat) (r : Req) (first : Bool) : (s.joinLine h key r first).store = s.store := by
  unfold State.joinLine
  dsimp only
  split <;> simp

theorem State.store_allocate {h : Nat} {r : Req} {avoid : List Nat} :
    (∀ k, s.allocate h r avoid = .way k t → t.store = s.store) ∧ (s.allocate h r avoid = .wait t → t.store = s.store) := by
  unfold State.allocate
  dsimp only
  split
  · exact ⟨fun k hk => by cases hk; rfl, nofun⟩
  · exact ⟨nofun, nofun⟩
  · split
    · split
      · exact ⟨nofun, fun hk => by cases hk; rfl⟩
      · exact ⟨nofun, nofun⟩
    · split
      · exact ⟨nofun, nofun⟩
      · exact ⟨fun k hk => by cases hk; exact State.store_evictNow _ _ _, nofun⟩

@[simp] theorem State.store_mergeIn (s : State) (h key : Nat) : (s.mergeIn h key).store = s.store := by
  unfold State.mergeIn
  dsimp only
  split <;> rfl

/-! What a request leaves behind: delivered bytes and the forwarding of writes to the twin. -/

@[simp] theorem State.store_deliverLoad (s : State) (r : Req) (get : Nat → Byte) : (s.deliverLoad r get).store = s.store := by
  unfold State.deliverLoad
  split
  · dsimp only
    split <;> rfl
  · rfl
  · rfl

@[simp] theorem State.store_hostAnswer (s : State) (r : Req) (bytes : List Byte) (poisoned : Bool) :
    (s.hostAnswer r bytes poisoned).store = s.store := by
  cases poisoned <;> rfl

@[simp] theorem State.store_dmaLines (r : Req) (bad : Nat → Bool) (pieces : List (Nat × Nat × OutKind × MemType × Nat)) (s : State)
    (bytes : List Byte) (done : Nat) : (s.dmaLines r bad bytes done pieces).store = s.store := by
  induction pieces generalizing s bytes done with
  | nil => rfl
  | cons p pieces ih => exact (ih _ _ _).trans (s.store_send _)

@[simp] theorem State.store_deliverDma (s : State) (r : Req) (bytes : List Byte) (dest : DmaDest) (bad : Nat → Bool) :
    (s.deliverDma r bytes dest bad).store = s.store := by
  cases dest with
  | tile a =>
    unfold State.deliverDma
    cases r.agent.core <;> rfl
  | lines pieces => exact State.store_dmaLines r bad pieces s bytes 0
  | gather rid off =>
    unfold State.deliverDma
    dsimp only
    split
    · split <;> rfl
    · rfl

@[simp] theorem State.store_mirrorOut (s : State) (agent : Agent) (line : Nat) (bytes : List (Nat × Byte)) (rid : Nat) :
    (s.mirrorOut agent line bytes rid).1.store = s.store := by
  unfold State.mirrorOut State.epochOverflow
  split
  · rfl
  · split
    · rfl
    · split
      · rfl
      · rfl
      · rfl
      · split
        · rfl
        · split
          · exact State.store_warn _ _
          · rfl

@[simp] theorem State.store_mirrorDone (s : State) (r : Req) : (s.mirrorDone r).store = s.store := by
  unfold State.mirrorDone
  split
  · rfl
  · split
    · rfl
    · split
      · rfl
      · split
        · rfl
        · split <;> rfl

@[simp] theorem State.store_finishWrite (s : State) (r : Req) (bytes : List (Nat × Byte)) : (s.finishWrite r bytes).store = s.store := by
  unfold State.finishWrite
  dsimp only
  generalize hs : s.dropResv _ = s1
  have hs1 : s1.store = s.store := by rw [← hs, State.store_dropResv]
  split <;> simp [hs1]

/-! The serving of a request at its home. -/

@[simp] theorem State.store_rangeAct (s : State) (h key : Nat) (r : Req) (op : RangeOp) : (s.rangeAct h key r op).store = s.store := by
  cases op <;> simp [State.rangeAct]

@[simp] theorem State.store_perform (s : State) (h key : Nat) (r : Req) : (s.perform h key r).1.store = s.store := by
  unfold State.perform
  dsimp only
  split
  · rfl
  · cases r.op with
    | load => dsimp only; split <;> simp
    | atomic => dsimp only; split <;> simp
    | ldres => dsimp only; split <;> simp
    | stcond => dsimp only; split <;> simp
    | _ => simp

@[simp] theorem State.store_serveHit (s : State) (h key : Nat) (r : Req) (first : Bool) : (s.serveHit h key r first).1.store = s.store := by
  unfold State.serveHit
  extract_lets l home toReplica missing invalidates d s1 l1 s2 t1 l2 t2
  have ht2 : t2.store = s.store := by
    unfold t2
    split <;> simp [t1]
  split
  · split <;> simp
  · split
    · split <;> simp
    · split
      · split <;> simp [s2, s1]
      · exact (t2.store_perform h key r).trans ht2

@[simp] theorem State.store_serveUncached (s : State) (h : Nat) (r : Req) (first : Bool) : (s.serveUncached h r first).1.store = s.store := by
  unfold State.serveUncached
  dsimp only
  split
  · split <;> simp
  all_goals simp

theorem State.store_withWay {h : Nat} {r : Req} {needsReg : Bool} {dead : Option Nat} {go : State → Nat → Served}
    (hgo : ∀ (t : State) (k : Nat), (go t k).1.store = t.store) : (s.withWay h r needsReg dead go).1.store = s.store := by
  unfold State.withWay
  split
  · simp
  · split
    · exact hgo s _
    · split
      · simp
      · next s1 hs => simpa using State.store_allocate.2 hs
      · next k s1 hs => exact (hgo s1 k).trans (State.store_allocate.1 k hs)

@[simp] theorem State.store_serveMiss (s : State) (h : Nat) (dead : Option Nat) (r : Req) (first : Bool) :
    (s.serveMiss h dead r first).1.store = s.store := by
  unfold State.serveMiss
  extract_lets isLoad s1 noAcc s2 _ _
  have hs1 : s1.store = s.store := by
    unfold s1
    split <;> simp
  split
  · simp [hs1]
  · split
    · simp [hs1]
    · cases r.op with
      | range op => cases op <;> cases dead <;> simp [s2, hs1, State.store_withWay]
      | reduce op type elems =>
        dsimp only
        split
        · simp [hs1, State.store_withWay]
        · refine (State.store_withWay fun t k => ?_).trans hs1
          split
          · split
            · next j s2 hs =>
              have hs2 := State.store_allocate.1 j hs
              split <;> simp [hs2]
            · next s2 hs => simpa using State.store_allocate.2 hs
            · simp
          · simp
      | write bytes => dsimp only; split <;> simp [hs1, State.store_withWay]
      | _ => simp [hs1, State.store_withWay]

@[simp] theorem State.store_serveAccum (s : State) (h key : Nat) (r : Req) (first : Bool) : (s.serveAccum h key r first).1.store = s.store := by
  unfold State.serveAccum
  extract_lets l s1 merge s2
  have hmerge : (merge ()).1.store = s.store := by
    unfold merge
    split
    · simp [s1]
    · split <;> simp
  cases r.op with
  | reduce => dsimp only; split <;> simp [hmerge]
  | range op =>
    cases op with
    | prefetch => simp
    | discard => simp [s2]
    | _ => dsimp only; split <;> simp
  | _ => simp [hmerge]

@[simp] theorem State.store_homeServe (s : State) (id : Nat) (first : Bool) : (s.homeServe id first).1.store = s.store := by
  unfold State.homeServe
  split
  · rfl
  · next r _ =>
    dsimp only
    split
    · rfl
    · split_ifs
      · rfl
      · rfl
      · split <;> simp
      · simp
      · split
        · simp
        · split <;> simp

/-- A list of served requests, one after the other. -/
theorem State.store_serves {f : Served → Nat → Served} (hf : ∀ acc n, (f acc n).1.store = acc.1.store) (ns : List Nat) (acc : Served) :
    (ns.foldl f acc).1.store = acc.1.store :=
  List.foldlRecOn (motive := fun m : Served => m.1.store = acc.1.store) ns f rfl fun m hm n _ => (hf m n).trans hm

@[simp] theorem State.store_serveAll (s : State) (ids : List Nat) : (s.serveAll ids).1.store = s.store :=
  State.store_serves (fun acc id => by simp) ids (s, [])

@[simp] theorem State.store_fillDone (s : State) (h key : Nat) : (s.fillDone h key).1.store = s.store := by
  simp [State.fillDone, State.releaseLine]

@[simp] theorem State.store_refresh (s : State) (h key : Nat) : (s.refresh h key).store = s.store := rfl

@[simp] theorem State.store_releaseStripe (s : State) (h stripe : Nat) : (s.releaseStripe h stripe).1.store = s.store :=
  State.store_serves (fun acc key => by simp) _ (s, [])

@[simp] theorem State.store_repairFails (s : State) (h : Nat) (r : Repair) : (s.repairFails h r).1.store = s.store := by
  simp [State.repairFails]

@[simp] theorem State.store_askTwin (s : State) (base n : Nat) : (s.askTwin base n).store = s.store := by
  unfold State.askTwin
  exact List.foldlRecOn (motive := fun t : State => t.store = s.store) _ _ rfl fun t ht i _ => (t.store_sendRecord _ _ _ _).trans ht

@[simp] theorem State.store_tryCopy (s : State) (h : Nat) (r : Repair) (n : Nat) : (s.tryCopy h r n).1.store = s.store := by
  induction n generalizing r with
  | zero => exact s.store_repairFails h r
  | succ n ih =>
    unfold State.tryCopy
    split
    · simp
    · split
      · simp
      · dsimp only
        split
        · simp
        · exact ih _
      · simp

@[simp] theorem State.store_nextRepair (s : State) (h n : Nat) : (s.nextRepair h n).1.store = s.store := by
  induction n generalizing s with
  | zero => rfl
  | succ n ih =>
    unfold State.nextRepair
    split
    · exact (ih _).trans (by simp)
    · rfl

/-! A fault stops a core and tears its context down: no sector becomes poisoned (R66, R396, R437). -/

/-- No sector changes its place behind the controllers, and none becomes poisoned. -/
def State.heals (s t : State) : Prop := t.store.regions = s.store.regions ∧ t.store.poison ⊆ s.store.poison

theorem State.heals.refl (s : State) : s.heals s := ⟨rfl, List.Subset.refl _⟩

theorem State.heals.trans {r : State} (h : r.heals s) (h' : s.heals t) : r.heals t := by
  obtain ⟨hr, hp⟩ := h
  obtain ⟨hr', hp'⟩ := h'
  exact ⟨hr'.trans hr, fun k hk => hp (hp' hk)⟩

theorem State.heals_of_store (h : t.store = s.store) : s.heals t := by
  unfold State.heals
  rw [h]
  exact ⟨rfl, List.Subset.refl _⟩

theorem State.heals_foldl {α : Type} {f : State → α → State} (hf : ∀ (s : State) (a : α), s.heals (f s a)) (as : List α) (s : State) :
    s.heals (as.foldl f s) :=
  List.foldlRecOn (motive := s.heals) as f (State.heals.refl s) fun t ht a _ => ht.trans (hf t a)

theorem State.locOf_of_regions (h : t.store.regions = s.store.regions) (a : Nat) : t.locOf a = s.locOf a := by
  unfold State.locOf State.spot State.regionAt
  rw [h]

/-- A sector that is not poisoned stays so. -/
theorem State.heals.poisoned {a : Nat} (h : s.heals t) (hp : s.poisoned a = false) : t.poisoned a = false := by
  obtain ⟨hregions, hsub⟩ := h
  unfold State.poisoned State.sectorKey at hp ⊢
  rw [State.locOf_of_regions hregions]
  cases hk : (s.locOf a).map (· / 32) with
  | none => rfl
  | some k =>
    rw [hk] at hp
    simp only [List.contains_eq_mem, decide_eq_false_iff_not] at hp ⊢
    exact fun hmem => hp (hsub hmem)

theorem State.heals_of_raised (h : s.raised t) : s.heals t := State.heals_of_store (State.raised_store h)

theorem State.store_haltQueue (s : State) (q : Nat) (state : QueueState) (reason : Nat) : (s.haltQueue q state reason).store = s.store := by
  unfold State.haltQueue
  split
  · rfl
  · exact (State.raised_store (State.raised_postPart _ _ _ _) :)

theorem State.store_opDone (s : State) (id status : Nat) (cancelled : Bool) (result : List Byte) :
    (s.opDone id status cancelled result).store = s.store := by
  unfold State.opDone
  split
  · rfl
  · exact (State.raised_store (State.raised_mbxEvent _ _ _ _) :)

theorem State.store_endHaltOp (s : State) (q : Nat) : (s.endHaltOp q).store = s.store := by
  unfold State.endHaltOp
  split
  · split
    · exact State.store_opDone _ _ _ _ _
    · rfl
  · rfl

theorem State.store_unbind (s : State) (g : Nat × Nat) : (s.unbind g).store = s.store := by
  unfold State.unbind
  split <;> rfl

theorem State.store_breakHold (s : State) (q : Nat) : (s.breakHold q).store = s.store := by
  unfold State.breakHold
  split
  · rfl
  · split <;> rfl

/-- A partition forgets its share groups, which hold no sectors. -/
theorem State.heals_leaveShares (s : State) (p : Nat) : s.heals (s.leaveShares p) := by
  unfold State.leaveShares
  split
  · exact State.heals.refl s
  · exact ⟨rfl, List.Subset.refl _⟩

theorem State.heals_commitLaunch (s : State) (id : DWord) (v : Verdict) : s.heals (s.commitLaunch id v) := by
  unfold State.commitLaunch
  split
  · exact State.heals.refl s
  · split
    · exact State.heals.refl s
    · next l _ _ =>
      extract_lets l1 s0 _ s1 s2a s2b s2 late s3
      have hs2a : s2a.store = s.store := by
        unfold s2a
        split <;> rfl
      have hs2b : s2b.store = s.store := by
        unfold s2b
        split
        · rw [State.store_breakHold, State.store_unbind, hs2a]
        · rw [State.store_breakHold, hs2a]
      have hs2 : s.heals s2 := (State.heals_of_store hs2b).trans (s2b.heals_leaveShares l.part)
      have hs3 : s3.store = s2.store := by
        unfold s3
        split <;> rfl
      split
      · exact hs2
      · exact hs2.trans (State.heals_of_store ((State.store_warn _ _).trans hs3))

theorem State.heals_commitTorn (s : State) (k : Cause) (l : Launch) : s.heals (s.commitTorn k l) := by
  unfold State.commitTorn
  split
  · exact State.heals.refl s
  · split
    · exact State.heals.trans (State.heals_of_store rfl) (State.heals_commitLaunch _ _ _)
    · split
      · exact s.heals_commitLaunch _ _
      · exact s.heals_commitLaunch _ _

theorem State.store_teardownCore (s : State) (c : Nat) (keepWrites : Bool) : (s.teardownCore c keepWrites).store = s.store := by
  unfold State.teardownCore
  extract_lets k s1 s2
  split
  · rfl
  · split
    · rfl
    · refine List.foldlRecOn (motive := fun t : State => t.store = s.store) _ _ rfl fun t ht e _ => ?_
      dsimp only
      split <;> simp [ht]

theorem State.store_sweepCtxAll (s : State) (ctx : Nat) : (s.sweepCtxAll ctx).store = s.store :=
  List.foldlRecOn (motive := fun t : State => t.store = s.store) _ _ rfl fun t ht h _ => (t.worksHalf_sweepCtx h ctx).1.trans ht

theorem State.heals_tearContext (s : State) (ctx : Nat) (k : Cause) : s.heals (s.tearContext ctx k) := by
  unfold State.tearContext
  split
  · exact State.heals.refl s
  · split
    · exact State.heals.refl s
    · next x _ _ =>
      extract_lets s1 qs s2 cs s3a s3 asked s4 s5 s6 s7 s8
      have hs2 : s.heals s2 :=
        State.heals.trans (State.heals_of_store (t := s1) rfl) (State.heals_foldl (fun t q => State.heals_of_store (t.store_haltQueue q _ _)) qs s1)
      have hs3 : s2.heals s3 :=
        State.heals.trans (State.heals_foldl (fun t c => State.heals_of_store (t.store_teardownCore c _)) cs s2) (State.heals_of_store rfl)
      have hs4 : s3.heals s4 := by
        unfold s4
        split <;> exact State.heals_of_store rfl
      have hs5 : s5.store = s4.store := (State.store_dropResv _ _).trans (s4.store_sweepCtxAll ctx)
      clear_value s5
      have hs6 : s4.heals s6 := State.heals_of_store hs5
      have hs7 : s6.heals s7 := State.heals_foldl (fun t l => t.heals_commitTorn k l) _ s6
      have hs8 : s7.heals s8 := State.heals_of_raised (s7.raised_postPart _ _ _)
      have hend := State.heals_foldl (fun t q => State.heals_of_store (t.store_endHaltOp q)) qs s8
      exact hs2.trans (hs3.trans (hs4.trans (hs6.trans (hs7.trans (hs8.trans hend)))))

theorem State.heals_takeFault (s : State) (f : FaultRep) : s.heals (s.takeFault f) := by
  unfold State.takeFault State.takeFaultAs
  extract_lets k running always live _ s1 launch s2
  have hs1 : s1.store = s.store := by
    unfold s1
    split_ifs <;> rfl
  exact State.heals.trans (State.heals_of_store ((State.store_note _ _).trans hs1)) (State.heals_tearContext _ _ _)

theorem State.heals_settle (m : Served) : m.1.heals (State.settle m) := State.heals_foldl State.heals_takeFault m.2 m.1

/-! A repair rewrites the poisoned sectors of its stripe (R284). -/

theorem State.setPoison_eq {a k : Nat} (on : Bool) (hk : s.sectorKey a = some k) :
    s.setPoison a on = { s with store := { s.store with
      poison := if on then insertKey k s.store.poison else s.store.poison.filter (· != k) } } := by
  simp only [State.setPoison, hk]

theorem mem_insertKey (k : Nat) (l : List Nat) : k ∈ insertKey k l := by
  induction l with
  | nil => exact List.mem_singleton_self k
  | cons x l ih =>
    unfold insertKey
    split
    · exact List.mem_cons_self
    · split
      · next h => exact h ▸ List.mem_cons_self
      · exact List.mem_cons_of_mem x ih

/-- A sector that lies behind a controller reads as poisoned once it is marked. -/
theorem State.poisoned_setPoison_true {a : Nat} (ha : (s.locOf a).isSome) : (s.setPoison a true).poisoned a = true := by
  obtain ⟨l, hl⟩ := Option.isSome_iff_exists.1 ha
  have hk : s.sectorKey a = some (l / 32) := by rw [State.sectorKey, hl, Option.map_some]
  have hk' : (s.setPoison a true).sectorKey a = some (l / 32) := by
    rw [State.setPoison_eq true hk]
    exact hk
  rw [State.poisoned, hk', State.setPoison_eq true hk]
  simpa using mem_insertKey _ _

theorem State.heals_setPoison_false (s : State) (a : Nat) : s.heals (s.setPoison a false) ∧ (s.setPoison a false).poisoned a = false := by
  cases hk : s.sectorKey a with
  | none =>
    have hs : s.setPoison a false = s := by simp only [State.setPoison, hk]
    rw [hs]
    exact ⟨State.heals.refl s, by rw [State.poisoned, hk]⟩
  | some k =>
    have hk' : (s.setPoison a false).sectorKey a = some k := by
      rw [State.setPoison_eq false hk]
      exact hk
    refine ⟨?_, ?_⟩
    · rw [State.setPoison_eq false hk]
      exact ⟨rfl, List.filter_subset_self _⟩
    · rw [State.poisoned, hk', State.setPoison_eq false hk]
      simp

/-- Bytes put into memory change memory's bytes alone. -/
theorem State.putMem_shape (bs : List Byte) (s : State) (a : Nat) : ∃ mem, s.putMem a bs = { s with store := { s.store with mem } } := by
  induction bs generalizing s a with
  | nil => exact ⟨_, rfl⟩
  | cons b bs ih =>
    obtain ⟨mem, hb⟩ : ∃ mem, s.putMemByte a b = { s with store := { s.store with mem } } := by
      unfold State.putMemByte
      split
      · exact ⟨_, rfl⟩
      · exact ⟨_, rfl⟩
    obtain ⟨mem', hbs⟩ := ih (s.putMemByte a b) (a + 1)
    rw [State.putMem, hbs, hb]
    exact ⟨mem', rfl⟩

end MemoryFrames

end Sys2Proof.Machine
namespace Sys2Proof.Machine

section Controllers

variable {s t : State} {m : Nat} {r : Req} {id : Nat}

/-! Rules of the controllers: bytes, poison and counters. -/

theorem State.putMemByte_store (h : t.store = s.store) (a : Nat) (b : Byte) : (t.putMemByte a b).store = (s.putMemByte a b).store := by
  unfold State.putMemByte
  rw [State.locOf_of_regions (congrArg Store.regions h)]
  cases s.locOf a with
  | none => exact h
  | some l => simp only [h]

/-- Bytes are put into memory by what memory is alone. -/
theorem State.putMem_store (bs : List Byte) (h : t.store = s.store) (a : Nat) : (t.putMem a bs).store = (s.putMem a bs).store := by
  induction bs generalizing s t a with
  | nil => exact h
  | cons b bs ih => exact ih (State.putMemByte_store h a b) (a + 1)

theorem State.setPoison_store (h : t.store = s.store) (a : Nat) (on : Bool) : (t.setPoison a on).store = (s.setPoison a on).store := by
  unfold State.setPoison State.sectorKey
  rw [State.locOf_of_regions (congrArg Store.regions h)]
  cases (s.locOf a).map (· / 32) with
  | none => exact h
  | some k => simp only [h]

@[simp] theorem State.cores_putMem (s : State) (a : Nat) (bs : List Byte) : (s.putMem a bs).cores = s.cores := by
  obtain ⟨mem, h⟩ := s.putMem_shape bs a
  rw [h]

@[simp] theorem State.ctrl_putMem (s : State) (a : Nat) (bs : List Byte) (n : Nat) : (s.putMem a bs).ctrl n = s.ctrl n := by
  obtain ⟨mem, h⟩ := s.putMem_shape bs a
  rw [h]
  rfl

@[simp] theorem State.cores_setPoison (s : State) (a : Nat) (on : Bool) : (s.setPoison a on).cores = s.cores := by
  unfold State.setPoison
  split <;> rfl

@[simp] theorem State.ctrl_setPoison (s : State) (a : Nat) (on : Bool) (n : Nat) : (s.setPoison a on).ctrl n = s.ctrl n := by
  unfold State.setPoison
  split <;> rfl

@[simp] theorem State.mem_setPoison (s : State) (a : Nat) (on : Bool) : (s.setPoison a on).store.mem = s.store.mem := by
  unfold State.setPoison
  split <;> rfl

@[simp] theorem State.reloads_setPoison (s : State) (a : Nat) (on : Bool) : (s.setPoison a on).store.reloads = s.store.reloads := by
  unfold State.setPoison
  split <;> rfl

/-- Memory, the cores, and what controller `m` holds and has fetched stand: it counts events. -/
def State.counts (s t : State) (m : Nat) : Prop :=
  t.store = s.store ∧ t.cores = s.cores ∧ (t.ctrl m).queue = (s.ctrl m).queue ∧ (t.ctrl m).done = (s.ctrl m).done

theorem State.counts.trans {x : State} (h : x.counts s m) (h' : s.counts t m) : x.counts t m := by
  obtain ⟨hst, hc, hq, hd⟩ := h
  obtain ⟨hst', hc', hq', hd'⟩ := h'
  exact ⟨hst'.trans hst, hc'.trans hc, hq'.trans hq, hd'.trans hd⟩

@[simp] theorem State.ctrl_memCount_self (s : State) (m off n : Nat) : (s.memCount m off n).ctrl m = (s.ctrl m).count off n :=
  State.ctrl_setCtrl_self _ _ _

theorem State.counts_memCount (s : State) (m off n : Nat) : s.counts (s.memCount m off n) m :=
  ⟨rfl, rfl, by rw [State.ctrl_memCount_self]; rfl, by rw [State.ctrl_memCount_self]; rfl⟩

theorem State.counts_activates (s : State) (m : Nat) : s.counts (s.activates m) m :=
  State.counts.trans (s := (s.draw 1).2) ⟨rfl, rfl, rfl, rfl⟩ (State.counts_memCount _ m 0x110 _)

theorem State.poisoned_of_store (h : t.store = s.store) (a : Nat) : t.poisoned a = s.poisoned a := by
  unfold State.poisoned State.sectorKey
  rw [State.locOf_of_regions (congrArg Store.regions h), h]

theorem State.reloadAt_of_reloads (h : t.store.reloads = s.store.reloads) (a : Nat) : t.reloadAt a = s.reloadAt a := by
  unfold State.reloadAt
  rw [h]

/-! Memory requests (R220, R266). -/

/-- The controller has taken an operation out of its queue. -/
def State.takes (s : State) (m : Nat) (op : MemOp) : State := s.setCtrl m { s.ctrl m with queue := (s.ctrl m).queue.erase op }

@[simp] theorem State.ctrl_takes_self (s : State) (m : Nat) (op : MemOp) :
    (s.takes m op).ctrl m = { s.ctrl m with queue := (s.ctrl m).queue.erase op } := s.ctrl_setCtrl_self m _

theorem State.store_takes (s : State) (m : Nat) (op : MemOp) : (s.takes m op).store = s.store := rfl

theorem exec_memcRequest {m : CtrlIdx} {e : MemErr} {op : MemOp} (h : nextMemOp [] (s.ctrl m).queue = some op) :
    exec (.memcRequest m e) s = .next (State.settle ((s.takes m op).serveMem m op e)) := by
  change execMemcRequest m e s = _
  simp only [execMemcRequest, h]
  rfl

/-- A served write leaves the bytes and the poison of its sector in memory. -/
theorem State.serveMem_write (s : State) (m a : Nat) (bytes : List Byte) (poison : Bool) (e : MemErr) :
    ∃ t, s.serveMem m (.write a bytes poison) e = (t, []) ∧ ((s.putMem a bytes).setPoison a poison).counts t m :=
  ⟨_, rfl, (State.counts_memCount _ m 0x108 1).trans (State.counts_activates _ m)⟩

theorem SMap.get_putPieces (f : Nat → List Byte) (hf : ∀ k, (f k).length = 32) {k o : Nat} (ho : o < 32) (ks : List Nat) (mp : SMap Byte) :
    SMap.get 0 (ks.foldl (fun mp k => SMap.putBytes mp (32 * k) (f k)) mp) (32 * k + o) =
      if k ∈ ks then (f k).getD o 0 else SMap.get 0 mp (32 * k + o) := by
  induction ks generalizing mp with
  | nil => simp
  | cons j ks ih =>
    rw [List.foldl_cons, ih, SMap.get_putBytes, hf]
    by_cases hj : k = j
    · subst hj
      simp [ho]
    · have hout : ¬ (32 * j ≤ 32 * k + o ∧ 32 * k + o < 32 * j + 32) := by omega
      simp [hj, hout]

theorem mem_sectorList {mask : BitVec 4} {k : Nat} : k ∈ sectorList mask ↔ k < 4 ∧ mask.getLsbD k = true := by
  simp [sectorList]

/-- A served fetch hands over the bytes of its sectors, and which of them are poisoned. -/
theorem State.serveMem_fetch (s : State) (m a : Nat) (mask : BitVec 4) :
    ∃ t, s.serveMem m (.fetch a mask) .good = (t, []) ∧ t.store = s.store ∧ t.cores = s.cores ∧ (t.ctrl m).queue = (s.ctrl m).queue ∧
      ∃ bytes : SMap Byte, (t.ctrl m).done = (s.ctrl m).done ++ [(lineOf a, mask, bytes, mask &&& s.poisonMask a)] ∧
        ∀ k o, k < 4 → o < 32 → mask.getLsbD k = true → SMap.get 0 bytes (32 * k + o) = s.memByte (lineOf a + 32 * k + o) := by
  obtain ⟨hst, hcores, hqueue, hdone⟩ := (s.counts_memCount m 0x100 (sectorList mask).length).trans (State.counts_activates _ m)
  refine ⟨_, rfl, hst, hcores, ?_, (sectorList mask).foldl (fun mp k => SMap.putBytes mp (32 * k) (s.memBytes (lineOf a + 32 * k) 32)) [],
    ?_, fun k o hk ho hmask => ?_⟩
  · rw [State.ctrl_setCtrl_self]
    exact hqueue
  · rw [State.ctrl_setCtrl_self]
    exact congrArg (· ++ [_]) hdone
  · rw [SMap.get_putPieces _ (fun k => by simp [State.memBytes]) ho, if_pos (mem_sectorList.2 ⟨hk, hmask⟩)]
    simp [State.memBytes, ho]

/-! Menders (R220). -/

theorem exec_menderApply {m : CtrlIdx} {op : MemOp} (h : nextMend [] (s.ctrl m).queue = some op) :
    exec (.menderApply m) s = .next (((s.takes m op).mend m op).activates m) := by
  change execMenderApply m s = _
  simp only [execMenderApply, h]
  rfl

theorem sectorList_single {k : Nat} (hk : k < 4) : sectorList (1#4 <<< k) = [k] := by
  have h : ∀ i : Fin 4, sectorList (1#4 <<< i.val) = [i.val] := by decide
  exact h ⟨k, hk⟩

/-- A reduce-writeback of one sector combines its accumulators into the bytes that memory holds. -/
theorem State.mend_sector (s : State) (m a : Nat) (op : RedOp) (type : RedType) {k : Nat} (accs : SMap Word) (hk : k < 4) :
    (s.putMem (lineOf a + 32 * k) (redSector op type accs k fun o => s.memByte (lineOf a + o))).counts
      (s.mend m (.mend a op type (1#4 <<< k) accs)) m := by
  unfold State.mend
  dsimp only
  rw [sectorList_single hk, List.foldl_cons, List.foldl_nil]
  exact ((State.counts_memCount _ m 0x128 1).trans (State.counts_memCount _ m 0x100 1)).trans (State.counts_memCount _ m 0x108 1)

/-! The needle path (R267, R268). -/

theorem exec_needleRead (hreq : s.req id = some r) (hplace : r.place = .needle) (hb : (s.ctrl (s.ctrlOf r.addr)).bucketed id = false)
    (hroom : (SMap.get [] (s.ctrl (s.ctrlOf r.addr)).buckets (s.dramBank r.addr)).length < 16) (hcheck : s.ctrlCheck r = none) :
    exec (.needleRead id) s = .next (s.setCtrl (s.ctrlOf r.addr) { s.ctrl (s.ctrlOf r.addr) with
      buckets := SMap.upd [] (s.ctrl (s.ctrlOf r.addr)).buckets (s.dramBank r.addr) (· ++ [id]) }) := by
  change execNeedleRead id s = _
  simp [execNeedleRead, hreq, hplace, hb, hcheck, hroom]

/-- A read without allocation of unpoisoned sectors puts the bytes of memory into tile memory (R155). -/
theorem State.readUncached_tile {off len a c : Nat} {ndl : Bool} (hop : r.op = .dmaRead off len (.tile a) ndl) (hc : r.agent.core = some c)
    (hp : sectorsOf r.op.offsets &&& s.poisonMask r.addr = 0) :
    s.readUncached r = ((s.dropReq r.id).updCore c fun k => { k with
      tile := SMap.putBytes k.tile a ((List.range len).map fun j => s.memByte (lineOf r.addr + (off + j))) }, []) := by
  rw [hop] at hp
  simp [State.readUncached, State.deliverDma, hop, hc, hp]

/-- The burst of a bucket that holds one read empties the bucket and serves the read. -/
theorem exec_needleBucketIssue_one {m : CtrlIdx} {bucket : Nat} (hb : SMap.get [] (s.ctrl m).buckets bucket = [id]) (hreq : s.req id = some r)
    (hq : ∀ op ∈ (s.ctrl m).queue, op.line = lineOf r.addr → (∃ b k, op = .fetch b k) ∨ ∃ b k, op = .readFor b k) :
    ∃ counters, exec (.needleBucketIssue m bucket) s = .next (State.settle ((s.setCtrl m { s.ctrl m with
      counters, buckets := SMap.set [] (s.ctrl m).buckets bucket [] }).readUncached r)) := by
  have hrs : (SMap.get [] (s.ctrl m).buckets bucket).filterMap s.req = [r] := by simp [hb, hreq]
  change ∃ counters, execNeedleBucketIssue m bucket s = _
  unfold execNeedleBucketIssue
  dsimp only
  rw [hrs, if_neg]
  · generalize List.length (List.eraseDups (_ : List Nat)) = sectors
    generalize List.length (List.eraseDups (_ : List Nat)) = rows
    simp only [List.foldl_cons, List.foldl_nil, insertRow, List.nil_append, Prod.mk.eta, MemCtrl.count]
    exact ⟨_, rfl⟩
  · simp only [List.isEmpty_cons, Bool.false_or, List.any_cons, List.any_nil, Bool.or_false, List.any_eq_true, not_exists, not_and]
    intro op hop hblocked
    simp only [Bool.and_eq_true, beq_iff_eq] at hblocked
    obtain ⟨hline, hkind⟩ := hblocked
    obtain ⟨b, k, rfl⟩ | ⟨b, k, rfl⟩ := hq op hop hline
    · cases hkind
    · cases hkind

/-! Flash (R270 to R273). -/

/-- A page that is accepted is written into Tier 3, and its request leaves. -/
theorem exec_flashWriteAccept {bytes : List (Nat × Byte)} (hreq : s.req id = some r) (hop : r.op = .write bytes) (hplace : r.place = .flash)
    (hlen : bytes.length = 16384) (hturn : s.turnOf r = true) (hcheck : s.flashCheck r = none) :
    exec (.flashWriteAccept id) s = .next ({ s with store := { s.store with
      flash := bytes.foldl (fun m (e : Nat × Byte) => SMap.set 0 m (r.addr - tier3Base + e.1) e.2) s.store.flash } }.dropReq id) := by
  have hfold := List.foldl_hom (init := s.store.flash) (l := bytes) (fun flash => { s with store := { s.store with flash } })
    (g₁ := fun m (e : Nat × Byte) => SMap.set 0 m (r.addr - tier3Base + e.1) e.2)
    (g₂ := fun (t : State) (e : Nat × Byte) =>
      { t with store := { t.store with flash := SMap.set 0 t.store.flash (r.addr - tier3Base + e.1) e.2 } })
    (fun _ _ => rfl)
  change execFlashWriteAccept id s = _
  simp only [execFlashWriteAccept, hreq, hop, hplace, hlen, hturn, hcheck]
  exact congrArg (fun t : State => Host.Outcome.next (t.dropReq id)) hfold

/-- A page read without bad codewords reaches the tile memory of its descriptor. -/
theorem exec_flashReadComplete_tile {off len a c : Nat} {ndl : Bool} (hreq : s.req id = some r) (hop : r.op = .dmaRead off len (.tile a) ndl)
    (hplace : r.place = .flash) (hc : r.agent.core = some c) (hturn : s.turnOf r = true) (hcheck : s.flashCheck r = none) :
    exec (.flashReadComplete id 0) s = .next ((s.dropReq id).updCore c fun k => { k with
      tile := SMap.putBytes k.tile a (s.flashBytes (r.addr + off) len) }) := by
  change execFlashReadComplete id 0 s = _
  simp [execFlashReadComplete, State.deliverDma, hreq, hop, hplace, hc, hturn, hcheck]

/-! The washer (R277). -/

/-- What the washer's check of a sector leaves (R274, R275, R277). -/
def State.washed (s : State) (a : Nat) (e : MemErr) : State := (s.memCount (s.ctrlOf a) 0x100 1).checkSector (s.ctrlOf a) a e

/-- The pass of a half's washer goes on: WASH_STATUS takes free values (assumption 3). -/
def State.washOn (s : State) (h : Nat) : State :=
  let f := s.draw 10
  let p := f.1.toNat % 1000
  let x := f.2.half h
  f.2.setHalf h (if p < x.washProgress then
    { x with washProgress := p, washPasses := (x.washPasses + 1) % 65536, washHours := f.2.store.washHours }
  else { x with washProgress := p })

/-- A read and checked sector that is not newly poisoned, or that no reload source covers, asks for no repair. -/
theorem exec_washerSector {h : HalfIdx} {a : Nat} {e : MemErr} (hal : a % 32 = 0) (hloc : (s.locOf a).isSome) (hhome : s.homeOf a = h)
    (hdone : ((s.washed a e).poisoned a = true → s.poisoned a = true) ∨ (s.washed a e).reloadAt a = none) :
    exec (.washerSector h a e) s = .next ((s.washed a e).washOn h) := by
  have ha : a / 32 * 32 = a := by omega
  have hout : ¬((s.locOf a).isNone || s.homeOf a != h.val) = true := by simp [hhome, Option.isSome_iff_ne_none.1 hloc]
  change execWasherSector h a e s = _
  unfold execWasherSector
  rw [ha]
  extract_lets a' m was s1 f p x s2
  refine congrArg Host.Outcome.next ((if_neg hout).trans ?_)
  have hs2 : s2 = (s.washed a e).washOn h := rfl
  rw [hs2]
  split
  · next hnew =>
    rw [Bool.and_eq_true, Bool.not_eq_true'] at hnew
    obtain ⟨hold, hpoisoned⟩ := hnew
    obtain hsame | hnone := hdone
    · exact absurd ((hsame hpoisoned).symm.trans hold) nofun
    · split
      · next hsome => exact absurd (hnone.symm.trans hsome) nofun
      · rfl
  · rfl

/-- An uncorrectable sector is poisoned from then on; its bytes stand (R275, R276). -/
theorem State.checkSector_uncorrectable (s : State) (m : Nat) {a : Nat} (kind : BitVec 2) (ha : (s.locOf a).isSome) :
    let t := s.checkSector m a (.uncorrectable kind)
    t.store.mem = s.store.mem ∧ t.store.reloads = s.store.reloads ∧ t.poisoned a = true := by
  unfold State.checkSector
  dsimp only
  split
  · next hp => exact ⟨rfl, rfl, hp⟩
  · generalize hx : s.setCtrl m _ = x
    have hst : x.store = s.store := by rw [← hx, State.setCtrl_store]
    have hxa : (x.locOf a).isSome := by rw [State.locOf_of_regions (congrArg Store.regions hst)]; exact ha
    refine ⟨?_, ?_, ?_⟩
    · rw [State.store_warn, State.mem_setPoison, hst]
    · rw [State.store_warn, State.reloads_setPoison, hst]
    · rw [State.poisoned_of_store (State.store_warn _ _) a]
      exact State.poisoned_setPoison_true hxa

/-! Repairs (R284). -/

/-- The poisoned sectors of a stripe are rewritten one after the other: none of them is poisoned then. -/
theorem State.rewrite_heals {f : State → Nat → State} {sector : Nat → Nat}
    (hf : ∀ (s : State) (i : Nat), s.heals (f s i) ∧ (f s i).poisoned (sector i) = false) (is : List Nat) (s : State) :
    s.heals (is.foldl f s) ∧ ∀ i ∈ is, (is.foldl f s).poisoned (sector i) = false := by
  induction is generalizing s with
  | nil => exact ⟨State.heals.refl s, nofun⟩
  | cons j is ih =>
    obtain ⟨hj, hjs⟩ := hf s j
    obtain ⟨his, hall⟩ := ih (f s j)
    refine ⟨hj.trans his, fun i hi => ?_⟩
    obtain rfl | hi := List.mem_cons.1 hi
    · exact his.poisoned hjs
    · exact hall i hi

/-- A repair leaves no sector of its stripe poisoned, whatever the waiters of the stripe then do. -/
theorem State.repairDone_clean (s : State) (h : Nat) (r : Repair) (bytes : Nat → List Byte) {i : Nat} (hi : i < r.len / 32) :
    (State.settle (s.repairDone h r bytes)).poisoned (r.stripe + 32 * i) = false := by
  unfold State.repairDone
  extract_lets bad s1 _ s2 m k
  obtain ⟨hheals, hbad⟩ : s.heals s1 ∧ ∀ i ∈ bad, s1.poisoned (r.stripe + 32 * i) = false := by
    refine State.rewrite_heals (sector := fun i => r.stripe + 32 * i) (fun t i => ?_) bad s
    obtain ⟨mem, hput⟩ := t.putMem_shape (bytes i) (r.stripe + 32 * i)
    obtain ⟨hset, hclean⟩ := (t.putMem (r.stripe + 32 * i) (bytes i)).heals_setPoison_false (r.stripe + 32 * i)
    have hheal : t.heals (t.putMem (r.stripe + 32 * i) (bytes i)) := by
      rw [hput]
      exact State.heals.refl t
    exact ⟨(hheal.trans hset).trans (State.heals_of_store rfl), hclean⟩
  have hs1 : s1.poisoned (r.stripe + 32 * i) = false := by
    cases hp : s.poisoned (r.stripe + 32 * i) with
    | false => exact hheals.poisoned hp
    | true => exact hbad i (List.mem_filter.2 ⟨List.mem_range.2 hi, hp⟩)
  have hk : k.1.store = s1.store := by
    unfold k m s2
    rw [State.store_nextRepair, State.store_releaseStripe, State.store_note]
    rfl
  exact ((State.heals_of_store hk).trans (State.heals_settle (k.1, m.2 ++ k.2))).poisoned hs1

/-- A whole Tier 3 copy completes the repair with the bytes of flash. -/
theorem exec_repairComplete_flash {h : HalfIdx} {x : Repair} {src : ReloadSource} {a : Nat} (hx : (s.half h).repair = some x)
    (hsrc : SMap.get none s.store.reloads x.source = some src) (hcopy : x.copyAddr src = some (false, a)) :
    exec (.repairComplete h true) s = .next (State.settle (s.repairDone h x fun i => s.flashBytes (a + 32 * i) 32)) := by
  change execRepairComplete h true s = _
  simp [execRepairComplete, hx, hsrc, hcopy]

end Controllers

/-- Settles O38: a controller takes the operation out of its queue and serves it from memory; a read without allocation, like a page read,
reaches the tile memory of its descriptor; and after the rewrite of a stripe nothing poisons a sector again. -/
theorem memoryAndFlash : Obligations.MemoryAndFlash := by
  unfold Obligations.MemoryAndFlash
  refine ⟨?controllers, fun s id r => ⟨fun bytes hreq hop hplace hlen hturn hcheck => ?pageWrite,
    fun off len a c ndl hreq hop hplace hc hturn hcheck => ?pageRead, fun h a hal hloc hhome => ⟨?washed, fun kind hreload => ?poisons⟩,
    fun h x src a hx hsrc hcopy => ?repair⟩⟩
  case controllers =>
    rintro s m x rfl
    refine ⟨fun a bytes poison hnext => ?write, fun a mask hnext => ?fetch, fun a op type accs k hk hnext => ?mend,
      fun id r hreq hplace hm hb hroom hcheck => ?needleRead, fun bucket id r c off len a ndl hb hreq hid hop hc hp hq => ?burst⟩
    case write =>
      obtain ⟨t, hserve, hst, hcores, hqueue, -⟩ := (s.takes m (.write a bytes poison)).serveMem_write m a bytes poison .good
      refine ⟨t, (exec_memcRequest hnext).trans (by rw [hserve, State.settle_nil]), ?_, ?_, ?_⟩
      · exact hst.trans (State.setPoison_store (State.putMem_store bytes (s.store_takes m _) a) a poison)
      · rw [hqueue, State.ctrl_setPoison, State.ctrl_putMem, State.ctrl_takes_self]
      · rw [hcores, State.cores_setPoison, State.cores_putMem]
        rfl
    case fetch =>
      obtain ⟨t, hserve, hst, hcores, hqueue, bytes, hdone, hbytes⟩ := (s.takes m (.fetch a mask)).serveMem_fetch m a mask
      rw [State.ctrl_takes_self] at hqueue hdone
      exact ⟨t, (exec_memcRequest hnext).trans (by rw [hserve, State.settle_nil]), hst, hcores, hqueue, bytes, hdone, hbytes⟩
    case mend =>
      obtain ⟨hst, hcores, hqueue, -⟩ := ((s.takes m _).mend_sector m a op type accs hk).trans (State.counts_activates _ m)
      refine ⟨_, exec_menderApply hnext, ?_, ?_, hst.trans (State.putMem_store _ (s.store_takes m _) _)⟩
      · rw [hcores, State.cores_putMem]
        rfl
      · rw [hqueue, State.ctrl_putMem, State.ctrl_takes_self]
    case needleRead =>
      rw [← hm] at hb hroom ⊢
      refine ⟨_, exec_needleRead hreq hplace hb hroom hcheck, s.onlyCtrl_setCtrl _ _, ?_⟩
      rw [State.ctrl_setCtrl_self]
      exact SMap.get_set_self _ _ _ _
    case burst =>
      obtain ⟨counters, hexec⟩ := exec_needleBucketIssue_one hb hreq hq
      rw [State.readUncached_tile (s := s.setCtrl m _) hop hc hp, State.settle_nil, hid] at hexec
      refine ⟨_, hexec, rfl, State.gone_dropReq _ id, ?_, ?_⟩
      · exact (congrArg (fun x : MemCtrl => SMap.get [] x.buckets bucket) (s.ctrl_setCtrl_self m _)).trans
          (SMap.get_set_self [] (s.ctrl m).buckets bucket [])
      · rw [State.updCore_eq, State.core_setCore_self]
        rfl
  case pageWrite => exact ⟨_, exec_flashWriteAccept hreq hop hplace hlen hturn hcheck, State.gone_dropReq _ id, rfl, rfl⟩
  case pageRead =>
    refine ⟨_, exec_flashReadComplete_tile hreq hop hplace hc hturn hcheck, State.gone_dropReq _ id, rfl, ?_⟩
    rw [State.updCore_eq, State.core_setCore_self]
    rfl
  case washed =>
    refine ⟨_, exec_washerSector hal hloc hhome (.inl fun hp => hp), rfl, rfl, ?_⟩
    have hctrl : ((s.washed a .good).washOn h).ctrl (s.ctrlOf a) = (s.ctrl (s.ctrlOf a)).count 0x100 1 := s.ctrl_memCount_self _ _ _
    rw [hctrl]
    exact (SMap.get_bump _ _ _ _).trans (by rw [if_pos rfl]; rfl)
  case poisons =>
    obtain ⟨hmem, hreloads, hpoisoned⟩ := (s.memCount (s.ctrlOf a) 0x100 1).checkSector_uncorrectable (s.ctrlOf a) kind hloc
    have hnone : (s.washed a (.uncorrectable kind)).reloadAt a = none := (State.reloadAt_of_reloads hreloads a).trans hreload
    exact ⟨_, exec_washerSector hal hloc hhome (.inr hnone), hmem, hpoisoned⟩
  case repair =>
    exact ⟨_, exec_repairComplete_flash hx hsrc hcopy, fun i hi => s.repairDone_clean h x _ hi⟩

end Sys2Proof.Machine

/-! Commands that set a value, bounded settings and staging (R277, R293, R310, R354 to R361, R406, R513, R527 to R529, R540). -/

namespace Sys2Proof.Machine

section Passing

/-! A command in progress that passes checks 5 and 6 (R349). -/

theorem firstBad_eq_none_iff {bad : List (Bool × Nat)} : firstBad bad = none ↔ ∀ e ∈ bad, e.1 = false := by
  have step : ∀ (l : List (Bool × Nat)) (best : Option Nat),
      l.foldl (fun best e => if e.1 then (match best with | some b => some (Nat.min b e.2) | none => some e.2) else best) best = none →
        best = none ∧ ∀ e ∈ l, e.1 = false := by
    intro l
    induction l with
    | nil => exact fun best h => ⟨h, by simp⟩
    | cons e l ih =>
      intro best h
      obtain ⟨hbest, hl⟩ := ih _ h
      cases he : e.1 with
      | true => cases best <;> simp [he] at hbest
      | false => exact ⟨by simpa [he] using hbest, by simpa [he] using hl⟩
  exact ⟨fun h => (step bad none h).2, firstBad_eq_none⟩

variable {s u : State} {c : Cmd} {opcode len : Nat} {zero : List (Nat × Nat)} {f : Cmd → Reply} {args bad rules : List (Bool × Nat)}
  {payload : List Byte}

/-- The arguments fail nowhere when neither the named ones nor the reserved ranges do. -/
theorem State.doing_args (h : s.doing c opcode len zero) (ha : ∀ e ∈ args, e.1 = false) : ∀ e ∈ args ++ c.reserved zero, e.1 = false := by
  obtain ⟨-, -, -, -, hzero⟩ := h
  exact fun e he => (List.mem_append.1 he).elim (ha e) (hzero e)

/-- The response of a command that passes is that of its effect, with its payload. -/
theorem State.answered_of_check (h : s.doing c opcode len zero) (hf : f c = c.check len bad rules (.ok payload u))
    (hb : ∀ e ∈ bad, e.1 = false) (hr : ∀ e ∈ rules, e.1 = false) : u.answered (s.run opcode f) c 0 payload := by
  obtain ⟨-, hdiscard, -, hlen, -⟩ := id h
  rw [s.run_doing h, hf, Cmd.check_passes hlen hb hr]
  exact u.answered_respond c stSuccess payload hdiscard

theorem State.answered_of_args (h : s.doing c opcode len zero) (hf : f c = c.check len (args ++ c.reserved zero) rules (.ok payload u))
    (ha : ∀ e ∈ args, e.1 = false) (hr : ∀ e ∈ rules, e.1 = false) : u.answered (s.run opcode f) c 0 payload :=
  State.answered_of_check h hf (State.doing_args h ha) hr

end Passing

section Performed

/-! What an answer leaves of the state in which a command has had its effect. -/

/-- Command `c` is answered over the effect `x`: of the firmware's record only the management session and its events differ. -/
structure State.Performed (x t : State) (c : Cmd) : Prop where
  done  : (t.mbx c.mbx).state = 2
  cores : t.cores = x.cores
  store : t.store = x.store
  fw    : { t.fw with session := x.fw.session, eventNo := x.fw.eventNo, events := x.fw.events } = x.fw

variable {x t : State} {c : Cmd}

theorem State.performed_of_answered {status : Nat} {payload : List Byte} (h : x.answered t c status payload) : x.Performed t c := by
  obtain ⟨-, hstate, -, -, -, -, hrest⟩ := h
  exact ⟨hstate, (congrArg State.cores hrest :), (congrArg State.store hrest :), (congrArg State.fw hrest :)⟩

theorem State.Performed.closeSession (h : x.Performed t c) : x.Performed t.closeSession c := ⟨h.done, h.cores, h.store, h.fw⟩

theorem State.Performed.used (h : x.Performed t c) : t.fw.used = x.fw.used := (congrArg Firmware.used h.fw :)
theorem State.Performed.audit (h : x.Performed t c) : t.fw.audit = x.fw.audit := (congrArg Firmware.audit h.fw :)
theorem State.Performed.floor (h : x.Performed t c) : t.fw.floor = x.fw.floor := (congrArg Firmware.floor h.fw :)
theorem State.Performed.pairId (h : x.Performed t c) : t.fw.pairId = x.fw.pairId := (congrArg Firmware.pairId h.fw :)
theorem State.Performed.mgmtId (h : x.Performed t c) : t.fw.mgmtId = x.fw.mgmtId := (congrArg Firmware.mgmtId h.fw :)
theorem State.Performed.darn (h : x.Performed t c) : t.fw.darn = x.fw.darn := (congrArg Firmware.darn h.fw :)
theorem State.Performed.patch (h : x.Performed t c) : t.fw.patch = x.fw.patch := (congrArg Firmware.patch h.fw :)

end Performed

section Values

/-! The commands that set one value. -/

variable {s : State} {c : Cmd}

theorem State.setSource_time (s : State) (src domain : Nat) :
    (s.setSource src domain).time.source = src ∧ (s.setSource src domain).time.domain = domain ∧
      (s.setSource src domain).time.master = s.time.master := by
  unfold State.setSource
  by_cases hsame : src = s.time.source
  · simp [hsame]
  · cases hstate : s.time.state <;> simp [hsame, hstate]

/-- A state that differs from `s` in the meridian and an answer alone. -/
theorem State.answered_rest_time {u t : State} {status : Nat} {payload : List Byte} (h : u.answered t c status payload)
    (hu : { u with time := s.time } = s) : { t with time := s.time, valac := s.valac, out := s.out, host := s.host, fw := s.fw } = s := by
  obtain ⟨-, -, -, -, -, -, hrest⟩ := h
  rw [← hrest] at hu
  exact (congrArg (fun x : State => { x with valac := s.valac, out := s.out, host := s.host, fw := s.fw }) hu :)

theorem meridianSource_sets (hcommit : s.committing = false) (hd : s.doing c 0x0500 4 [(2, 2)]) (hsrc : c.arg 0 1 ≤ 2) (hdom : c.arg 1 1 ≤ 127)
    (htwin : s.twin.state ≠ .paired) :
    ∃ t, exec .meridianSource s = .next t ∧ { t with time := s.time, valac := s.valac, out := s.out, host := s.host, fw := s.fw } = s ∧
      t.time.source = c.arg 0 1 ∧ t.time.domain = c.arg 1 1 ∧ t.time.master = s.time.master ∧ (t.mbx c.mbx).state = 2 := by
  obtain ⟨t, hexec, hans⟩ : ∃ t, exec .meridianSource s = .next t ∧ (s.setSource (c.arg 0 1) (c.arg 1 1)).answered t c 0 [] := by
    refine ⟨_, rfl, State.answered_of_args hd rfl ?_ ?_⟩
    · simp [hsrc, hdom]
    · simp [hcommit, htwin]
  have hsame := State.answered_rest_time (s := s) hans rfl
  obtain ⟨-, hstate, -, -, -, -, hrest⟩ := hans
  have htime : t.time = (s.setSource (c.arg 0 1) (c.arg 1 1)).time := (congrArg State.time hrest :)
  obtain ⟨hsource, hdomain, hmaster⟩ := s.setSource_time (c.arg 0 1) (c.arg 1 1)
  exact ⟨t, hexec, hsame, htime ▸ hsource, htime ▸ hdomain, htime ▸ hmaster, hstate⟩

theorem powerLimit_answered {p : Power} (hcommit : s.committing = false) (hd : s.doing c 0x0600 4 []) (hlow : 1500 ≤ c.arg 0 4)
    (hhigh : c.arg 0 4 ≤ 6800) (hp : p = if c.role = 2 then { s.power with limitC := c.arg 0 4 } else { s.power with limitM := c.arg 0 4 }) :
    ∃ t, exec .powerLimit s = .next t ∧ (s.withLimits p).answered t c 0 (leBytes 4 p.limit) := by
  subst hp
  refine ⟨_, rfl, State.answered_of_check hd rfl ?_ ?_⟩
  · simp [hlow, hhigh]
  · simp [hcommit]

theorem rinseRamp_answered {p : Power} (hcommit : s.committing = false) (hd : s.doing c 0x0601 4 [(2, 2)]) (hlow : 5 ≤ c.arg 0 2)
    (hhigh : c.arg 0 2 ≤ 200) (hp : p = if c.role = 2 then { s.power with rampC := c.arg 0 2 } else { s.power with rampM := c.arg 0 2 }) :
    ∃ t, exec .rinseRamp s = .next t ∧ ({ s with power := p } : State).answered t c 0 (leBytes 2 p.ramp ++ leBytes 2 0) := by
  subst hp
  refine ⟨_, rfl, State.answered_of_args hd rfl ?_ ?_⟩
  · simp [hlow, hhigh]
  · simp [hcommit]

theorem pstepRange_answered {x : Part} (hd : s.doing c 0x0602 4 [(2, 2)]) (hx : s.part (c.arg 0 1) = some x) (hmin : c.arg 1 1 ≤ 15)
    (hbusy : s.partBusy (c.arg 0 1) = false) :
    ∃ t, exec .pstepRange s = .next t ∧ (s.setPart (c.arg 0 1) (some { x with pstepMin := c.arg 1 1 })).answered t c 0 [] := by
  have hset : (s.part (c.arg 0 1)).map (fun x => { x with pstepMin := c.arg 1 1 }) = some { x with pstepMin := c.arg 1 1 } := by rw [hx]; rfl
  rw [← hset]
  refine ⟨_, rfl, State.answered_of_args hd rfl ?_ ?_⟩
  · simp [hx, hmin]
  · simp [hbusy]

theorem setTimeouts_answered (hd : s.doing c 0x0240 8 [(2, 2)]) (htarget : c.arg 0 2 ≤ 1000) (hpri : c.arg 4 4 ≤ 60000) :
    ∃ t, exec .setTimeouts s = .next t ∧
      ({ s with xlat := { s.xlat with targetTimeout := if c.arg 0 2 = 0 then s.xlat.targetTimeout else c.arg 0 2,
                                      priTimeout := if c.arg 4 4 = 0 then s.xlat.priTimeout else c.arg 4 4 } } : State).answered t c 0
        (leBytes 2 (if c.arg 0 2 = 0 then s.xlat.targetTimeout else c.arg 0 2) ++ leBytes 2 0 ++
          leBytes 4 (if c.arg 4 4 = 0 then s.xlat.priTimeout else c.arg 4 4)) := by
  refine ⟨_, rfl, State.answered_of_args hd rfl ?_ ?_⟩
  · simp [htarget, hpri]
  · simp

theorem washPeriodSet_answered (hd : s.doing c 0x0242 4 [(1, 3)]) (hlow : 2 ≤ c.arg 0 1) (hhigh : c.arg 0 1 ≤ 168) :
    ∃ t, exec .washPeriodSet s = .next t ∧
      ({ s with store := { s.store with washHours := c.arg 0 1 } } : State).answered t c 0 (leBytes 4 (c.arg 0 1)) := by
  refine ⟨_, rfl, State.answered_of_args hd rfl ?_ ?_⟩
  · simp [show ¬ c.arg 0 1 < 2 by omega, hhigh]
  · simp

theorem ctxSetWatchdog_answered {x : Ctx} (hd : s.doing c 0x0112 8 [(2, 2)]) (hx : s.ctxById (c.arg 0 2) = some x)
    (hf : s.foreignTo c x.partition = false) (hl : s.locked (.ctx (c.arg 0 2)) = false) :
    ∃ t, exec .ctxSetWatchdog s = .next t ∧
      (s.setCtx (c.arg 0 2 % 1024) { s.ctx (c.arg 0 2 % 1024) with watchdog := BitVec.ofNat 32 (c.arg 4 4) }).answered t c 0 [] := by
  refine ⟨_, rfl, State.answered_of_args hd rfl ?_ ?_⟩
  · simp [State.noCtx_eq_false hx hf]
  · simp [hl]

theorem reloadRemove_answered {x : ReloadSource} (hd : s.doing c 0x0221 4 [(1, 3)]) (hx : SMap.get none s.store.reloads (c.arg 0 1) = some x) :
    ∃ t, exec .reloadRemove s = .next t ∧
      ({ s with store := { s.store with reloads := SMap.set none s.store.reloads (c.arg 0 1) none } } : State).answered t c 0 [] := by
  refine ⟨_, rfl, State.answered_of_args hd rfl ?_ ?_⟩
  · simp [hx]
  · simp

end Values

section Tables

/-! The commands that set one entry of a table. -/

variable {s : State} {c : Cmd}

/-- A format that no walked context names is replaced by the descriptor of its bytes (R293, R294). -/
theorem formatSet_answered (hd : s.doing c 0x0210 72 [(2, 6)]) (hn : c.arg 0 1 ≤ 7) (hset : c.arg 1 1 = 0)
    (hbad : firstBad (badFormat ((c.payload.drop 8).take 64)) = none)
    (hfree : ∀ e ∈ s.xlat.ctxs, e.2.state ≠ 0 → e.2.ats = true ∨ e.2.fmt ≠ c.arg 0 1) {x : FormatDesc}
    (hx : x = formatOf ((c.payload.drop 8).take 64)) :
    ∃ t, exec .formatSet s = .next t ∧
      ({ s with xlat := { s.xlat with formats := SMap.set {} s.xlat.formats (c.arg 0 1) x } } : State).answered t c 0 [] := by
  have hunnamed : (s.xlat.ctxs.any fun e => e.2.state != 0 && !e.2.ats && e.2.fmt == c.arg 0 1) = false := by
    rw [List.any_eq_false]
    intro e he
    have hother := hfree e he
    grind
  have hdesc : ∀ e ∈ (badFormat ((c.payload.drop 8).take 64)).map fun e => (e.1, e.2 + 8), e.1 = false := by
    simpa using fun b o h => firstBad_eq_none_iff.1 hbad (b, o) h
  refine ⟨_, rfl, State.answered_of_check
    (bad := [(decide (7 < c.arg 0 1), 0), (decide (1 < c.arg 1 1), 1)] ++ c.reserved [(2, 6)] ++
      (badFormat ((c.payload.drop 8).take 64)).map fun e => (e.1, e.2 + 8))
    (rules := [(s.xlat.ctxs.any fun e => e.2.state != 0 && !e.2.ats && e.2.fmt == c.arg 0 1, stBusy)]) hd ?_ ?_ ?_⟩
  · simp [hset, hx]
  · rw [List.forall_mem_append]
    exact ⟨State.doing_args hd (by simp [hn, hset]), hdesc⟩
  · simp [hunnamed]

/-- While no launch runs, nobody keeps access to a share group after its change (R281). -/
theorem State.setShare_idle (hidle : ∀ l ∈ s.work.launches, l.running = false) (g loader : Nat) (mask : BitVec 64) :
    s.setShare g loader mask =
      { s with store := { s.store with shares := SMap.set {} s.store.shares g { members := mask, loader := some loader } } } := by
  have hactive : ∀ p, s.partActive p = false := by
    intro p
    rw [State.partActive, List.any_eq_false]
    intro l hl
    simp [hidle l hl]
  unfold State.setShare
  cases hloader : (s.share g).loader <;> simp [hactive, hloader]

theorem shareGroupSet_answered (hd : s.doing c 0x0202 16 [(2, 6)]) (hg : c.arg 0 1 ≤ 15) (hp : (s.part (c.arg 1 1)).isSome)
    (hbusy : ∀ q, s.partBusy q = false) (hidle : ∀ l ∈ s.work.launches, l.running = false) {x : ShareGroup}
    (hx : x = { members := BitVec.ofNat 64 (c.arg 8 8), loader := some (c.arg 1 1) }) :
    ∃ t, exec .shareGroupSet s = .next t ∧
      ({ s with store := { s.store with shares := SMap.set {} s.store.shares (c.arg 0 1) x } } : State).answered t c 0 [] := by
  subst hx
  rw [← State.setShare_idle hidle]
  refine ⟨_, rfl, State.answered_of_args hd rfl ?_ ?_⟩
  · simp [hg, hp]
  · simp [hbusy]

/-- A free entry takes a source whose one copy lies in Tier 3 (R283). -/
theorem reloadAdd_answered (hd : s.doing c 0x0220 48 [(1, 7), (0x1A, 6)]) (hi : c.arg 0 1 ≤ 63) (ha : c.arg 8 8 % 2097152 = 0)
    (hn : c.arg 0x10 8 % 2097152 = 0) (hclass : addrClass (c.arg 8 8) ≠ .tier3) (hone : inOneTier (c.arg 8 8) (c.arg 0x10 8) = true)
    (hmap : s.allMapped (c.arg 8 8) (c.arg 0x10 8) = true) (hone' : inOneTier (c.arg 8 8) 2097152 = true)
    (hmap' : s.allMapped (c.arg 8 8) 2097152 = true) (hkind : c.arg 0x18 1 = 1) (hsecond : c.arg 0x19 1 = 0)
    (hpage : c.arg 0x20 8 % 16384 = 0) (hflash : addrClass (c.arg 0x20 8) = .tier3) (hcopy : inOneTier (c.arg 0x20 8) (c.arg 0x10 8) = true)
    (hfree : SMap.get none s.store.reloads (c.arg 0 1) = none) {x : ReloadSource}
    (hx : x = { base := c.arg 8 8, len := c.arg 0x10 8, copies := [(false, c.arg 0x20 8)] }) :
    ∃ t, exec .reloadAdd s = .next t ∧
      ({ s with store := { s.store with reloads := SMap.set none s.store.reloads (c.arg 0 1) (some x) } } : State).answered t c 0 [] := by
  have hcopies : (if c.arg 0x18 1 = 0 then [] else [(c.arg 0x18 1 == 2, c.arg 0x20 8)]) ++
      (if c.arg 0x19 1 = 0 then [] else [(c.arg 0x19 1 == 2, c.arg 0x28 8)]) = [(false, c.arg 0x20 8)] := by simp [hkind, hsecond]
  rw [hx, ← hcopies]
  refine ⟨_, rfl, State.answered_of_args hd rfl ?_ ?_⟩
  · simp [granuleBytes, hi, ha, hn, hclass, hone, hmap, hone', hmap', hkind, hsecond, hpage, hflash, hcopy]
  · simp [hfree]

end Tables

section Bounded

/-! Bounded settings (R527 to R529): a request changes nothing, meets a spent bound, or is counted once. -/

variable {s t : State} {c : Cmd} {i : Nat} {value : List Byte} {fw : Firmware}

/-- A counted change is in the record `fw`, its count and one entry at the end of the audit log. -/
theorem State.counted_fw (s : State) (c : Cmd) (i : Nat) (value : List Byte) (fw : Firmware) : ∃ old e,
    (s.counted c i value fw).fw =
      { fw with used := SMap.set 0 fw.used i (SMap.get 0 s.fw.used i + 1), audit := old ++ [e], nextAudit := fw.nextAudit + 1 } ∧
    e.setting = i ∧ e.opcode = c.opcode ∧ e.role = c.role ∧ e.used = SMap.get 0 s.fw.used i + 1 :=
  ⟨_, _, rfl, rfl, rfl, rfl, rfl⟩

/-- What an answered change of setting `i` has counted, and the record that it has left. -/
theorem State.performed_counted (h : (s.counted c i value fw).Performed t c) (hused : fw.used = s.fw.used) :
    (t.mbx c.mbx).state = 2 ∧ t.cores = s.cores ∧ t.store = s.store ∧
    (∀ k, SMap.get 0 t.fw.used k = SMap.get 0 s.fw.used k + if k = i then 1 else 0) ∧
    (∃ e, t.fw.audit.getLast? = some e ∧ e.setting = i ∧ e.opcode = c.opcode ∧ e.role = c.role ∧ e.used = SMap.get 0 s.fw.used i + 1) ∧
    t.fw.floor = fw.floor ∧ t.fw.pairId = fw.pairId ∧ t.fw.mgmtId = fw.mgmtId := by
  obtain ⟨old, e, hfw, he⟩ := s.counted_fw c i value fw
  have hcount : t.fw.used = SMap.set 0 s.fw.used i (SMap.get 0 s.fw.used i + 1) := by rw [h.used, hfw, ← hused]
  have haudit : t.fw.audit = old ++ [e] := by rw [h.audit, hfw]
  refine ⟨h.done, h.cores, h.store, fun k => ?_, ⟨e, by rw [haudit, List.getLast?_concat], he⟩, ?_, ?_, ?_⟩
  · rw [hcount, SMap.get_set]
    by_cases hk : i = k
    · simp [hk]
    · simp [hk, Ne.symm hk]
  · rw [h.floor, hfw]
  · rw [h.pairId, hfw]
  · rw [h.mgmtId, hfw]

/-- A command whose operation goes on at once, performed and answered. -/
theorem State.runThen_doing {opcode len : Nat} {zero : List (Nat × Nat)} (h : s.doing c opcode len zero) (f : Cmd → Reply)
    (after : Cmd → State → State) :
    s.runThen opcode f after = match f c with
      | .err status detail => s.respond c status detail []
      | .ok payload s1 => after c (s1.respond c stSuccess 0 payload) := by
  obtain ⟨hcur, -, hop, -⟩ := h
  cases hf : f c <;> simp only [State.runThen, hcur, hop, hf, ne_eq, not_true_eq_false, if_false]

theorem State.run_eq_runThen (s : State) (opcode : Nat) (f : Cmd → Reply) : s.run opcode f = s.runThen opcode f fun _ t => t := by
  unfold State.run State.runThen
  cases s.valac.cur with
  | none => rfl
  | some c => rfl

/-- The last rule of a bounded setting is its bound. -/
theorem Cmd.check_bound {len : Nat} {bad rules : List (Bool × Nat)} {ok : Reply} (spent : Bool) (hl : c.payload.length = len)
    (hb : ∀ e ∈ bad, e.1 = false) (hr : ∀ e ∈ rules, e.1 = false) :
    c.check len bad (rules ++ [(spent, stExhausted)]) ok = if spent then .err stExhausted 0 else ok := by
  have hf : rules.find? (·.1) = none := List.find?_eq_none.2 fun e he => by simp [hr e he]
  cases spent <;> simp [Cmd.check, hl, firstBad_eq_none hb, List.find?_append, hf]

/-- What a command of setting `i` answers: `same` says that the value asked for holds already, and `fw` is the record with the new value. -/
structure State.BoundAnswers (s : State) (instr : Instr) (c : Cmd) (i : Nat) (same : Bool) (value : List Byte) (fw : Firmware) : Prop where
  unchanged : same = true → ∃ t, exec instr s = .next t ∧ s.Performed t c
  spent     : same = false → boundLimit i ≤ SMap.get 0 s.fw.used i → ∃ t, exec instr s = .next t ∧ s.answered t c 7 []
  counted   : same = false → SMap.get 0 s.fw.used i < boundLimit i →
    ∃ t, exec instr s = .next t ∧ (s.counted c i value fw).Performed t c

/-- A command of a bounded setting that passes every rule before its bound. -/
theorem State.boundAnswers_of_check {opcode len : Nat} {zero : List (Nat × Nat)} {instr : Instr} {f : Cmd → Reply}
    {after : Cmd → State → State} {bad rules : List (Bool × Nat)} {same : Bool} (h : s.doing c opcode len zero)
    (hexec : exec instr s = .next (s.runThen opcode f after))
    (hf : f c = c.check len bad (rules ++ [(!same && s.exhausted i, stExhausted)]) (s.boundCmd c i same value fw id))
    (hb : ∀ e ∈ bad, e.1 = false) (hr : ∀ e ∈ rules, e.1 = false)
    (hafter : ∀ x t, State.Performed x t c → x.Performed (after c t) c) : s.BoundAnswers instr c i same value fw := by
  obtain ⟨-, hdiscard, -, hlen, -⟩ := id h
  rw [Cmd.check_bound _ hlen hb hr] at hf
  have hok (u : State) : u.Performed (after c (u.respond c stSuccess 0 [])) c :=
    hafter _ _ (State.performed_of_answered (u.answered_respond c stSuccess [] hdiscard))
  rw [s.runThen_doing h, hf] at hexec
  refine ⟨?unchanged, ?spent, ?counted⟩
  case unchanged =>
    rintro rfl
    exact ⟨_, hexec, hok s⟩
  case spent =>
    rintro rfl hlimit
    have hspent : s.exhausted i = true := decide_eq_true hlimit
    rw [hspent] at hexec
    exact ⟨_, hexec, s.answered_respond c stExhausted [] hdiscard⟩
  case counted =>
    rintro rfl hlimit
    have hspent : s.exhausted i = false := decide_eq_false (Nat.not_le.2 hlimit)
    rw [hspent] at hexec
    exact ⟨_, hexec, hok (s.counted c i value fw)⟩

/-- The same of a command that ends with its response. -/
theorem State.boundAnswers_of_run {opcode len : Nat} {zero : List (Nat × Nat)} {instr : Instr} {f : Cmd → Reply} {bad rules : List (Bool × Nat)}
    {same : Bool} (h : s.doing c opcode len zero) (hexec : exec instr s = .next (s.run opcode f))
    (hf : f c = c.check len bad (rules ++ [(!same && s.exhausted i, stExhausted)]) (s.boundCmd c i same value fw id))
    (hb : ∀ e ∈ bad, e.1 = false) (hr : ∀ e ∈ rules, e.1 = false) : s.BoundAnswers instr c i same value fw :=
  State.boundAnswers_of_check h (hexec.trans (congrArg _ (s.run_eq_runThen opcode f))) hf hb hr fun _ _ hx => hx

/-- The three answers in the counts, the audit log and the values that they leave. -/
theorem State.BoundAnswers.outcomes {instr : Instr} {op : Nat} {same : Bool} {holds : Prop} (h : s.BoundAnswers instr c i same value fw)
    (hop : c.opcode = op) (hsame : same = true ↔ holds) (hused : fw.used = s.fw.used) :
    (holds → ∃ t, exec instr s = .next t ∧ (t.mbx c.mbx).state = 2 ∧ t.fw.used = s.fw.used ∧ t.fw.audit = s.fw.audit) ∧
    (¬ holds → boundLimit i ≤ SMap.get 0 s.fw.used i → ∃ t, exec instr s = .next t ∧ s.answered t c 7 []) ∧
    (¬ holds → SMap.get 0 s.fw.used i < boundLimit i →
      ∃ t, exec instr s = .next t ∧ (t.mbx c.mbx).state = 2 ∧ t.cores = s.cores ∧ t.store = s.store ∧
        (∀ k, SMap.get 0 t.fw.used k = SMap.get 0 s.fw.used k + if k = i then 1 else 0) ∧
        (∃ e, t.fw.audit.getLast? = some e ∧ e.setting = i ∧ e.opcode = op ∧ e.role = c.role ∧ e.used = SMap.get 0 s.fw.used i + 1) ∧
        t.fw.floor = fw.floor ∧ t.fw.pairId = fw.pairId ∧ t.fw.mgmtId = fw.mgmtId) := by
  subst hop
  have hnew (hs : ¬ holds) : same = false := Bool.eq_false_iff.2 (mt hsame.1 hs)
  refine ⟨fun hs => ?_, fun hs => h.spent (hnew hs), fun hs hleft => ?_⟩
  · obtain ⟨t, hexec, ht⟩ := h.unchanged (hsame.2 hs)
    exact ⟨t, hexec, ht.done, ht.used, ht.audit⟩
  · obtain ⟨t, hexec, ht⟩ := h.counted (hnew hs) hleft
    exact ⟨t, hexec, State.performed_counted ht hused⟩

/-! The settings that hold one value. -/

theorem secFloorRaise_boundAnswers (hcommit : s.committing = false) (htwin : s.twin.state ≠ .paired) (hd : s.doing c 0x0802 4 [(1, 3)])
    (hlow : s.fw.floor ≤ c.arg 0 1) (hhigh : c.arg 0 1 ≤ s.fw.running.secver) :
    s.BoundAnswers .secFloorRaise c 0 (c.arg 0 1 == s.fw.floor) (leBytes 1 (c.arg 0 1)) { s.fw with floor := c.arg 0 1 } := by
  refine State.boundAnswers_of_run hd rfl (rules := [(_, stNotPermitted), (s.committing, stBusy)]) rfl (State.doing_args hd ?_) ?_
  · simp [hlow]
  · simp [hcommit, hhigh, htwin]

theorem pairIdSet_boundAnswers (hcommit : s.committing = false) (htwin : s.twin.state ≠ .paired) (hd : s.doing c 0x0803 64 []) :
    s.BoundAnswers .pairIdSet c 1 (s.fw.pairId == some c.payload) c.payload { s.fw with pairId := some c.payload } := by
  have htwin' : (s.counted c 1 c.payload { s.fw with pairId := some c.payload }).twin.state ≠ .paired := htwin
  refine State.boundAnswers_of_run hd rfl (bad := []) (rules := [(s.committing, stBusy)]) ?_ (by simp) (by simp [hcommit])
  simp only [State.boundCmd, htwin', if_false]
  rfl

theorem mgmtIdLock_boundAnswers (hcommit : s.committing = false) (hd : s.doing c 0x0806 64 [(0x11, 15)]) (hlen : c.arg 0x10 1 ≤ 128)
    (hzero : zeroAt c.payload 0 16 = true → c.arg 0x10 1 = 0) :
    s.BoundAnswers .mgmtIdLock c 4 (decide (0 < SMap.get 0 s.fw.used 4) && s.fw.mgmtId == c.payload) c.payload { s.fw with mgmtId := c.payload } := by
  refine State.boundAnswers_of_check hd rfl (rules := [(s.committing, stBusy)]) rfl (State.doing_args hd ?_) (by simp [hcommit]) ?_
  · cases hz : zeroAt c.payload 0 16 with
    | false => simp [hlen]
    | true => simp [hzero hz]
  · intro x t h
    split
    · split
      · exact h
      · exact h.closeSession
    · exact h

end Bounded

section Amendments

/-! The two lists that only grow (R527): one new entry is appended and counted. -/

variable {s : State} {c : Cmd}

theorem Cmd.arg_lt (c : Cmd) (off n : Nat) : c.arg off n < 2 ^ (8 * n) :=
  (leNat_lt _).trans_le (Nat.pow_le_pow_right (by omega) (Nat.mul_le_mul_left 8 (List.length_take_le n _)))

/-- The first byte of a field is the lowest. -/
theorem fieldAt_succ (bs : List Byte) (off n : Nat) : fieldAt bs off (n + 1) = fieldAt bs off 1 + 256 * fieldAt bs (off + 1) n := by
  unfold fieldAt
  rw [← List.drop_drop]
  cases bs.drop off with
  | nil => simp [leNat]
  | cons b bs => simp [leNat]

/-- A setting's list after an answered change. -/
theorem State.BoundAnswers.counted_lists {instr : Instr} {i : Nat} {value : List Byte} {fw : Firmware}
    (h : s.BoundAnswers instr c i false value fw) (hleft : SMap.get 0 s.fw.used i < boundLimit i) (hused : fw.used = s.fw.used) :
    ∃ t, exec instr s = .next t ∧ (t.mbx c.mbx).state = 2 ∧ t.fw.darn = fw.darn ∧ t.fw.patch = fw.patch ∧
      SMap.get 0 t.fw.used i = SMap.get 0 s.fw.used i + 1 := by
  obtain ⟨t, hexec, ht⟩ := h.counted rfl hleft
  obtain ⟨hstate, -, -, hcount, -⟩ := State.performed_counted ht hused
  exact ⟨t, hexec, hstate, ht.darn, ht.patch, by simp [hcount]⟩

/-- A wire word within its ranges, with no reserved bit set (R327). -/
theorem darnWord_fields {v : Nat} (hv : v < 2 ^ 32) (hlow : v % 8192 = 4096) :
    (BitVec.ofNat 32 v).toNat = v ∧ (BitVec.ofNat 32 v)[12] = true ∧ bitsOf v 0 12 = 0 := by
  have htoNat : (BitVec.ofNat 32 v).toNat = v := by rw [BitVec.toNat_ofNat, Nat.mod_eq_of_lt hv]
  refine ⟨htoNat, ?_, ?_⟩
  · rw [← BitVec.getLsbD_eq_getElem, BitVec.getLsbD, htoNat, Nat.testBit_eq_decide_div_mod_eq, decide_eq_true_eq]
    omega
  · unfold bitsOf
    omega

theorem darnAmend_appends (hcommit : s.committing = false) (hd : s.doing c 0x0804 8 [(2, 2)]) (hn : c.arg 0 2 = 1)
    (hbundle : bitsOf (c.arg 4 4) 27 5 ≤ 20) (hgroup : bitsOf (c.arg 4 4) 18 8 ≤ 191) (hpos : bitsOf (c.arg 4 4) 13 5 ≤ 16)
    (hlow : c.arg 4 4 % 8192 = 4096) (hroom : s.fw.darn.length < 4096) (hleft : SMap.get 0 s.fw.used 2 < 32)
    (hnew : ∀ w ∈ s.fw.darn, darnWire w ≠ darnWire (BitVec.ofNat 32 (c.arg 4 4))) :
    ∃ t, exec .darnAmend s = .next t ∧ (t.mbx c.mbx).state = 2 ∧ t.fw.darn = s.fw.darn ++ [BitVec.ofNat 32 (c.arg 4 4)] ∧
      SMap.get 0 t.fw.used 2 = SMap.get 0 s.fw.used 2 + 1 := by
  obtain ⟨htoNat, hbit, hzero⟩ := darnWord_fields (c.arg_lt 4 4) hlow
  have hunlisted : ¬ ∃ w ∈ s.fw.darn, darnWire w = darnWire (BitVec.ofNat 32 (c.arg 4 4)) := fun ⟨w, hw, heq⟩ => hnew w hw heq
  have hanswers : s.BoundAnswers .darnAmend c 2 false (c.payload.drop 4) { s.fw with darn := s.fw.darn ++ [BitVec.ofNat 32 (c.arg 4 4)] } := by
    refine State.boundAnswers_of_run hd rfl
      (rules := [(s.committing, stBusy), (decide (4096 < s.fw.darn.length + 1), stNoResources)])
      (bad := [(false, 0)] ++ c.reserved [(2, 2)] ++ [(false, 4)]) ?_ ?_ ?_
    · simp [hn, hunlisted, List.eraseDups_cons, htoNat, Nat.not_lt.2 hbundle, Nat.not_lt.2 hgroup, Nat.not_lt.2 hpos, hbit, hzero]
    · rw [List.forall_mem_append]
      exact ⟨State.doing_args hd (by simp), by simp⟩
    · simp [hcommit, hroom]
  obtain ⟨t, hexec, hstate, hdarn, -, hcount⟩ := State.BoundAnswers.counted_lists hanswers hleft rfl
  exact ⟨t, hexec, hstate, hdarn, hcount⟩

/-- The two bytes of an array's position (R361). -/
theorem Cmd.arrayField (hx : c.arg 2 1 ≤ 39) (hy : c.arg 3 1 ≤ 15) :
    bitsOf (c.arg 2 2) 0 6 = c.arg 2 1 ∧ bitsOf (c.arg 2 2) 8 4 = c.arg 3 1 ∧ bitsOf (c.arg 2 2) 6 2 = 0 ∧ bitsOf (c.arg 2 2) 12 4 = 0 := by
  have hbytes : c.arg 2 2 = c.arg 2 1 + 256 * c.arg 3 1 := fieldAt_succ c.payload 2 1
  unfold bitsOf
  omega

theorem patchAmend_appends {k : CoreIdx} (hcommit : s.committing = false) (hd : s.doing c 0x0805 4 []) (hn : c.arg 0 2 = 1)
    (hx : c.arg 2 1 ≤ 39) (hy : c.arg 3 1 ≤ 15) (hk : coreAt (c.arg 2 1) (c.arg 3 1) = some k) (hnew : k.val ∉ s.fw.patch)
    (hleft : SMap.get 0 s.fw.used 3 < 16) :
    ∃ t, exec .patchAmend s = .next t ∧ (t.mbx c.mbx).state = 2 ∧ t.fw.patch = s.fw.patch ++ [k.val] ∧
      SMap.get 0 t.fw.used 3 = SMap.get 0 s.fw.used 3 + 1 := by
  obtain ⟨hcol, hrow, hlow, hhigh⟩ := Cmd.arrayField hx hy
  have hanswers : s.BoundAnswers .patchAmend c 3 false (c.payload.drop 2) { s.fw with patch := s.fw.patch ++ [k.val] } := by
    refine State.boundAnswers_of_run hd rfl (rules := [(s.committing, stBusy)]) (bad := [(false, 0), (false, 2)]) ?_ (by simp)
      (by simp [hcommit])
    simp [hn, hcol, hrow, hlow, hhigh, hk, hnew, List.eraseDups_cons, Nat.not_lt.2 hx]
  obtain ⟨t, hexec, hstate, -, hpatch, hcount⟩ := State.BoundAnswers.counted_lists hanswers hleft rfl
  exact ⟨t, hexec, hstate, hpatch, hcount⟩

end Amendments

section Staging

/-! Staging and the logbook (R513, R540). -/

variable {s : State} {c : Cmd}

theorem fwStage_answered {n : Nat} (hcommit : s.committing = false) (hd : s.doing c 0x0800 (8 + n) []) (hn : n = c.arg 4 4) (hpos : 0 < n)
    (hmax : n ≤ 4056) (hend : c.arg 0 4 + n ≤ 67108864) (hclaim : s.fw.claim = some c.mbx) (hoff : c.arg 0 4 ≠ 0) :
    ∃ t, exec .fwStage s = .next t ∧ ({ s with fw := { s.fw with
      staged := SMap.putBytes s.fw.staged (c.arg 0 4) ((c.payload.drop 8).take n), claimIdle := s.time.beats } } : State).answered t c 0 [] := by
  subst hn
  refine ⟨_, rfl, State.answered_of_check
    (bad := [(decide (0x4000000 < c.arg 0 4 + c.arg 4 4), 0), (decide (c.arg 4 4 = 0 || 4056 < c.arg 4 4), 4)])
    (rules := [(s.fw.claim.isNone && c.arg 0 4 != 0, stNotPermitted), (s.committing, stBusy)]) hd ?_ ?_ ?_⟩
  · simp [hclaim, hoff]
  · simp [hend, hmax, Nat.ne_of_gt hpos]
  · simp [hclaim, hcommit]

theorem fwStageClaimTimeout_discards (hcommit : s.committing = false) (hclaim : s.fw.claim.isSome)
    (hidle : s.fw.claimIdle + 60000000 ≤ s.time.beats) (hloader : s.fw.recovery = false) :
    exec .fwStageClaimTimeout s = .next { s with fw := { s.fw with claim := none, staged := [] } } := by
  have harea : s.fw.area = s.fw.flash := by simp [Firmware.area, hloader]
  change execFwStageClaimTimeout s = _
  simp [execFwStageClaimTimeout, State.endClaim, hclaim, hcommit, hidle, harea]

theorem logFlush_flushes (hcommit : s.committing = false) (hstandby : s.sys.standby = true) (hdropped : s.log.dropped = 0)
    (hroom : s.log.flash.length + s.log.held.length ≤ 262144) :
    exec .logFlush s = .next { s with log := { s.log with flash := s.log.flash ++ s.log.held, held := [] } } := by
  have hring : logRing (s.log.flash ++ s.log.held) = s.log.flash ++ s.log.held := by simp [logRing, Nat.sub_eq_zero_of_le hroom]
  change execLogFlush s = _
  simp [execLogFlush, hcommit, hstandby, hdropped, hring]

end Staging

/-- Settles O44: a command that passes its checks is answered over its effect, and one of a bounded setting has the three answers of
`State.BoundAnswers`. -/
theorem settings : Obligations.Settings := by
  unfold Obligations.Settings
  refine ⟨fun s c hcommit => ⟨?source, fun p => ?limit, fun p => ?ramp, fun x => ?pstep, ?timeouts, ?wash, ?format, ?watchdog, ?share,
    fun x => ?remove, ?add⟩, fun s c hcommit htwin => ⟨?bounded, ?darn, fun k => ?patch, fun n => ?stage, ?timeout, ?flush⟩⟩
  case source => exact meridianSource_sets hcommit
  case limit => exact powerLimit_answered hcommit
  case ramp => exact rinseRamp_answered hcommit
  case pstep => exact pstepRange_answered
  case timeouts => exact setTimeouts_answered
  case wash => exact washPeriodSet_answered
  case format => exact fun hd hn hset hbad hfree x => formatSet_answered hd hn hset hbad hfree
  case watchdog =>
    rintro x i hd hx rfl hf hl
    exact ctxSetWatchdog_answered hd hx hf hl
  case share => exact fun hd hg hp hbusy hidle x => shareGroupSet_answered hd hg hp hbusy hidle
  case remove => exact reloadRemove_answered
  case add =>
    exact fun hd hi ha hn hclass hone hmap hone' hmap' hkind hsecond hpage hflash hcopy hfree x =>
      reloadAdd_answered hd hi ha hn hclass hone hmap hone' hmap' hkind hsecond hpage hflash hcopy hfree
  case bounded =>
    rintro i limit instr op len zero args same hmem rfl rfl hd hargs
    obtain ⟨-, -, hop, -⟩ := id hd
    simp only [List.mem_cons, Prod.mk.injEq, List.not_mem_nil, or_false] at hmem
    obtain ⟨rfl, rfl, rfl, rfl, rfl, rfl⟩ | ⟨rfl, rfl, rfl, rfl, rfl, rfl⟩ | ⟨rfl, rfl, rfl, rfl, rfl, rfl⟩ := hmem
    · obtain ⟨hlow, hhigh⟩ := hargs
      exact State.BoundAnswers.outcomes (secFloorRaise_boundAnswers hcommit htwin hd hlow hhigh) hop (by simp) rfl
    · exact State.BoundAnswers.outcomes (pairIdSet_boundAnswers hcommit htwin hd) hop (by simp) rfl
    · obtain ⟨hlen, hzero⟩ := hargs
      exact State.BoundAnswers.outcomes (mgmtIdLock_boundAnswers hcommit hd hlen hzero) hop (by simp) rfl
  case darn => exact darnAmend_appends hcommit
  case patch => exact patchAmend_appends hcommit
  case stage => exact fwStage_answered hcommit
  case timeout => exact fun hclaim hidle hloader => ⟨_, fwStageClaimTimeout_discards hcommit hclaim hidle hloader, rfl⟩
  case flush => exact fun hstandby hdropped hroom => ⟨_, logFlush_flushes hcommit hstandby hdropped hroom, rfl⟩

end Sys2Proof.Machine

/-! Contexts and pinned windows: creation, removal, PIN, UNPIN and INVALIDATE (R288 to R290, R302 to R307). -/

namespace Sys2Proof.Machine

section Sweeps

/-! A mode 1 sweep moves lines of the cache halves and queues operations at the controllers: both stand in the fabric (R223). -/

variable {r s t : State}

/-- Only the fabric may differ. -/
def State.onlyFab (s t : State) : Prop := ∃ fab, t = { s with fab }

theorem State.onlyFab.refl (s : State) : s.onlyFab s := ⟨_, rfl⟩

theorem State.onlyFab.trans (h : r.onlyFab s) (h' : s.onlyFab t) : r.onlyFab t := by
  obtain ⟨fab, rfl⟩ := h
  obtain ⟨fab', rfl⟩ := h'
  exact ⟨fab', rfl⟩

theorem State.onlyFab_foldl {α : Type} {f : State → α → State} (hf : ∀ (s : State) (a : α), s.onlyFab (f s a)) (as : List α) (s : State) :
    s.onlyFab (as.foldl f s) :=
  List.foldlRecOn (motive := s.onlyFab) as f (State.onlyFab.refl s) fun t ht a _ => ht.trans (hf t a)

theorem State.onlyFab_setHalf (s : State) (h : Nat) (x : Half) : s.onlyFab (s.setHalf h x) := ⟨_, rfl⟩
theorem State.onlyFab_pushMem (s : State) (a : Nat) (op : MemOp) : s.onlyFab (s.pushMem a op) := ⟨_, rfl⟩
theorem State.onlyFab_emptyWay (s : State) (h key : Nat) : s.onlyFab (s.emptyWay h key) := ⟨_, rfl⟩

theorem State.onlyFab_cacheCount (s : State) (h p off n : Nat) : s.onlyFab (s.cacheCount h p off n) := by
  unfold State.cacheCount
  dsimp only
  split
  · exact State.onlyFab.refl s
  · exact s.onlyFab_setHalf h _

theorem State.onlyFab_writeDirty (s : State) (h key : Nat) : s.onlyFab (s.writeDirty h key) :=
  State.onlyFab.trans (State.onlyFab_foldl (fun t _ => (t.onlyFab_pushMem _ _).trans (State.onlyFab_cacheCount _ h _ _ _)) _ s)
    (State.onlyFab_setHalf _ h _)

theorem State.onlyFab_reduceWriteback (s : State) (h key : Nat) : s.onlyFab (s.reduceWriteback h key) :=
  ((s.onlyFab_pushMem _ _).trans (State.onlyFab_cacheCount _ h _ _ _)).trans (State.onlyFab_emptyWay _ h key)

theorem State.onlyFab_dropReplica (s : State) (h key : Nat) : s.onlyFab (s.dropReplica h key) := by
  unfold State.dropReplica
  dsimp only
  split
  · exact s.onlyFab_setHalf h _
  · exact (s.onlyFab_cacheCount h _ _ _).trans (State.onlyFab_setHalf _ h _)

theorem State.onlyFab_sweepCtx (s : State) (h ctx : Nat) : s.onlyFab (s.sweepCtx h ctx) := by
  refine State.onlyFab_foldl (fun t key => ?_) _ s
  dsimp only
  cases ((t.half h).line key).state with
  | dirty => exact (t.onlyFab_writeDirty h key).trans (State.onlyFab_setHalf _ h _)
  | accumulate =>
    dsimp only
    split
    · exact State.onlyFab.refl t
    · exact t.onlyFab_reduceWriteback h key
  | replica => exact t.onlyFab_dropReplica h key
  | rfill => exact t.onlyFab_dropReplica h key
  | fill | hold =>
    dsimp only
    split
    · exact State.onlyFab.refl t
    · exact t.onlyFab_writeDirty h key
  | _ => exact State.onlyFab.refl t

theorem State.onlyFab_sweepCtxAll (s : State) (ctx : Nat) : s.onlyFab (s.sweepCtxAll ctx) :=
  State.onlyFab_foldl (fun t h => t.onlyFab_sweepCtx h ctx) _ s

end Sweeps

section TranslationCaches

/-! Entries leave the translation caches by a selection of those that stay (R290, R305). -/

variable {s t x : State} {c : Cmd}

/-- The translation caches with the entries that `keep` names alone. -/
def State.keepEntries (s : State) (keep : TlbEntry → Bool) : State :=
  { s with cores := SMap.mapV {} s.cores fun _ k => { k with utlb := k.utlb.filter keep, dtlb := k.dtlb.filter keep },
           xlat := { s.xlat with l2 := SMap.mapV [] s.xlat.l2 fun _ l => l.filter keep } }

theorem State.caches_keepEntries (s : State) (keep : TlbEntry → Bool) (e : TlbEntry) :
    (s.keepEntries keep).caches e ↔ s.caches e ∧ keep e = true := by
  have hl2 (h : Nat) : (s.keepEntries keep).l2tlb h = (s.l2tlb h).filter keep := SMap.get_mapV _ _ _ _ rfl
  have hcore (c : Nat) : (s.keepEntries keep).core c = { s.core c with
      utlb := (s.core c).utlb.filter keep, dtlb := (s.core c).dtlb.filter keep } := SMap.get_mapV _ _ _ _ rfl
  simp only [State.caches, hl2, hcore, ← List.filter_append, List.mem_filter, exists_and_right, ← or_and_right]

theorem State.dropPinned_eq (s : State) (ctx lo len : Nat) :
    s.dropPinned ctx lo len = s.keepEntries fun e => !(e.pinned && e.ctx == ctx && meets e.va e.size lo len) := rfl

/-- The tables of translation are as a command's effect left them when it is answered. -/
theorem State.xlat_of_answered {status : Nat} {payload : List Byte} (h : x.answered t c status payload) : t.xlat = x.xlat := by
  obtain ⟨-, -, -, -, -, -, hrest⟩ := h
  exact (congrArg State.xlat hrest :)

theorem State.keepsCaches_of_answered {status : Nat} {payload : List Byte} (h : x.answered t c status payload) : x.keepsCaches t :=
  ⟨(State.performed_of_answered h).store, (State.performed_of_answered h).cores, congrArg (·.l2) (State.xlat_of_answered h)⟩

theorem State.ctx_of_xlat (h : t.xlat = x.xlat) (i : Nat) : t.ctx i = x.ctx i := by unfold State.ctx; rw [h]
theorem State.row_of_xlat (h : t.xlat = x.xlat) (n : Nat) : t.row n = x.row n := by unfold State.row; rw [h]

end TranslationCaches

section Contexts

/-! CTX_CREATE and CTX_DESTROY. -/

variable {s : State} {c : Cmd}

theorem lowestFree_eq_some {n i : Nat} {used : Nat → Bool} (hi : i < n) (hfree : used i = false) (hlow : ∀ j, j < i → used j = true) :
    lowestFree n used = some i := by
  rw [lowestFree, List.find?_range_eq_some]
  exact ⟨by simp [hfree], List.mem_range.2 hi, fun j hj => by simp [hlow j hj]⟩

theorem State.ctx_of_ctxById {id : Nat} {x : Ctx} (h : s.ctxById id = some x) : s.ctx (id % 1024) = x := by
  unfold State.ctxById ctxSlot at h
  dsimp only at h
  split at h
  · exact Option.some.inj h
  · simp at h

/-- The context that a CTX_CREATE asks for, with its generation. -/
def Cmd.newCtx (c : Cmd) (gen : Nat) : Ctx :=
  { gen, state := 1, partition := c.arg 0 1, pasid := c.arg 4 4, fn := c.arg 1 1, ats := c.arg 2 1 == 1,
    fmt := if c.arg 2 1 == 1 then 0 else c.arg 3 1, root := if c.arg 2 1 == 1 then 0 else c.arg 8 8, attrMap := BitVec.ofNat 64 (c.arg 0x10 8),
    granule := c.arg 0x18 1, windows := [], watchdog := BitVec.ofNat 32 (c.arg 0x1C 4) }

/-- An accepted CTX_CREATE answers the identifier of its context, which stands in the lowest free slot (R288, R289). -/
theorem ctxCreate_answered {i gen : Nat} {x : Part} (hd : s.doing c 0x0110 32 [(0x19, 3)]) (hx : s.part (c.arg 0 1) = some x)
    (hforeign : s.foreignTo c (c.arg 0 1) = false) (hbusy : s.partBusy (c.arg 0 1) = false) (hfn : c.arg 1 1 = 0 ∨ c.arg 1 1 = x.fn)
    (htenant : c.role = 1 → c.arg 1 1 = c.mbx - 1 ∧ c.arg 2 1 = 1) (hats : c.arg 2 1 ≤ 1)
    (hwalked : c.arg 2 1 = 0 → c.arg 3 1 ≤ 7 ∧ (s.format (c.arg 3 1)).valid = true) (hpasid : c.arg 4 4 < 2 ^ 20)
    (hnew : ∀ e ∈ s.xlat.ctxs, e.2.state ≠ 0 → e.2.fn = c.arg 1 1 → e.2.pasid ≠ c.arg 4 4) (hgranule : c.arg 0x18 1 ≤ 2)
    (hattr : ∀ k, k < 8 → c.arg (0x10 + k) 1 ≤ 2) (hslot : lowestFree 1024 (fun i => !s.slotFree i) = some i)
    (hgen : gen = ((s.ctx i).gen + 1) % 64) :
    ∃ t, exec .ctxCreate s = .next t ∧ (s.setCtx i (c.newCtx gen)).answered t c 0 (leBytes 2 (gen * 1024 + i) ++ leBytes 2 0) := by
  have hsome : (lowestFree 1024 fun i => !s.slotFree i).isNone = false := by rw [hslot]; rfl
  obtain rfl : (lowestFree 1024 fun i => !s.slotFree i).getD 0 = i := by rw [hslot]; rfl
  subst hgen
  have huntaken : (s.xlat.ctxs.any fun e => e.2.state != 0 && e.2.fn == c.arg 1 1 && e.2.pasid == c.arg 4 4) = false := by
    rw [List.any_eq_false]
    intro e he
    simpa using hnew e he
  have hbound : ((c.arg 1 1 != 0 && c.arg 1 1 != x.fn) || (c.role == 1 && c.arg 1 1 != c.mbx - 1)) = false := by
    rw [Bool.or_eq_false_iff]
    refine ⟨?_, ?_⟩
    · rcases hfn with h | h <;> simp [h]
    · simpa using fun h => (htenant h).1
  have hkind : c.arg 2 1 = 0 ∨ c.arg 2 1 = 1 := by omega
  have hformat : (!(c.arg 2 1 == 1) && (decide (7 < c.arg 3 1) || !(s.format (c.arg 3 1)).valid)) = false := by
    rcases hkind with h | h
    · simp [hwalked h]
    · simp [h]
  have hpermitted : (!(c.arg 2 1 == 1) && c.role == 1) = false := by
    simpa using fun h h' => h (htenant h').2
  refine ⟨_, rfl, State.answered_of_args hd rfl ?args ?rules⟩
  case args =>
    rw [List.forall_mem_append]
    refine ⟨?_, by simpa using hattr⟩
    simp only [hx, hbound, hformat, huntaken]
    simpa [State.noPart, hx, hforeign, hats, hgranule] using hpasid
  case rules => simp [hpermitted, hbusy, hsome]

/-- The caches lose the entries of a removed context, its slot keeps the generation, and the other slots stand (R288, R290). -/
theorem State.removeCtx_xlat (s : State) (id : Nat) :
    (s.removeCtx id).ctx (id % 1024) = { gen := (s.ctx (id % 1024)).gen } ∧ (∀ i, i ≠ id % 1024 → (s.removeCtx id).ctx i = s.ctx i) ∧
      (s.keepEntries fun e => e.ctx != id).keepsCaches (s.removeCtx id) := by
  unfold State.removeCtx ctxSlot
  extract_lets keep cores l2 wc _ s1
  obtain ⟨fab, hsweep⟩ := s1.onlyFab_sweepCtxAll id
  rw [hsweep]
  exact ⟨State.ctx_setCtx_self _ _ _, fun i hi => (State.ctx_setCtx _ _ _ i).trans (if_neg (Ne.symm hi)), rfl, rfl, rfl⟩

/-- An accepted CTX_DESTROY leaves of its context the generation of the slot. -/
theorem ctxDestroy_removes {x : Ctx} (hd : s.doing c 0x0111 4 [(2, 2)]) (hx : s.ctxById (c.arg 0 2) = some x)
    (hforeign : s.foreignTo c x.partition = false) (hunlocked : s.locked (.ctx (c.arg 0 2)) = false)
    (hlaunches : ∀ l ∈ s.work.launches, l.ctx = c.arg 0 2 → l.pending = false) (hqueues : s.queuesOf (c.arg 0 2) = [])
    (hcores : s.coresOf (c.arg 0 2) = []) :
    ∃ t, exec .ctxDestroy s = .next t ∧ (t.mbx c.mbx).state = 2 ∧ t.ctx (c.arg 0 2 % 1024) = { gen := x.gen } ∧
      (∀ e, t.caches e → e.ctx ≠ c.arg 0 2) ∧ ∀ i, i ≠ c.arg 0 2 % 1024 → t.ctx i = s.ctx i := by
  have hended : (s.work.launches.any fun l => l.ctx == c.arg 0 2 && l.pending) = false := by
    rw [List.any_eq_false]
    intro l hl
    simpa using hlaunches l hl
  obtain ⟨t, hexec, hans⟩ : ∃ t, exec .ctxDestroy s = .next t ∧ (s.removeCtx (c.arg 0 2)).answered t c 0 [] := by
    refine ⟨_, rfl, State.answered_of_args hd rfl ?_ ?_⟩
    · simp [State.noCtx_eq_false hx hforeign]
    · simp [hunlocked, hended, hqueues, hcores]
  obtain ⟨hslot, hothers, hcaches⟩ := s.removeCtx_xlat (c.arg 0 2)
  rw [State.ctx_of_ctxById hx] at hslot
  have hctx := State.ctx_of_xlat (State.xlat_of_answered hans)
  refine ⟨t, hexec, (State.performed_of_answered hans).done, (hctx _).trans hslot, fun e he => ?_, fun i hi => (hctx i).trans (hothers i hi)⟩
  rw [(hcaches.trans (State.keepsCaches_of_answered hans)).caches, State.caches_keepEntries] at he
  simpa using he.2

end Contexts

section Windows

/-! PIN, UNPIN and INVALIDATE. -/

variable {s u : State} {c : Cmd} {x : Ctx}

/-- A command whose operation goes on at once passes, and its operation goes on from the state that answers it. -/
theorem State.runThen_of_args {opcode len : Nat} {zero : List (Nat × Nat)} {instr : Instr} {f : Cmd → Reply} {after : Cmd → State → State}
    {args rules : List (Bool × Nat)} {payload : List Byte} (h : s.doing c opcode len zero) (hexec : exec instr s = .next (s.runThen opcode f after))
    (hf : f c = c.check len (args ++ c.reserved zero) rules (.ok payload u)) (ha : ∀ e ∈ args, e.1 = false) (hr : ∀ e ∈ rules, e.1 = false) :
    ∃ t, exec instr s = .next (after c t) ∧ u.answered t c 0 payload := by
  obtain ⟨-, hdiscard, -, hlen, -⟩ := id h
  refine ⟨u.respond c stSuccess 0 payload, ?_, u.answered_respond c stSuccess payload hdiscard⟩
  rw [hexec, s.runThen_doing h, hf, Cmd.check_passes hlen (State.doing_args h ha) hr]

/-- The row of a PIN's translation. -/
def Cmd.pinRow (c : Cmd) (op : Nat) : XRow :=
  { dma := none, pin := some { op, start := c.arg 8 8, last := c.arg 8 8 + c.arg 0x10 8, leaves := [], failed := none },
    ctx := c.arg 0 2, va := c.arg 8 8, write := c.arg 2 1 == 1, state := .translate, asked := false, skip := 0 }

theorem State.sendAts_keeps (s : State) (die : Nat) (r : XRow) :
    (s.sendAts die r).valac = s.valac ∧ (s.sendAts die r).xlat.rows = s.xlat.rows := by
  unfold State.sendAts
  split
  · split
    · exact ⟨rfl, rfl⟩
    · exact ⟨rfl, rfl⟩
  · exact ⟨rfl, rfl⟩

/-- An accepted PIN is an operation, and its row is the next one (R302). -/
theorem pin_begins (hd : s.doing c 0x0211 24 [(3, 5)]) (hx : s.ctxById (c.arg 0 2) = some x) (hforeign : s.foreignTo c x.partition = false)
    (hunlocked : s.locked (.ctx (c.arg 0 2)) = false) (hwrite : c.arg 2 1 ≤ 1) (hstart : c.arg 8 8 % s.granuleOf x = 0)
    (hlen : c.arg 0x10 8 % s.granuleOf x = 0) (hpos : c.arg 0x10 8 ≠ 0) (hend : c.arg 8 8 + c.arg 0x10 8 ≤ 2 ^ 64)
    (hapart : ∀ w ∈ x.windows, meets w.va w.len (c.arg 8 8) (c.arg 0x10 8) = false) (hroom : s.windowsFull (c.arg 0 2) = false)
    (hops : s.opsFull c = false) :
    ∃ t, exec .pin s = .next t ∧ s.began t c s.xlat.nextRow ∧ t.row s.xlat.nextRow = some (c.pinRow s.valac.nextOp) := by
  have hctx : s.ctx (ctxSlot (c.arg 0 2)) = x := State.ctx_of_ctxById hx
  have hover : (x.windows.any fun w => meets w.va w.len (c.arg 8 8) (c.arg 0x10 8)) = false := by
    rw [List.any_eq_false]
    intro w hw
    simp [hapart w hw]
  obtain ⟨u, hexec, hans⟩ : ∃ u, exec .pin s = .next
      ((({ u with xlat := { u.xlat with nextRow := s.xlat.nextRow + 1 } } : State).setRow s.xlat.nextRow
        (some (c.pinRow s.valac.nextOp))).sendAts 0 (c.pinRow s.valac.nextOp)) ∧ (s.startOp c s.xlat.nextRow).answered u c 0 [] := by
    refine State.runThen_of_args (instr := .pin) hd rfl rfl ?_ ?_
    · simpa [State.noCtx_eq_false hx hforeign, hctx, hstart, hlen, hpos, hwrite, hover] using hend
    · simp [hunlocked, hroom, hops]
  obtain ⟨hcur, hstate, -, -, -, hvalac, -⟩ := hans
  have hopen : { id := s.valac.nextOp, cmd := c, arg := s.xlat.nextRow } ∈ u.valac.ops :=
    (congrArg Valac.ops hvalac).symm ▸ List.mem_append_right s.valac.ops (List.mem_singleton_self _)
  refine ⟨_, hexec, ?_, ?_⟩
  · unfold State.began State.mbx
    rw [(State.sendAts_keeps _ _ _).1]
    exact ⟨hcur, hstate, _, hopen, rfl, rfl, rfl⟩
  · unfold State.row
    rw [(State.sendAts_keeps _ _ _).2]
    exact State.row_setRow_self _ _ _

/-- An accepted UNPIN leaves the other windows, and no pinned leaf of the context in its window's range (R305). -/
theorem unpin_removes {w : Window} (hd : s.doing c 0x0212 16 [(2, 6)]) (hx : s.ctxById (c.arg 0 2) = some x)
    (hforeign : s.foreignTo c x.partition = false) (hunlocked : s.locked (.ctx (c.arg 0 2)) = false)
    (hw : (x.windows.find? fun y => y.va == c.arg 8 8) = some w) (hruns : s.ctxRuns (c.arg 0 2) = false) :
    ∃ t, exec .unpin s = .next t ∧ (t.mbx c.mbx).state = 2 ∧
      t.ctx (c.arg 0 2 % 1024) = { x with windows := x.windows.filter fun y => y.va != c.arg 8 8 } ∧
      (∀ e, t.caches e → e.pinned = true → e.ctx = c.arg 0 2 → meets e.va e.size (c.arg 8 8) w.len = false) ∧ t.store = s.store := by
  have hctx : s.ctx (ctxSlot (c.arg 0 2)) = x := State.ctx_of_ctxById hx
  have hmem : (x.windows.any fun y => y.va == c.arg 8 8) = true :=
    List.any_eq_true.2 ⟨w, List.mem_of_find?_eq_some hw, List.find?_some (p := fun y : Window => y.va == c.arg 8 8) hw⟩
  obtain ⟨t, hexec, hans⟩ : ∃ t, exec .unpin s = .next t ∧
      ((s.setCtx (c.arg 0 2 % 1024) { x with windows := x.windows.filter fun y => y.va != c.arg 8 8 }).dropPinned
        (c.arg 0 2) (c.arg 8 8) w.len).answered t c 0 [] := by
    refine ⟨_, rfl, State.answered_of_args hd (by simp only [hctx, hw]; rfl) ?_ ?_⟩
    · simp [State.noCtx_eq_false hx hforeign, hmem]
    · simp [hunlocked, hruns]
  rw [State.dropPinned_eq] at hans
  have hperformed := State.performed_of_answered hans
  refine ⟨t, hexec, hperformed.done, ?_, fun e he hpinned hectx => ?_, hperformed.store⟩
  · exact (State.ctx_of_xlat (State.xlat_of_answered hans) _).trans (State.ctx_setCtx_self _ _ _)
  · rw [(State.keepsCaches_of_answered hans).caches, State.caches_keepEntries] at he
    simpa [hpinned, hectx] using he.2

/-- The state after steps 1 and 2 of R307 for INVALIDATE. -/
def State.invalidated (s : State) (c : Cmd) : State := s.countInval.invalidateCtx (c.arg 0 2) (c.arg 8 8) (c.arg 0x10 8)

theorem exec_invalidate {len : Nat} {zero : List (Nat × Nat)} (hd : s.doing c 0x0213 len zero) : exec .invalidate s = .next (s.invalidateCmd c) := by
  obtain ⟨hcur, -, hop, -⟩ := hd
  change execInvalidate s = _
  simp only [execInvalidate, hcur, hop, if_true]

/-- An INVALIDATE that passes its checks is answered when step 3 of R307 is done already, and waits for it otherwise. -/
theorem invalidate_first (hd : s.doing c 0x0213 24 [(2, 6)]) (hx : s.ctxById (c.arg 0 2) = some x)
    (hforeign : s.foreignTo c x.partition = false) (hunlocked : s.locked (.ctx (c.arg 0 2)) = false)
    (hend : c.arg 8 8 + c.arg 0x10 8 ≤ 2 ^ 64) (hfirst : c.begun = none) :
    exec .invalidate s = .next (
      if (s.invalidated c).invalDrained [c.arg 0 2] (s.invalidated c).fab.nextReq then (s.invalidated c).respond c stSuccess 0 []
      else { s.invalidated c with
        valac := { (s.invalidated c).valac with cur := some { c with begun := some (s.invalidated c).fab.nextReq } } }) := by
  obtain ⟨-, -, -, hlen, -⟩ := id hd
  have hpass : c.check 24 ([(s.noCtx c (c.arg 0 2), 0), (decide (2 ^ 64 < c.arg 8 8 + c.arg 0x10 8), 0x10)] ++ c.reserved [(2, 6)])
      [(s.locked (.ctx (c.arg 0 2)), stBusy)] (.ok [] s) = .ok [] s :=
    Cmd.check_passes hlen (State.doing_args hd (by simpa [State.noCtx_eq_false hx hforeign] using hend)) (by simp [hunlocked])
  rw [exec_invalidate hd]
  simp only [State.invalidateCmd, hfirst, hpass]
  rfl

theorem invalidate_drained {n len : Nat} {zero : List (Nat × Nat)} (hd : s.doing c 0x0213 len zero) (hbegun : c.begun = some n)
    (hdone : s.invalDrained [c.arg 0 2] n = true) : exec .invalidate s = .next (s.respond c stSuccess 0 []) := by
  rw [exec_invalidate hd]
  simp only [State.invalidateCmd, hbegun, hdone, if_true]

end Windows

section PinEnds

/-! The end of a PIN (R302). -/

variable {s : State} {o : Op} {r : XRow} {w : PinWalk}

theorem exec_pinComplete (h : s.pinEnded = some (o, r, w)) : exec .pinComplete s = .next (s.endPin o r w) := by
  change execPinComplete s = _
  simp only [execPinComplete, h]

/-- The search for an ended PIN answers with the operation that it stands at. -/
theorem State.pinEnded_mem (h : s.pinEnded = some (o, r, w)) : o ∈ s.valac.ops := by
  obtain ⟨o', hmem, ho'⟩ := List.exists_of_findSome?_eq_some h
  have hsame : o' = o := by grind
  exact hsame ▸ hmem

/-- When an operation has ended, the rows and the contexts are those of the state in which it ended. -/
theorem State.opDone_xlat {u : State} (ho : o ∈ u.valac.ops) (status : Nat) (cancelled : Bool) (result : List Byte) :
    (u.opDone o.id status cancelled result).xlat = u.xlat := (congrArg State.xlat (State.opDone_raised ho status cancelled result).2 :)

/-- A PIN that failed leaves no row and no window. -/
theorem State.endPin_failed {f : Nat × Nat} (ho : o ∈ s.valac.ops) (hf : w.failed = some f) :
    (s.endPin o r w).ended o.id ∧ (s.endPin o r w).xlat = (s.setRow o.arg none).xlat := by
  simp only [State.endPin, hf]
  exact ⟨(State.opDone_ends (u := s.setRow o.arg none) ho _ _ _).1, State.opDone_xlat (u := s.setRow o.arg none) ho _ _ _⟩

/-- The window of a finished PIN. -/
def PinWalk.window (w : PinWalk) (writable : Bool) : Window :=
  { va := w.start, len := w.last - w.start, writable, stale := w.stale, leaves := w.leaves }

/-- The context of a finished PIN with the new window. -/
def State.withWindow (s : State) (id : Nat) (w : Window) : State :=
  s.setCtx (ctxSlot id) { s.ctx (ctxSlot id) with windows := (s.ctx (ctxSlot id)).windows ++ [w] }

/-- A PIN that did not fail, within the limits on windows and leaves, adds its window. -/
theorem State.endPin_adds (ho : o ∈ s.valac.ops) (hf : w.failed = none) (hroom : s.windowsFull r.ctx = false)
    (hleaves : s.pinnedLeaves + w.leaves.length ≤ 1048576) :
    (s.endPin o r w).ended o.id ∧ (s.endPin o r w).store = s.store ∧
      (s.endPin o r w).xlat = ((s.setRow o.arg none).withWindow r.ctx (w.window r.write)).xlat := by
  have hfits : ((s.setRow o.arg none).windowsFull r.ctx || decide (1048576 < (s.setRow o.arg none).pinnedLeaves + w.leaves.length)) = false :=
    Bool.or_eq_false_iff.2 ⟨hroom, decide_eq_false (Nat.not_lt.2 hleaves)⟩
  have hends := State.opDone_raised (s := (s.setRow o.arg none).withWindow r.ctx (w.window r.write)) ho stSuccess false []
  have hraised : (((s.setRow o.arg none).withWindow r.ctx (w.window r.write)).withoutOp o.id).raised (s.endPin o r w) := by
    simp only [State.endPin, hf, hfits, Bool.false_eq_true, if_false]
    split
    · exact State.raised_trans hends (State.raised_postPart _ _ _ _)
    · exact hends
  exact ⟨State.ended_of_raised hraised, (State.raised_store hraised :), (congrArg State.xlat hraised.2 :)⟩

end PinEnds

/-- Settles O47: a command that passes its checks is answered over its effect on the tables, and a PIN's end adds its window to its context. -/
theorem contextsAndWindows : Obligations.ContextsAndWindows := by
  unfold Obligations.ContextsAndWindows
  refine fun s c id => ⟨?create, fun x hid hx hforeign hunlocked => ⟨?destroy, ?pin, ?unpin, ?invalidate⟩, fun o r w hended => ?ends⟩
  case create =>
    rintro p fn i x rfl rfl hd hx hforeign hbusy hfn htenant hats hwalked hpasid hnew hgranule hattr hi hfree hlow
    have hslot : lowestFree 1024 (fun i => !s.slotFree i) = some i :=
      lowestFree_eq_some hi (by rw [hfree]; rfl) fun j hj => by rw [hlow j hj]; rfl
    obtain ⟨t, hexec, hans⟩ := ctxCreate_answered hd hx hforeign hbusy hfn htenant hats hwalked hpasid hnew hgranule hattr hslot rfl
    exact ⟨t, _, hexec, hans, rfl, rfl, rfl, rfl, rfl, rfl, rfl, rfl, fun h => by simp [Cmd.newCtx, h]⟩
  case destroy =>
    subst hid
    intro hd hlaunches hqueues hcores
    obtain ⟨t, hexec, hdone, hslot, hgone, hothers⟩ := ctxDestroy_removes hd hx hforeign hunlocked hlaunches hqueues hcores
    exact ⟨t, hexec, hdone, hslot, fun h e he => hgone e (.inl ⟨h, he⟩), fun k e he => hgone e (.inr ⟨k, he⟩), hothers⟩
  case pin =>
    subst hid
    intro hd hwrite hstart hlen hpos hend hapart hroom hops
    obtain ⟨t, hexec, hbegan, hrow⟩ := pin_begins hd hx hforeign hunlocked hwrite hstart hlen hpos hend hapart hroom hops
    exact ⟨t, _, hexec, hbegan, hrow, rfl, rfl, rfl, rfl, rfl, rfl⟩
  case unpin =>
    subst hid
    intro w hd hw hruns
    obtain ⟨t, hexec, hdone, hslot, hgone, hstore⟩ := unpin_removes hd hx hforeign hunlocked hw hruns
    exact ⟨t, hexec, hdone, hslot, fun h e he => hgone e (.inl ⟨h, he⟩), hstore⟩
  case invalidate =>
    subst hid
    intro hd hend
    obtain ⟨-, hdiscard, -⟩ := id hd
    refine ⟨fun x1 hfirst hx1 => ?_, fun n hbegun hdone =>
      ⟨_, invalidate_drained hd hbegun hdone, s.answered_respond c stSuccess [] hdiscard⟩⟩
    obtain rfl : x1 = s.invalidated c := hx1
    have hexec := invalidate_first hd hx hforeign hunlocked hend hfirst
    refine ⟨fun hdone => ?_, fun hwaits => ?_⟩
    · rw [if_pos hdone] at hexec
      exact ⟨_, hexec, State.answered_respond _ c stSuccess [] hdiscard⟩
    · rw [if_neg (by simp [hwaits])] at hexec
      exact ⟨_, hexec, rfl⟩
  case ends =>
    have ho := State.pinEnded_mem hended
    refine ⟨fun f hf => ?_, fun hf hroom hleaves => ?_⟩
    · obtain ⟨hop, hxlat⟩ := State.endPin_failed (r := r) ho hf
      exact ⟨_, exec_pinComplete hended, (State.row_of_xlat hxlat _).trans (State.row_setRow_self _ _ _), hop, State.ctx_of_xlat hxlat _⟩
    · obtain ⟨hop, hstore, hxlat⟩ := State.endPin_adds ho hf hroom hleaves
      refine ⟨_, exec_pinComplete hended, ?_, hop, hstore, ?_⟩
      · exact (State.row_of_xlat hxlat _).trans (s.row_setRow_self o.arg none)
      · rw [State.ctx_of_xlat hxlat]
        exact congrArg Ctx.windows (State.ctx_setCtx_self _ _ _)

end Sys2Proof.Machine

/-! Bundles, the seam and port arbiters: flits, replays, retraining, loss, and cut-offs (R318 to R323, R329, R334). -/

namespace Sys2Proof.Machine

section Reports

/-! What a log entry, a device error and the stop of a launch leave alone. -/

variable {s t : State}

theorem State.raised_links (h : s.raised t) : t.links = s.links := (congrArg State.links h.2 :)
theorem State.bundle_of_links (h : t.links = s.links) (k : Nat) : t.bundle k = s.bundle k :=
  congrArg (fun l : Links => SMap.get ({} : Bundle) l.bundles k) h
theorem State.arb_of_links (h : t.links = s.links) (k : Nat) : t.arb k = s.arb k :=
  congrArg (fun l : Links => SMap.get ({} : Arb) l.arbs k) h
theorem State.raised_sys (h : s.raised t) : t.sys = s.sys := (congrArg State.sys h.2 :)

theorem State.logPut_shape (s : State) (i : LogItem) : (s.logPut i).2 = { s with log := (s.logPut i).2.log } :=
  congrArg (fun u : State => { u with log := (s.logPut i).2.log }) (s.note_rest i)

/-- A warning changes the logbook, and raises an event. -/
theorem State.warn_raised (s : State) (i : LogItem) : ∃ log, ({ s with log } : State).raised (s.warn i) := by
  have hput := s.logPut_shape i
  refine ⟨(s.logPut i).2.log, ?_⟩
  rw [← hput]
  unfold State.warn
  split
  · next n s1 hs =>
    rw [hs]
    exact s1.raised_post _ _ _
  · next s1 hs =>
    rw [hs]
    exact s1.raised_refl

@[simp] theorem State.links_warn (s : State) (i : LogItem) : (s.warn i).links = s.links := by
  obtain ⟨log, h⟩ := s.warn_raised i
  exact (State.raised_links h :)

@[simp] theorem State.sys_warn (s : State) (i : LogItem) : (s.warn i).sys = s.sys := by
  obtain ⟨log, h⟩ := s.warn_raised i
  exact (State.raised_sys h :)

@[simp] theorem State.cores_warn (s : State) (i : LogItem) : (s.warn i).cores = s.cores := by
  obtain ⟨log, h⟩ := s.warn_raised i
  exact (State.raised_cores h :)

/-- The state in which the event of a device error is raised: state 3, and no partition goes on running (R539). -/
def State.stopped (s : State) (log : Logbook) : State := State.quiesceAll { s with log, sys := { s.sys with state := 3 } }

theorem State.deviceError_raised (s : State) (i : LogItem) : ∃ log, (s.stopped log).raised (s.deviceError i) := by
  unfold State.deviceError
  generalize (if s.sys.state = 1 then { i with code := 0x0180 + s.sys.step } else i) = j
  refine ⟨(s.logPut { j with severity := 3 }).2.log, ?_⟩
  have hput := s.logPut_shape { j with severity := 3 }
  unfold State.haltOn State.stopped
  dsimp only
  rw [hput]
  exact State.raised_trans (State.raised_post _ _ _ _) (State.raised_consoleEvent _ _ _)

theorem State.part_stopped (s : State) (log : Logbook) {p : Nat} {y : Part} (h : (s.stopped log).part p = some y) : y.state ≠ .running := by
  unfold State.stopped State.quiesceAll State.part at h
  rw [SMap.get_mapV none _ _ p rfl] at h
  split at h
  · obtain rfl := Option.some.inj h
    split_ifs with hrun
    · exact PartState.noConfusion
    · exact hrun
  · cases h

@[simp] theorem State.links_deviceError (s : State) (i : LogItem) : (s.deviceError i).links = s.links := by
  obtain ⟨log, h⟩ := s.deviceError_raised i
  exact (State.raised_links h :)

@[simp] theorem State.sysState_deviceError (s : State) (i : LogItem) : (s.deviceError i).sys.state = 3 := by
  obtain ⟨log, h⟩ := s.deviceError_raised i
  exact congrArg Sys.state (State.raised_sys h)

@[simp] theorem State.links_unbind (s : State) (g : Nat × Nat) : (s.unbind g).links = s.links := by
  unfold State.unbind
  split <;> rfl

@[simp] theorem State.links_breakHold (s : State) (q : Nat) : (s.breakHold q).links = s.links := by
  unfold State.breakHold
  split
  · rfl
  · split <;> rfl

@[simp] theorem State.links_leaveShares (s : State) (p : Nat) : (s.leaveShares p).links = s.links := by
  unfold State.leaveShares
  split <;> rfl

@[simp] theorem State.links_commitLaunch (s : State) (id : DWord) (v : Verdict) : (s.commitLaunch id v).links = s.links := by
  unfold State.commitLaunch
  split
  · rfl
  · split
    · rfl
    · extract_lets l1 s0 _ s1 s2a s2b s2 late s3
      have hs2a : s2a.links = s.links := by
        unfold s2a
        split <;> rfl
      have hs2 : s2.links = s.links := by
        unfold s2 s2b
        split <;> simp [hs2a]
      have hs3 : s3.links = s.links := by
        unfold s3
        split <;> exact hs2
      split
      · exact hs2
      · exact (State.links_warn _ _).trans hs3

@[simp] theorem State.links_stopLaunch (s : State) (id : DWord) (v w : Verdict) : (s.stopLaunch id v w).links = s.links := by
  unfold State.stopLaunch
  split
  · rfl
  · split
    · rfl
    · split
      · exact s.links_commitLaunch _ _
      · exact List.foldlRecOn (motive := fun u : State => u.links = s.links) _ _ rfl fun _ hu _ _ => hu

/-- Stops of launches leave the bundles and arbiters alone. -/
theorem State.links_stopLaunches (s : State) (ls : List Launch) (v w : Verdict) :
    (ls.foldl (fun s l => s.stopLaunch l.id v w) s).links = s.links :=
  List.foldlRecOn (motive := fun u : State => u.links = s.links) _ _ rfl fun u hu _ _ => (u.links_stopLaunch _ _ _).trans hu

@[simp] theorem State.links_abortRunning (s : State) (reason : Nat) : (s.abortRunning reason).links = s.links := s.links_stopLaunches _ _ _

/-- The note that not every bundle is at full width (R435). -/
theorem State.lcCheck_keeps (s : State) (b : Nat) : (s.lcCheck b).links = s.links ∧ (s.lcCheck b).sys.state = s.sys.state := by
  unfold State.lcCheck
  split
  · exact ⟨rfl, rfl⟩
  · exact ⟨State.links_warn _ _, (congrArg Sys.state (State.sys_warn _ _) :)⟩

end Reports

section Directions

/-! One direction of a bundle and the other. -/

variable (x : Bundle) (d : Bool) (f : BundleDir → BundleDir)

@[simp] theorem Bundle.dir_updDir_self : (x.updDir d f).dir d = f (x.dir d) := x.dir_setDir_self d _
@[simp] theorem Bundle.dir_updDir_not : (x.updDir d f).dir (!d) = x.dir (!d) := x.dir_setDir_not d _
@[simp] theorem Bundle.dir_updDir_of_not : (x.updDir (!d) f).dir d = x.dir d := by
  cases d <;> rfl

theorem Bundle.dir_replay_self (seq : Nat) : (x.replay d seq).dir d =
    { x.dir d with replays := if seq = (x.dir d).replayFrom then (x.dir d).replays + 1 else 1, replayFrom := seq } := by
  simp [Bundle.replay]

/-- The block that receives the resent flits counts them (R322). -/
theorem Bundle.dir_replay_not (seq : Nat) : (x.replay d seq).dir (!d) =
    let n := ((x.dir d).nextSeq + 512 - seq) % 512
    ((x.dir (!d)).count 0x108 n).count 0x120 n := by
  simp [Bundle.replay]

theorem BundleDir.counters_count (y : BundleDir) (a n off : Nat) :
    SMap.get 0 (y.count a n).counters off = SMap.get 0 y.counters off + if off = a then BitVec.ofNat 64 n else 0 :=
  SMap.get_bump _ _ _ _

end Directions

section Flits

/-! Flits, NAKs, replays and credits of a bundle that carries them (R319 to R323). -/

variable {s : State} {b : BundleIdx} {dir : Bool}

/-- A direction of a bundle that carries flits. -/
def Bundle.carries (x : Bundle) (d : Bool) : Prop := x.trained = true ∧ x.retraining = false ∧ (x.dir d).width ≠ 2

theorem Bundle.carries.not_held {x : Bundle} {d : Bool} (h : x.carries d) :
    (!x.trained || x.retraining || (x.dir d).width == 2) = false := by
  obtain ⟨htrained, hretraining, hwidth⟩ := h
  simp [htrained, hretraining, hwidth]

/-- A new flit sets out in a direction (R319). -/
def Bundle.flitSent (x : Bundle) (d : Bool) : Bundle :=
  (x.updDir d fun y => { y with nextSeq := (y.nextSeq + 1) % 512 }).updDir (!d) fun z => z.count 0x108 1

/-- Its receiver takes the flit that it expects. -/
def Bundle.flitTaken (x : Bundle) (d : Bool) : Bundle :=
  x.updDir d fun y => ({ y with expected := (y.expected + 1) % 512, nakSent := false }).count 0x100 1

theorem Bundle.dir_flitTaken_self (x : Bundle) (d : Bool) : ((x.flitSent d).flitTaken d).dir d =
    ({ x.dir d with nextSeq := ((x.dir d).nextSeq + 1) % 512, expected := ((x.dir d).expected + 1) % 512, nakSent := false } : BundleDir).count
      0x100 1 := by
  simp [Bundle.flitTaken, Bundle.flitSent]

theorem Bundle.dir_flitTaken_not (x : Bundle) (d : Bool) : ((x.flitSent d).flitTaken d).dir (!d) = (x.dir (!d)).count 0x108 1 := by
  simp [Bundle.flitTaken, Bundle.flitSent]

theorem exec_bundleFlitReceive_expected (h : (s.bundle b).carries dir) {seq : BitVec 9} (hseq : seq.toNat = ((s.bundle b).dir dir).expected)
    (hnew : ((s.bundle b).dir dir).expected = ((s.bundle b).dir dir).nextSeq) (hroom : ((s.bundle b).dir dir).unacked < 256) :
    exec (.bundleFlitReceive b dir seq true none) s = .next (s.setBundle b (((s.bundle b).flitSent dir).flitTaken dir)) := by
  show execBundleFlitReceive b dir seq true none s = _
  simp [execBundleFlitReceive, Bundle.flitSent, Bundle.flitTaken, h.not_held, hseq, hnew, hroom]

/-- A flit with a bad CRC leaves the number that its receiver expects, and is NAKed once. -/
theorem exec_bundleFlitReceive_bad (h : (s.bundle b).carries dir) (seq : BitVec 9) (hroom : ((s.bundle b).dir dir).unacked < 256) :
    ∃ t, exec (.bundleFlitReceive b dir seq false none) s = .next t ∧
      ((t.bundle b).dir dir).expected = ((s.bundle b).dir dir).expected ∧ ((t.bundle b).dir dir).nakSent = true ∧
      t.out = if ((s.bundle b).dir dir).nakSent then s.out else .nak b dir ((s.bundle b).dir dir).expected :: s.out := by
  refine ⟨_, congrArg Host.Outcome.next (if_neg (by simp [h.not_held, Nat.not_le.2 hroom])), ?_⟩
  cases hnak : ((s.bundle b).dir dir).nakSent with
  | true => cases hnew : (seq.toNat == ((s.bundle b).dir dir).nextSeq) <;> simp [BundleDir.count, hnak]
  | false => cases hnew : (seq.toNat == ((s.bundle b).dir dir).nextSeq) <;> simp [BundleDir.count, State.bundle_of_links (State.emit_links _ _)]

theorem exec_bundleReplayTimeout (h : (s.bundle b).carries dir) (hu : ((s.bundle b).dir dir).unacked ≠ 0) :
    exec (.bundleReplayTimeout b dir) s = .next (s.setBundle b ((s.bundle b).replay dir ((s.bundle b).dir dir).oldest)) :=
  congrArg Host.Outcome.next (if_neg (by simp [h.not_held, hu]))

/-- A NAK that names the oldest outstanding flit. -/
theorem exec_bundleNak_oldest (h : (s.bundle b).carries dir) (hlt : ((s.bundle b).dir dir).oldest < 512) :
    exec (.bundleNak b dir (BitVec.ofNat 9 ((s.bundle b).dir dir).oldest)) s =
      .next (s.setBundle b ((s.bundle b).replay dir ((s.bundle b).dir dir).oldest)) := by
  have hseq : (BitVec.ofNat 9 ((s.bundle b).dir dir).oldest).toNat = ((s.bundle b).dir dir).oldest :=
    (BitVec.toNat_ofNat _ _).trans (Nat.mod_eq_of_lt hlt)
  show execBundleNak b dir _ s = _
  rw [execBundleNak, hseq]
  exact congrArg Host.Outcome.next (if_neg (by simp [h.not_held]))

/-- Each named queue's count is the one received (R320). -/
theorem get_freedCounts (counts : List Byte) (m : SMap Byte) (q : Nat) :
    SMap.get 0 (counts.zipIdx.foldl (fun m e => SMap.set 0 m e.2 e.1) m) q = if h : q < counts.length then counts[q] else SMap.get 0 m q := by
  induction counts using List.reverseRecOn with
  | nil => simp
  | append_singleton counts v ih =>
    rw [List.zipIdx_append, List.foldl_append]
    simp only [List.zipIdx_singleton, List.foldl_cons, List.foldl_nil, SMap.get_set, ih, List.length_append, List.length_singleton, Nat.zero_add]
    by_cases hq : counts.length = q
    · subst hq
      simp
    · rw [if_neg hq]
      by_cases hlt : q < counts.length
      · rw [dif_pos hlt, dif_pos (Nat.lt_succ_of_lt hlt), List.getElem_append_left hlt]
      · rw [dif_neg hlt, dif_neg (by omega)]

theorem exec_bundleCredit {counts : List Byte} (h : counts.length ≤ 48) :
    exec (.bundleCredit b dir counts) s = .next (s.setBundle b ((s.bundle b).updDir dir fun y =>
      { y with freed := counts.zipIdx.foldl (fun m e => SMap.set 0 m e.2 e.1) y.freed })) := if_neg (Nat.not_lt.2 h)

end Flits

section Retraining

/-! Retraining and loss (R323, R329). -/

variable {s t : State} {b : BundleIdx}

theorem exec_bundleRetrain (htrained : (s.bundle b).trained = true) (hretraining : (s.bundle b).retraining = false)
    (hwidth : (s.bundle b).d0.width ≠ 2) (hreplays : 8 ≤ (s.bundle b).d0.replays ∨ 8 ≤ (s.bundle b).d1.replays) :
    ∃ item, exec (.bundleRetrain b) s = .next (State.warn (s.setBundle b { s.bundle b with
      retraining := true, d0 := (s.bundle b).d0.count 0x128 1, d1 := (s.bundle b).d1.count 0x128 1 }) item) := by
  refine ⟨_, congrArg Host.Outcome.next (if_neg ?_)⟩
  simp only [htrained, hretraining, beq_eq_false_iff_ne.2 hwidth, Bool.not_true, Bool.false_or, Bool.and_eq_true, decide_eq_true_eq]
  omega

/-- Both senders resend from their oldest flits, on fresh counts of replays. -/
def Bundle.resumed (x : Bundle) : Bundle :=
  let x1 := (x.replay false x.d0.oldest).replay true x.d1.oldest
  { x1 with retraining := false, d0 := { x1.d0 with replays := 0, nakSent := false }, d1 := { x1.d1 with replays := 0, nakSent := false } }

/-- A direction without its counters and what a lane test reports of it: the width and the fields of the replay protocol are left. -/
def BundleDir.protocol (y : BundleDir) : BundleDir := { y with groups := [], badTracks := 0, counters := [] }

theorem Bundle.protocol_resumed (x : Bundle) (d : Bool) : (x.resumed.dir d).protocol =
    { (x.dir d).protocol with replays := 0, nakSent := false, replayFrom := (x.dir d).oldest } := by
  cases d <;> rfl

/-- A lane test that finds no bad wire, under an empty darn map, leaves its direction at its width (R328). -/
theorem BundleDir.protocol_tested (y : BundleDir) (b : Nat) (d : Bool) : (y.tested [] [] b d).protocol = y.protocol := by
  have htracks : badTrackList [] b d = [] := by simp [badTrackList, badPositions]
  have hwidth : widthOf b [] = 0 := by simp [widthOf]
  simp [BundleDir.protocol, BundleDir.tested, htracks, hwidth]

theorem State.laneTest_clean (s : State) (b : Nat) (d : Bool) (h : s.links.darnMap = []) :
    s.laneTest b d [] = s.setBundle b ((s.bundle b).updDir d fun y => y.tested [] [] b d) := by
  have hwidth : (((s.bundle b).dir d).tested [] [] b d).width = ((s.bundle b).dir d).width :=
    (congrArg BundleDir.width (((s.bundle b).dir d).protocol_tested b d) :)
  have hkeeps : ¬ ((((s.bundle b).dir d).tested [] [] b d).width = 1 && ((s.bundle b).dir d).width = 0) = true := by
    rw [hwidth, Bool.and_eq_true, decide_eq_true_eq, decide_eq_true_eq]
    omega
  have hmap : s.links.darnMap.map darnWire = [] := by rw [h, List.map_nil]
  unfold State.laneTest
  rw [hmap]
  exact if_neg hkeeps

/-- Two states in which a bundle stands alike, but for its counters and what lane tests report of it. -/
def State.bundleAlike (s t : State) (b : Nat) : Prop :=
  t.store = s.store ∧ t.links.darnMap = s.links.darnMap ∧ (t.bundle b).retraining = (s.bundle b).retraining ∧
  ∀ d, ((t.bundle b).dir d).protocol = ((s.bundle b).dir d).protocol

theorem State.bundleAlike.trans {u : State} {k : Nat} (h : s.bundleAlike t k) (g : t.bundleAlike u k) : s.bundleAlike u k := by
  obtain ⟨hstore, hmap, hretraining, hdir⟩ := h
  obtain ⟨gstore, gmap, gretraining, gdir⟩ := g
  exact ⟨gstore.trans hstore, gmap.trans hmap, gretraining.trans hretraining, fun d => (gdir d).trans (hdir d)⟩

theorem State.laneTest_alike (s : State) (b : Nat) (d : Bool) (h : s.links.darnMap = []) : s.bundleAlike (s.laneTest b d []) b := by
  rw [s.laneTest_clean b d h]
  refine ⟨rfl, rfl, ?_, fun e => ?_⟩
  · rw [State.bundle_setBundle_self]
    cases d <;> rfl
  · rw [State.bundle_setBundle_self]
    by_cases he : e = d
    · subst he
      rw [Bundle.dir_updDir_self, BundleDir.protocol_tested]
    · obtain rfl := Bool.eq_not_of_ne he
      rw [Bundle.dir_updDir_not]

/-- A bundle that keeps both its widths as it resumes is not lost. -/
theorem State.lostBy_of_resumed {k : Nat} (h : (s.setBundle k (s.bundle k).resumed).bundleAlike t k) : t.lostBy s k = false := by
  obtain ⟨-, -, -, hdir⟩ := h
  have hwidth (d : Bool) : ((t.bundle k).dir d).width = ((s.bundle k).dir d).width := by
    have hd := hdir d
    rw [State.bundle_setBundle_self, Bundle.protocol_resumed] at hd
    exact (congrArg BundleDir.width hd :)
  have h0 : (t.bundle k).d0.width = (s.bundle k).d0.width := hwidth false
  have h1 : (t.bundle k).d1.width = (s.bundle k).d1.width := hwidth true
  simp [State.lostBy, h0, h1]

/-- The bundle resumes with lane tests that leave both widths, so it is not lost. -/
theorem exec_bundleRetrainDone_clean (hretraining : (s.bundle b).retraining = true) (hmap : s.links.darnMap = []) :
    ∃ t, exec (.bundleRetrainDone b []) s = .next t ∧ (s.setBundle b (s.bundle b).resumed).bundleAlike t b := by
  have hfirst := (s.setBundle b (s.bundle b).resumed).laneTest_alike b false hmap
  obtain ⟨-, hsame, -, -⟩ := id hfirst
  have hboth := hfirst.trans (State.laneTest_alike _ b true (hsame.trans hmap))
  refine ⟨_, ?_, hboth⟩
  have hlost := State.lostBy_of_resumed hboth
  exact congrArg Host.Outcome.next ((if_neg (by simp [hretraining])).trans (if_neg (Bool.eq_false_iff.1 hlost)))

/-- Nothing of a bundle changes in its loss but its directions, which carry nothing any more. -/
theorem State.links_loseBundle (s : State) (k : Nat) : (s.loseBundle k).links =
    (s.setBundle k { s.bundle k with d0 := (s.bundle k).d0.lose, d1 := (s.bundle k).d1.lose }).links := by
  unfold State.loseBundle
  extract_lets x data s1 s3 s2
  split
  · refine (State.lcCheck_keeps _ _).1.trans ?_
    unfold s2
    split
    · exact State.links_warn _ _
    · exact (State.links_stopLaunches _ _ _ _).trans (State.links_warn _ _)
  · exact (State.lcCheck_keeps _ _).1.trans ((State.links_deviceError _ _).trans (State.links_abortRunning _ _))

/-- The loss of a bundle that is no neighbour bundle stops the module. -/
theorem State.sysState_loseBundle (s : State) {k : Nat} (hk : 6 ≤ k) : (s.loseBundle k).sys.state = 3 := by
  unfold State.loseBundle
  extract_lets x data s1 s2
  rw [if_neg (Nat.not_lt.2 hk)]
  exact (State.lcCheck_keeps _ _).2.trans (State.sysState_deviceError _ _)

/-- A lost direction has no flit outstanding. -/
theorem BundleDir.unacked_lose (y : BundleDir) : y.lose.unacked = 0 := by
  show (y.nextSeq + 512 - y.nextSeq) % 512 = 0
  omega

theorem exec_bundleLost (hwidth : (s.bundle b).d0.width ≠ 2) : exec (.bundleLost b) s = .next (s.loseBundle b) :=
  congrArg Host.Outcome.next (if_neg (by simp [hwidth]))

end Retraining

section Arbiters

/-! Cut-offs (R334). -/

variable {s : State} {p : ArbId} {r : Fin 64}

/-- The bit of a requester. -/
theorem ofNat_two_pow_requester (r : Fin 64) : BitVec.ofNat 64 (2 ^ r.val) = 1#64 <<< r.val := by
  apply BitVec.eq_of_toNat_eq
  simp [Nat.shiftLeft_eq]

theorem exec_portCutoff_first (hr : r.val < (arbInfo (arbKey p)).2.1) (hopen : (s.arb (arbKey p)).cutoff.getLsbD r = false)
    (hlast : SMap.get 0 (s.arb (arbKey p)).lastCut r = 0) :
    ∃ item, exec (.portCutoff p r) s = .next (State.warn (s.setArb (arbKey p) { s.arb (arbKey p) with
      cutoff := (s.arb (arbKey p)).cutoff ||| (1#64 <<< r.val),
      lastCut := SMap.set 0 (s.arb (arbKey p)).lastCut r (s.time.beats + 1) }) item) := by
  have hpass : ¬ (decide ((arbInfo (arbKey p)).2.1 ≤ r.val) || (s.arb (arbKey p)).cutoff.getLsbD r) = true := by
    rw [hopen]
    simpa using hr
  show ∃ item, execPortCutoff p r s = _
  unfold execPortCutoff
  extract_lets key a now last again data mask cut s1 f
  rw [if_neg hpass]
  have hagain : again = false := by simp [again, last, a, key, hlast]
  refine ⟨{ code := 0x0405, severity := 1, data }, ?_⟩
  rw [if_neg (Bool.eq_false_iff.1 hagain)]
  unfold s1 cut
  rw [hagain]
  simp only [mask, ofNat_two_pow_requester]
  rfl

theorem exec_arbCutoffClear (p : ArbId) (r : Fin 64) : exec (.arbCutoffClear p r) s = .next (s.setArb (arbKey p)
    { s.arb (arbKey p) with cutoff := (s.arb (arbKey p)).cutoff &&& (~~~(1#64 <<< r.val) ||| (s.arb (arbKey p)).stuck) }) := by
  rw [← ofNat_two_pow_requester]
  rfl

end Arbiters

/-- Settles O39: each event of a bundle by the bundle that it leaves, and what follows it (log, events, stops) by its leaving the links alone. -/
theorem links : Obligations.Links := by
  unfold Obligations.Links
  refine ⟨?flits, ?bundles⟩
  case flits =>
    rintro s b dir x y z rfl rfl rfl htrained hretraining hwidth
    have hcarries : (s.bundle b).carries dir := ⟨htrained, hretraining, hwidth⟩
    refine ⟨fun seq hseq hnew hroom => ⟨?expected, exec_bundleFlitReceive_bad hcarries seq hroom⟩, ?replay, fun counts hlen => ?credit,
      fun hwidth0 hreplays => ?retrain⟩
    case expected =>
      refine ⟨_, exec_bundleFlitReceive_expected hcarries hseq hnew hroom, s.onlyBundle_setBundle b _, ?_⟩
      rw [State.bundle_setBundle_self, Bundle.dir_flitTaken_self, Bundle.dir_flitTaken_not]
      exact ⟨rfl, rfl, BundleDir.counters_count _ _ _, BundleDir.counters_count _ _ _⟩
    case replay =>
      rintro seq n hu rfl rfl i hi hlt
      have hexec : exec i s = .next (s.setBundle b ((s.bundle b).replay dir ((s.bundle b).dir dir).oldest)) := by
        simp only [List.mem_cons, List.not_mem_nil, or_false] at hi
        rcases hi with rfl | rfl
        · exact exec_bundleReplayTimeout hcarries hu
        · exact exec_bundleNak_oldest hcarries hlt
      refine ⟨_, hexec, s.onlyBundle_setBundle b _, ?_⟩
      rw [State.bundle_setBundle_self, Bundle.dir_replay_self, Bundle.dir_replay_not]
      refine ⟨rfl, rfl, fun off => ?_⟩
      rw [BundleDir.counters_count, BundleDir.counters_count]
      by_cases hoff : off = 0x108
      · simp [hoff]
      · simp [hoff]
    case credit =>
      refine ⟨_, exec_bundleCredit hlen, s.onlyBundle_setBundle b _, ?_⟩
      rw [State.bundle_setBundle_self, Bundle.dir_updDir_self, Bundle.dir_updDir_not]
      exact ⟨rfl, rfl, get_freedCounts counts _⟩
    case retrain =>
      obtain ⟨item, hexec⟩ := exec_bundleRetrain htrained hretraining hwidth0 hreplays
      refine ⟨_, hexec, ?_, State.cores_warn _ _, State.store_warn _ _, fun k hk => ?_⟩
      · rw [State.bundle_of_links (State.links_warn _ _), State.bundle_setBundle_self]
      · rw [State.bundle_of_links (State.links_warn _ _), State.bundle_setBundle, if_neg (Ne.symm hk)]
  case bundles =>
    rintro s b x rfl
    refine ⟨fun hretraining hmap => ?resume, fun hwidth => ?loss, fun d => ?seam, fun p r a ha => ?arbiters⟩
    case resume =>
      obtain ⟨t, hexec, hstore, -, hretrained, hdir⟩ := exec_bundleRetrainDone_clean hretraining hmap
      rw [State.bundle_setBundle_self] at hretrained hdir
      refine ⟨t, hexec, hretrained, hstore, fun d => ?_⟩
      have hd := (hdir d).trans (Bundle.protocol_resumed _ d)
      exact ⟨(congrArg BundleDir.replays hd :), (congrArg BundleDir.nakSent hd :), (congrArg BundleDir.replayFrom hd :),
        (congrArg BundleDir.expected hd :), (congrArg BundleDir.nextSeq hd :), (congrArg BundleDir.width hd :)⟩
    case loss =>
      refine ⟨_, exec_bundleLost hwidth, fun d => ?_, s.sysState_loseBundle⟩
      rw [State.bundle_of_links (s.links_loseBundle b), State.bundle_setBundle_self]
      cases d with
      | false => exact ⟨rfl, BundleDir.unacked_lose _⟩
      | true => exact ⟨rfl, BundleDir.unacked_lose _⟩
    case seam =>
      obtain ⟨log, h⟩ := s.deviceError_raised { code := 0x030A, severity := 3, source := 1, unit := d.val, data := leBytes 1 d.val }
      refine ⟨_, rfl, State.sysState_deviceError _ _, (State.raised_cores h :), (State.raised_store h :), fun q y hy => ?_⟩
      exact s.part_stopped log ((congrArg (fun w : Work => SMap.get none w.parts q) (State.raised_work h)).symm.trans hy)
    case arbiters =>
      subst ha
      refine ⟨fun hr hopen hlast => ?_, _, exec_arbCutoffClear p r, s.onlyArb_setArb _ _, State.arb_setArb_self _ _ _⟩
      obtain ⟨item, hexec⟩ := exec_portCutoff_first hr hopen hlast
      refine ⟨_, hexec, ?_, ?_, State.cores_warn _ _, State.sys_warn _ _⟩
      · rw [State.arb_of_links (State.links_warn _ _), State.arb_setArb_self]
      · rw [State.arb_of_links (State.links_warn _ _), State.arb_setArb_self]

end Sys2Proof.Machine

/-! Commands that pass their checks, and what their answers and the ends of their operations leave alone (R343, R348, R349). -/

namespace Sys2Proof.Machine

section Replies

/-! Checks 5 and 6, and what follows a response. -/

variable {s t u : State} {c : Cmd} {opcode len : Nat} {zero : List (Nat × Nat)} {f : Cmd → Reply} {bad rules : List (Bool × Nat)}
  {payload : List Byte}

theorem State.noPart_eq_false {x : Part} {p : Nat} (hx : s.part p = some x) (hforeign : s.foreignTo c p = false) : s.noPart c p = false := by
  simp [State.noPart, hx, hforeign]

theorem State.noQueue_eq_false {x : Queue} {q : Nat} (hx : s.queue q = some x) (hforeign : s.foreignTo c x.part = false) : s.noQueue c q = false := by
  simp only [State.noQueue, hx, hforeign]

/-- The response of a command whose checks pass, where what it answers is worked out apart from the checks. -/
theorem State.answered_of_reply {reply : Reply} (hd : s.doing c opcode len zero)
    (hf : f c = c.check len bad rules reply) (hreply : reply = .ok payload u) (hb : ∀ e ∈ bad, e.1 = false) (hr : ∀ e ∈ rules, e.1 = false) :
    u.answered (s.run opcode f) c 0 payload :=
  State.answered_of_check hd (hreply ▸ hf) hb hr

/-- A command whose operation goes on at once passes its checks, in whichever order its arguments stand. -/
theorem State.runThen_of_check {instr : Instr} {after : Cmd → State → State} (hd : s.doing c opcode len zero)
    (hexec : exec instr s = .next (s.runThen opcode f after)) (hf : f c = c.check len bad rules (.ok payload u)) (hb : ∀ e ∈ bad, e.1 = false)
    (hr : ∀ e ∈ rules, e.1 = false) : ∃ t, exec instr s = .next (after c t) ∧ u.answered t c 0 payload := by
  obtain ⟨-, hdiscard, -, hlen, -⟩ := id hd
  refine ⟨u.respond c stSuccess 0 payload, ?_, u.answered_respond c stSuccess payload hdiscard⟩
  rw [hexec, s.runThen_doing hd, hf, Cmd.check_passes hlen hb hr]

/-- An operation that an answered command has begun. -/
theorem State.began_of_answered {arg : Nat} (h : u.answered t c 0 []) (hu : u.valac = (s.startOp c arg).valac) : s.began t c arg := by
  obtain ⟨hcur, hstate, -, -, -, hvalac, -⟩ := h
  have hops : t.valac.ops = s.valac.ops ++ [{ id := s.valac.nextOp, cmd := c, arg }] :=
    (congrArg Valac.ops hvalac :).trans (congrArg Valac.ops hu)
  exact ⟨hcur, hstate, _, hops ▸ List.mem_append_right _ (List.mem_singleton_self _), rfl, rfl, rfl⟩

end Replies

section Tables

/-! Answers, events and the ends of operations leave the tables alone. -/

variable {r s t : State}

/-- `t` has the rectangles of `s`, and its partitions, queues and launches. -/
structure State.SameTables (s t : State) : Prop where
  rects : t.rects = s.rects
  work  : t.work = s.work

theorem State.SameTables.refl (s : State) : s.SameTables s := ⟨rfl, rfl⟩

theorem State.SameTables.trans (hr : r.SameTables s) (hs : s.SameTables t) : r.SameTables t := ⟨hs.rects.trans hr.rects, hs.work.trans hr.work⟩

theorem State.SameTables.part (h : s.SameTables t) (p : Nat) : t.part p = s.part p := congrArg (fun w : Work => SMap.get none w.parts p) h.work

theorem State.SameTables.queue (h : s.SameTables t) (q : Nat) : t.queue q = s.queue q := congrArg (fun w : Work => SMap.get none w.queues q) h.work

theorem State.SameTables.rect (h : s.SameTables t) (p : Nat) : t.rect p = s.rect p := congrArg (fun m : SMap (Option Rect) => SMap.get none m p) h.rects

/-- Beside the tables the cores and the fabric are those of `s`. -/
structure State.SameParts (s t : State) : Prop extends s.SameTables t where
  cores : t.cores = s.cores
  fab   : t.fab = s.fab

theorem State.SameParts.trans (hr : r.SameParts s) (hs : s.SameParts t) : r.SameParts t :=
  ⟨hr.toSameTables.trans hs.toSameTables, hs.cores.trans hr.cores, hs.fab.trans hr.fab⟩

theorem State.SameParts.half (h : s.SameParts t) (i : Nat) : t.half i = s.half i := congrArg (fun f : Fabric => SMap.get ({} : Half) f.halves i) h.fab

theorem State.sameParts_of_raised (h : s.raised t) : s.SameParts t :=
  ⟨⟨(congrArg State.rects h.2 :), (congrArg State.work h.2 :)⟩, (congrArg State.cores h.2 :), (congrArg State.fab h.2 :)⟩

theorem State.sameParts_of_answered {c : Cmd} {status : Nat} {payload : List Byte} (h : s.answered t c status payload) : s.SameParts t := by
  obtain ⟨-, -, -, -, -, -, hrest⟩ := h
  exact ⟨⟨(congrArg State.rects hrest :), (congrArg State.work hrest :)⟩, (congrArg State.cores hrest :), (congrArg State.fab hrest :)⟩

/-- An operation that has ended is gone; of the rest only events differ. -/
theorem State.raised_opDone (s : State) (id status : Nat) (cancelled : Bool) (result : List Byte) :
    (s.withoutOp id).raised (s.opDone id status cancelled result) := by
  by_cases hopen : ∃ o ∈ s.valac.ops, o.id = id
  · obtain ⟨o, ho, rfl⟩ := hopen
    exact State.opDone_raised ho status cancelled result
  · have hothers : ∀ o ∈ s.valac.ops, o.id ≠ id := fun o ho h => hopen ⟨o, ho, h⟩
    have hnone : s.op id = none := List.find?_eq_none.2 (by simpa using hothers)
    have hkept : s.withoutOp id = s := by
      unfold State.withoutOp
      rw [List.filter_eq_self.2 (by simpa using hothers)]
    rw [hkept, State.opDone, hnone]
    exact s.raised_refl

theorem State.sameParts_opDone (s : State) (id status : Nat) (cancelled : Bool) (result : List Byte) :
    s.SameParts (s.opDone id status cancelled result) :=
  State.SameParts.trans (s := s.withoutOp id) ⟨⟨rfl, rfl⟩, rfl, rfl⟩ (State.sameParts_of_raised (s.raised_opDone id status cancelled result))

end Tables

end Sys2Proof.Machine

/-! The commands that ask (R348, R353, R358 to R362, R366): each is answered from the state and leaves it as it is. -/

namespace Sys2Proof.Machine

section Payloads

/-! Fields of a payload. -/

theorem take_of_isPrefix {a p : List Byte} (h : a <+: p) {n : Nat} (hn : a.length = n) : p.take n = a := by
  obtain ⟨rest, rfl⟩ := h
  exact List.take_left' hn

@[simp] theorem length_padTo (n : Nat) (bs : List Byte) : (padTo n bs).length = n := by
  simp only [padTo, List.length_take, List.length_append, List.length_replicate]
  omega

/-- The field that a payload begins with. -/
theorem fieldAt_leBytes_append (n v : Nat) (rest : List Byte) : fieldAt (leBytes n v ++ rest) 0 n = v % 256 ^ n := by
  rw [fieldAt, List.drop_zero, List.take_left' (length_leBytes n v), leNat_leBytes]

/-- A field behind a first part of the payload. -/
theorem fieldAt_append (a b : List Byte) {k : Nat} (hk : a.length = k) (off n : Nat) : fieldAt (a ++ b) (k + off) n = fieldAt b off n := by
  rw [fieldAt, fieldAt, ← List.drop_drop, List.drop_left' hk]

/-- Equally long entries, one after the other: the entries from number `i` on. -/
theorem drop_flatMap_entries {α : Type} {f : α → List Byte} {n : Nat} (hf : ∀ a, (f a).length = n) (l : List α) (i : Nat) :
    (l.flatMap f).drop (n * i) = (l.drop i).flatMap f := by
  induction i generalizing l with
  | zero => rfl
  | succ i ih =>
    cases l with
    | nil => simp
    | cons a l => rw [List.flatMap_cons, Nat.mul_succ, Nat.add_comm, ← List.drop_drop, List.drop_left' (hf a), ih, List.drop_succ_cons]

/-- Entry `w` of a table of 8 B entries. -/
theorem fieldAt_entry {N w : Nat} (hw : w < N) (e : Nat → Nat) (he : e w < 2 ^ 64) :
    fieldAt ((List.range N).flatMap fun w => leBytes 8 (e w)) (8 * w) 8 = e w := by
  have hlen (a : Nat) : (leBytes 8 (e a)).length = 8 := length_leBytes 8 (e a)
  rw [fieldAt, drop_flatMap_entries hlen, List.drop_eq_getElem_cons (by simpa using hw), List.flatMap_cons, List.getElem_range,
    List.take_left' (hlen w), leNat_leBytes]
  exact Nat.mod_eq_of_lt he

end Payloads

section Queries

/-! Queries without arguments, or whose arguments pass. -/

variable {s : State} {c : Cmd} {opcode len : Nat} {zero : List (Nat × Nat)} {instr : Instr} {f : Cmd → Reply}

/-- A query without arguments is answered with what it asks for. -/
theorem query_answered {payload : List Byte} (hd : s.doing c opcode len zero) (hexec : exec instr s = .next (s.run opcode f))
    (hf : f c = c.check len [] [] (.ok payload s)) : ∃ t, exec instr s = .next t ∧ s.answered t c 0 payload :=
  ⟨_, hexec, State.answered_of_check hd hf (by simp) (by simp)⟩

/-- The same of a payload of which only a part is stated. -/
theorem query_answered_part {payload : List Byte} {P : List Byte → Prop} (hd : s.doing c opcode len zero)
    (hexec : exec instr s = .next (s.run opcode f)) (hf : f c = c.check len [] [] (.ok payload s)) (hP : P payload) :
    ∃ t p, exec instr s = .next t ∧ s.answered t c 0 p ∧ P p :=
  (query_answered hd hexec hf).imp fun _ h => ⟨payload, h.1, h.2, hP⟩

theorem echo_answered (hd : s.doing c 0x0002 len []) : ∃ t, exec .echo s = .next t ∧ s.answered t c 0 c.payload := by
  obtain ⟨-, hdiscard, -⟩ := id hd
  exact ⟨_, congrArg Host.Outcome.next (s.run_doing hd _), s.answered_respond c stSuccess c.payload hdiscard⟩

/-- The transit times that the sender may see, as many as the transits. -/
theorem State.length_transitTimes (s : State) (ls : List Launch) :
    (ls.flatMap fun l => (s.pendingTransits l).map (·.1)).length = (ls.flatMap s.pendingTransits).length := by
  rw [← List.map_flatMap, List.length_map]

/-- ALMANAC_QUERY; without a transit it draws the time that the spec leaves open (assumption 3). -/
theorem almanacQuery_answered (hd : s.doing c 0x0502 0 []) : ∃ t n k, exec .almanacQuery s = .next t ∧ ({ s with free := k } : State).answered t c 0
    (leBytes 2 ((s.work.launches.filter fun l => !s.foreignTo c l.part).flatMap s.pendingTransits).length ++ leBytes 6 0 ++ leBytes 8 n) := by
  rw [← s.length_transitTimes]
  cases hts : (s.work.launches.filter fun l => !s.foreignTo c l.part).flatMap fun l => (s.pendingTransits l).map (·.1) with
  | nil =>
    exact ⟨_, (s.draw 64).1.toNat, s.free + 1, rfl, State.answered_of_reply hd rfl (by simp only [hts]; rfl) (by simp) (by simp)⟩
  | cons n r =>
    exact ⟨_, r.foldl Nat.min n, s.free, rfl, State.answered_of_reply hd rfl (by simp only [hts]) (by simp) (by simp)⟩

theorem WinState.code_le (x : WinState) : x.code ≤ 3 := by cases x <;> decide

/-- The entry of a window in TAKEOVER_STATUS. -/
def State.takeoverEntry (s : State) (w : Nat) : Nat := (s.win w).state.code * 2 ^ 60 + if (s.win w).mode = 2 then (s.win w).applied % 2 ^ 48 else 0

theorem State.takeoverEntry_lt (s : State) (w : Nat) : s.takeoverEntry w < 2 ^ 64 := by
  have hcode := (s.win w).state.code_le
  have hepoch : (s.win w).applied % 2 ^ 48 < 2 ^ 48 := Nat.mod_lt _ (by decide)
  unfold State.takeoverEntry
  split <;> omega

theorem takeoverStatus_answered (hd : s.doing c 0x0704 0 []) :
    ∃ t p, exec .takeoverStatus s = .next t ∧ s.answered t c 0 p ∧ fieldAt p 0 8 = bit s.twin.ready ∧
      ∀ w, w < 64 → fieldAt p (8 + 8 * w) 8 = s.takeoverEntry w := by
  obtain ⟨t, hexec, hans⟩ : ∃ t, exec .takeoverStatus s = .next t ∧
      s.answered t c 0 (leBytes 8 (bit s.twin.ready) ++ (List.range 64).flatMap fun w => leBytes 8 (s.takeoverEntry w)) := query_answered hd rfl rfl
  refine ⟨t, _, hexec, hans, ?_, fun w hw => ?_⟩
  · rw [fieldAt_leBytes_append]
    cases s.twin.ready <;> rfl
  · rw [fieldAt_append _ _ (length_leBytes 8 _)]
    exact fieldAt_entry hw _ (s.takeoverEntry_lt w)

theorem partQuery_answered {x : Part} {r : Rect} (hd : s.doing c 0x0106 4 [(1, 3)]) (hx : s.part (c.arg 0 1) = some x)
    (hr : s.rect (c.arg 0 1) = some r) (hforeign : s.foreignTo c (c.arg 0 1) = false) (hbusy : s.partBusy (c.arg 0 1) = false) :
    ∃ t p, exec .partQuery s = .next t ∧ s.answered t c 0 p ∧
      p.take 8 = leBytes 1 x.state.code ++ leBytes 1 (bit x.be) ++ leBytes 1 r.x0 ++ leBytes 1 r.y0 ++ leBytes 1 r.w ++ leBytes 1 r.h ++
        leBytes 2 x.mask.toNat := by
  refine ⟨_, _, rfl, State.answered_of_reply hd rfl (by simp only [hx, hr]; rfl) (State.doing_args hd ?_) ?_, take_of_isPrefix ?_ (by simp)⟩
  · simp [State.noPart_eq_false hx hforeign]
  · simp [hbusy]
  · simp

theorem queueQuery_answered {q : Queue} (hd : s.doing c 0x0305 4 [(2, 2)]) (hq : s.queue (c.arg 0 2) = some q) (hforeign : s.foreignTo c q.part = false)
    (hunlocked : s.locked (.queue (c.arg 0 2)) = false) :
    ∃ t, exec .queueQuery s = .next t ∧ s.answered t c 0 (leBytes 4 q.state.code ++ leBytes 4 q.head.toNat ++ leBytes 4 q.tail.toNat) := by
  refine ⟨_, rfl, State.answered_of_reply hd rfl (by simp only [hq]) (State.doing_args hd ?_) ?_⟩
  · simp [State.noQueue_eq_false hq hforeign]
  · simp [hunlocked]

end Queries

section Registers

/-! REG_READ and REG_WRITE of one word of a cache half (R366, R367). -/

variable {s : State} {c : Cmd} {h : HalfIdx}

/-- The arguments that REG_READ and REG_WRITE share, for one register of 4 B. -/
theorem regBad_word {opcode len most : Nat} (hd : s.doing c opcode len [(9, 1), (12, 4)]) (hoff : c.arg 0 8 < 2 ^ 40) (halign : c.arg 0 8 % 4 = 0)
    (hsize : c.arg 8 1 = 4) (hcount : c.arg 10 2 = 1) (hmost : most ≠ 0) : ∀ e ∈ regBad c most, e.1 = false :=
  State.doing_args hd (by simpa [hsize, halign, hcount] using ⟨hoff, hmost⟩)

/-- CACHE_WAYMASK as it reads. -/
theorem State.halfWord_waymask (s : State) (h : Nat) (p : Fin 64) : s.halfWord h (0x1000 + 4 * p.val) = (SMap.get 0 (s.half h).waymask p).toNat := by
  have hp := p.isLt
  have hlow (n : Nat) (hn : n < 0x1000) : ¬ 0x1000 + 4 * p.val = n := by omega
  have hcnt : ¬ 0x1000 + 4 * p.val < 0x180 := by omega
  have hmask : 0x1000 ≤ 0x1000 + 4 * p.val ∧ 0x1000 + 4 * p.val < 0x1100 := by omega
  simp [State.halfWord, hlow, hcnt, hmask]

theorem regRead_waymask {p : Fin 64} (hrole : c.role ≠ 1) (hoff : c.arg 0 8 < 2 ^ 40) (halign : c.arg 0 8 % 4 = 0) (hsize : c.arg 8 1 = 4)
    (hd : s.doing c 0x0900 16 [(9, 1), (12, 4)]) (hcount : c.arg 10 2 = 1) (hblock : icsBlock (c.arg 0 8) = (.half h, 0x1000 + 4 * p.val)) :
    ∃ t, exec .regRead s = .next t ∧ s.answered t c 0 (leBytes 4 (SMap.get 0 (s.half h).waymask p).toNat) := by
  have hword : s.icsWord (c.arg 0 8) = (SMap.get 0 (s.half h).waymask p).toNat := by
    rw [State.icsWord, hblock]
    exact s.halfWord_waymask h p
  have heffect : s.readEffect (c.arg 0 8) = s := by simp only [State.readEffect, hblock]
  have hread : s.readMany (c.arg 0 8) 4 1 = (leBytes 4 (SMap.get 0 (s.half h).waymask p).toNat, s) := by
    simp [State.readMany, State.icsRead, wordsOf, hword, heffect]
  refine ⟨_, rfl, State.answered_of_reply hd rfl (by simp only [hsize, hcount, hread])
    (regBad_word hd hoff halign hsize hcount (by simp [hsize])) ?_⟩
  simp [State.mayRead, hrole]

theorem State.icsWrite_countersClear (hblock : icsBlock (c.arg 0 8) = (.half h, 0xF8)) :
    s.icsWrite (c.arg 0 8) 4 1 = s.setHalf h { s.half h with counters := [] } := by
  simp only [State.icsWrite, State.icsWordWrite, hblock]
  rfl

theorem regWrite_countersClear (hrole : c.role ≠ 1) (hoff : c.arg 0 8 < 2 ^ 40) (halign : c.arg 0 8 % 4 = 0) (hsize : c.arg 8 1 = 4)
    (hd : s.doing c 0x0901 24 [(9, 1), (12, 4)]) (hcount : c.arg 10 2 = 1) (hblock : icsBlock (c.arg 0 8) = (.half h, 0xF8)) (hvalue : c.arg 16 8 = 1) :
    ∃ t, exec .regWrite s = .next t ∧ (s.setHalf h { s.half h with counters := [] }).answered t c 0 [] := by
  refine ⟨_, rfl, State.answered_of_reply hd rfl (by simp only [hsize, hvalue, State.icsWrite_countersClear hblock])
    (regBad_word hd hoff halign hsize hcount (by decide)) ?_⟩
  simp [wordsOf, hsize, State.mayWrite, State.writeHeld, hrole, hblock]

end Registers

/-- Settles O43: a query passes its checks and is answered over the state itself; REG_WRITE clears the counters that it names. -/
theorem queriesAnswer : Obligations.QueriesAnswer := by
  unfold Obligations.QueriesAnswer
  refine fun s c => ⟨fun hd => ?identify, fun hd => ?status, echo_answered, fun hd => ?time, almanacQuery_answered, fun hd => ?power,
    takeoverStatus_answered, fun x r => partQuery_answered, fun q => queueQuery_answered, fun hd => ?bounds, fun hd => ?audit, fun hd => ?log,
    fun hd => ?telemetry, fun h hrole hoff halign hsize => ⟨fun p => ?read, ?write⟩⟩
  case identify =>
    refine query_answered_part hd rfl rfl (take_of_isPrefix ?_ (by simp))
    simp [State.versionNow]
  case status =>
    refine query_answered_part (P := fun p => p.take 3 = _ ∧ p.drop 24 = _) hd rfl rfl ⟨take_of_isPrefix ?_ (by simp), ?_⟩
    · simp
    · exact List.drop_left' (by simp)
  case time =>
    refine query_answered_part hd rfl rfl (take_of_isPrefix ?_ (by simp))
    simp
  case power => exact query_answered hd rfl rfl
  case bounds => exact query_answered hd rfl rfl
  case audit => exact query_answered hd rfl rfl
  case log =>
    exact ⟨_, rfl, State.answered_of_args (args := []) hd rfl (by simp) (by simp)⟩
  case telemetry => exact query_answered hd rfl rfl
  case read => exact regRead_waymask hrole hoff halign hsize
  case write => exact regWrite_countersClear hrole hoff halign hsize

end Sys2Proof.Machine

/-! Partitions: creation, resizing, quiesce and resume (R354, R418 to R424, R428). -/

namespace Sys2Proof.Machine

section Changes

/-! What the steps of a change of a partition leave alone. -/

variable {r s t : State}

/-- The stewards alone take new targets (R441). -/
theorem State.sameParts_retargetAll (s : State) : s.SameParts s.retargetAll := by
  refine List.foldlRecOn (motive := s.SameParts) _ _ ⟨State.SameTables.refl s, rfl, rfl⟩ fun t ht h _ => ht.trans ?_
  unfold State.retarget
  split
  · exact ⟨State.SameTables.refl t, rfl, rfl⟩
  · exact ⟨⟨rfl, rfl⟩, rfl, rfl⟩

/-! The mode 0 sweep of a partition (R196). -/

theorem State.sameTables_of_onlyFab (h : s.onlyFab t) : s.SameTables t := by
  obtain ⟨fab, rfl⟩ := h
  exact ⟨rfl, rfl⟩

theorem State.sameTables_foldl {α : Type} {f : State → α → State} (hf : ∀ (s : State) (a : α), s.SameTables (f s a)) (l : List α)
    (s : State) : s.SameTables (l.foldl f s) :=
  List.foldlRecOn (motive := s.SameTables) l f (State.SameTables.refl s) fun t ht a _ => ht.trans (hf t a)

theorem State.sameTables_evictNow (s : State) (h key : Nat) : s.SameTables (s.evictNow h key) := by
  have hresv : s.SameTables (s.removalEndsResv ((s.half h).line key).addr) := ⟨rfl, rfl⟩
  unfold State.evictNow
  dsimp only
  split
  · exact hresv.trans (State.sameTables_of_onlyFab (State.onlyFab_reduceWriteback _ h key))
  · exact hresv.trans (State.sameTables_of_onlyFab ((State.onlyFab_writeDirty _ h key).trans (State.onlyFab_emptyWay _ h key)))
  · exact hresv.trans (State.sameTables_of_onlyFab ((State.onlyFab_writeDirty _ h key).trans (State.onlyFab_emptyWay _ h key)))
  · exact hresv.trans (State.sameTables_of_onlyFab (State.onlyFab_emptyWay _ h key))

theorem State.sameTables_clearWay (s : State) (h key : Nat) : s.SameTables (s.clearWay h key) := by
  unfold State.clearWay
  dsimp only
  split
  · exact State.sameTables_of_onlyFab (s.onlyFab_dropReplica h key)
  · exact State.sameTables_of_onlyFab (s.onlyFab_dropReplica h key)
  · exact State.SameTables.refl s
  · exact State.SameTables.refl s
  · split
    · exact State.SameTables.refl s
    · split
      · exact s.sameTables_evictNow h key
      · exact ⟨rfl, rfl⟩

theorem State.sameTables_sweepWaysAll (s : State) (p : Nat) (ways : Half16) : s.SameTables (s.sweepWaysAll p ways) :=
  State.sameTables_foldl (fun t h => State.sameTables_foldl (fun u key => u.sameTables_clearWay h key) _ t) _ s

theorem State.sameTables_clearCores (s : State) (cs : List Nat) : s.SameTables (s.clearCores cs) :=
  State.sameTables_foldl (fun t k => (⟨rfl, rfl⟩ : t.SameTables (t.updCore k _))) cs s

/-! CACHE_WAYMASK in every half. -/

theorem State.onlyFab_writeMask (s : State) (p : Nat) (m : Half16) : s.onlyFab (s.writeMask p m) :=
  State.onlyFab_foldl (fun t h => t.onlyFab_setHalf h _) _ s

theorem State.cores_writeMask (s : State) (p : Nat) (m : Half16) : (s.writeMask p m).cores = s.cores := by
  obtain ⟨fab, hfab⟩ := s.onlyFab_writeMask p m
  rw [hfab]

/-- A mask that is written in a half stays there while it is written in others. -/
theorem State.waymask_writeMask (s : State) (p : Nat) (m : Half16) {h : Nat} (hh : h < 16) :
    SMap.get 0 ((s.writeMask p m).half h).waymask p = m := by
  have written (l : List Nat) (s : State) (hl : h ∈ l ∨ SMap.get 0 (s.half h).waymask p = m) :
      SMap.get 0 ((l.foldl (fun (s : State) h => s.setHalf h { s.half h with waymask := SMap.set 0 (s.half h).waymask p m }) s).half
        h).waymask p = m := by
    induction l generalizing s with
    | nil => simpa using hl
    | cons a l ih =>
      refine ih _ ?_
      rw [State.half_setHalf]
      by_cases ha : a = h
      · rw [if_pos ha]
        exact .inr (SMap.get_set_self _ _ _ _)
      · rw [if_neg ha]
        simpa [Ne.symm ha] using hl
  exact written _ s (.inl (List.mem_range.2 hh))

end Changes

section Creation

/-! PART_CREATE. -/

variable {s : State} {c : Cmd}

/-- A rectangle in range passes the arguments that PART_CREATE and PART_RESIZE share. -/
theorem State.partBad_of_fits {opcode len : Nat} (hd : s.doing c opcode len [(7, 1), (14, 2)]) (hfits : s.rectFits c) :
    ∀ e ∈ s.partBad c, e.1 = false := by
  obtain ⟨hx, hy, hw, hh, hkind, hslice, hmask, -⟩ := hfits
  refine State.doing_args hd ?_
  have hslice' : (c.arg 8 4 != 0 && (decide (c.arg 8 4 < 50) || decide (100000 < c.arg 8 4))) = false := by
    rcases hslice with h | ⟨hlow, hhigh⟩
    · simp [h]
    · simp [Nat.not_lt.2 hlow, Nat.not_lt.2 hhigh]
  simp [Nat.not_lt.2 hx, Nat.not_lt.2 hy, Nat.ne_of_gt hw, Nat.ne_of_gt hh, Nat.not_lt.2 hkind, hslice', hmask]

/-- No core of a rectangle in range is under test. -/
theorem State.untested_of_fits (hfits : s.rectFits c) : c.rect.cores.any s.underTest = false := by
  obtain ⟨-, -, -, -, -, -, -, htest⟩ := hfits
  rw [List.any_eq_false]
  intro k hk
  simp [htest k hk]

/-- The partition that a PART_CREATE asks for. -/
def Cmd.newPart (c : Cmd) : Part :=
  { state := .running, be := c.arg 6 1 == 1, fn := c.arg 1 1, slice := c.slice, mask := c.mask, pstepMin := 15, resize := none, op := none,
    destroying := false, refused := 0, overruns := 0, lastLc := 0, turn := none, turnFrom := none, undeliverable := [] }

/-- The tables with the new partition and its rectangle. -/
def State.withNewPart (s : State) (c : Cmd) : State := (s.setPart (c.arg 0 1) (some c.newPart)).setRect (c.arg 0 1) (some c.rect)

theorem partCreate_answered (hd : s.doing c 0x0100 16 [(7, 1), (14, 2)]) (hp : c.arg 0 1 ≤ 63) (hfn : c.arg 1 1 ≤ 64) (hfits : s.rectFits c)
    (hfree : s.part (c.arg 0 1) = none) (htaken : s.rectTaken (c.arg 0 1) c.rect = false)
    (hbound : c.arg 1 1 ≠ 0 → ∀ e ∈ s.work.parts, ∀ x, e.2 = some x → x.fn ≠ c.arg 1 1)
    (hunlocked : s.locked (.part (c.arg 0 1)) = false) :
    ∃ t, exec .partCreate s = .next t ∧
      (((s.withNewPart c).writeMask (c.arg 0 1) c.mask).retargetAll.postState (c.arg 0 1) 0).answered t c 0 [] := by
  refine ⟨_, rfl, State.answered_of_check hd rfl ?_ (List.forall_mem_cons.2 ⟨?_, by simp [hunlocked, State.untested_of_fits hfits]⟩)⟩
  · rw [List.forall_mem_append]
    exact ⟨by simp [hp, hfn], State.partBad_of_fits hd hfits⟩
  · simp only [hfree, htaken, Option.isSome_none, Bool.or_self, Bool.false_or]
    rw [Bool.and_eq_false_imp]
    intro hvf
    rw [List.any_eq_false]
    rintro ⟨q, x⟩ he
    cases x with
    | none => exact Bool.false_ne_true
    | some x => simpa using hbound (by simpa using hvf) _ he x rfl

/-- Beside the new partition, its rectangle and its way mask, the answer to a PART_CREATE finds the tables, cores and masks of `s`. -/
theorem State.newPart_tables {t : State}
    (h : (((s.withNewPart c).writeMask (c.arg 0 1) c.mask).retargetAll.postState (c.arg 0 1) 0).answered t c 0 []) :
    (∀ q, t.part q = if c.arg 0 1 = q then some c.newPart else s.part q) ∧ (∀ q, t.rect q = if c.arg 0 1 = q then some c.rect else s.rect q) ∧
      t.cores = s.cores ∧ ∀ h, h < 16 → SMap.get 0 (t.half h).waymask (c.arg 0 1) = c.mask := by
  have hmask := State.sameTables_of_onlyFab ((s.withNewPart c).onlyFab_writeMask (c.arg 0 1) c.mask)
  have hsame := ((State.sameParts_retargetAll ((s.withNewPart c).writeMask (c.arg 0 1) c.mask)).trans
    (State.sameParts_of_raised (State.raised_postPart _ _ _ _))).trans (State.sameParts_of_answered h)
  refine ⟨fun q => ?_, fun q => ?_, hsame.cores.trans (State.cores_writeMask _ _ _), fun k hk => ?_⟩
  · exact ((hsame.part q).trans (hmask.part q)).trans (State.part_setPart s _ _ q)
  · exact ((hsame.rect q).trans (hmask.rect q)).trans (State.rect_setRect (s.setPart _ _) _ _ q)
  · rw [hsame.half k]
    exact (s.withNewPart c).waymask_writeMask (c.arg 0 1) c.mask hk

end Creation

section Resizing

/-! PART_RESIZE (R421 to R423). -/

variable {s t u : State} {c : Cmd} {p : Nat} {x : Part} {z : Resize} {r : Rect}

/-- The change that a PART_RESIZE asks for. -/
def Cmd.newResize (c : Cmd) (op : Nat) : Resize := { rect := c.rect, slice := c.slice, mask := c.mask, op, inForce := false, removed := [], ways := 0 }

theorem partResize_begins (hd : s.doing c 0x0101 16 [(7, 1), (14, 2)]) (hx : s.part (c.arg 0 1) = some x) (hfn : c.arg 1 1 = x.fn)
    (hbe : c.arg 6 1 = bit x.be) (hfits : s.rectFits c) (htaken : s.rectTaken (c.arg 0 1) c.rect = false) (hbusy : s.partBusy (c.arg 0 1) = false)
    (hops : s.opsFull c = false) :
    ∃ t, exec .partResize s = .next (t.resizeStep (c.arg 0 1)) ∧
      ((s.startOp c (c.arg 0 1)).setPart (c.arg 0 1) (some { x with resize := some (c.newResize s.valac.nextOp) })).answered t c 0 [] := by
  refine State.runThen_of_check (instr := .partResize) hd rfl (by simp only [hx]; rfl) ?_ ?_
  · rw [List.forall_mem_append]
    exact ⟨by simp [hfn, hbe], State.partBad_of_fits hd hfits⟩
  · simp [htaken, hbusy, State.untested_of_fits hfits, hops]

/-- A change that takes cores away waits for the kernels of its partition (R422). -/
theorem State.resizeStep_waits (hx : s.part p = some x) (hr : s.rect p = some r) (hz : x.resize = some z) (hpending : z.inForce = false)
    (hruns : s.kernelRuns p = true) (hremoves : ∃ k ∈ r.cores, k ∉ z.rect.cores) : s.resizeStep p = s := by
  have hadds : (r.cores.all fun k => z.rect.cores.contains k) = false := by
    rw [List.all_eq_false]
    obtain ⟨k, hk, hgone⟩ := hremoves
    exact ⟨k, hk, by simpa using hgone⟩
  simp only [State.resizeStep, hx, hr, hz, hpending, hadds, hruns]
  exact if_pos (Bool.or_true _)

theorem State.kernelRuns_congr (hcores : t.cores = s.cores) (hlaunches : t.work.launches = s.work.launches) (p : Nat) :
    t.kernelRuns p = s.kernelRuns p := by
  unfold State.kernelRuns
  rw [hcores, hlaunches]

/-- A change in force may still have ways to sweep; rectangle, slice and mask stay as they came into force. -/
theorem State.resizeSweep_keeps (hx : s.part p = some x) :
    (s.resizeSweep p).rects = s.rects ∧ ∃ y, (s.resizeSweep p).part p = some y ∧ y.slice = x.slice ∧ y.mask = x.mask := by
  have hself : s.rects = s.rects ∧ ∃ y, s.part p = some y ∧ y.slice = x.slice ∧ y.mask = x.mask := ⟨rfl, x, hx, rfl, rfl⟩
  simp only [State.resizeSweep, hx]
  cases hz : x.resize with
  | none => exact hself
  | some z =>
    have hswept := s.sameTables_sweepWaysAll p z.ways
    dsimp only
    generalize s.sweepWaysAll p z.ways = t at hswept ⊢
    split
    · exact hself
    · split
      · exact ⟨hswept.rects, x, (hswept.part p).trans hx, rfl, rfl⟩
      · have hended := State.sameParts_opDone (t.setPart p (some { x with resize := none })) z.op stSuccess false []
        exact ⟨hended.rects.trans hswept.rects, _, (hended.part p).trans (State.part_setPart_self _ _ _), rfl, rfl⟩

/-- A pending change comes into force at a kernel boundary. -/
theorem State.resizeStep_takesEffect (hx : s.part p = some x) (hr : s.rect p = some r) (hz : x.resize = some z) (hpending : z.inForce = false)
    (hruns : s.kernelRuns p = false) (hfree : ∀ e ∈ s.rects, e.1 ≠ p → ∀ y, e.2 = some y → y.overlaps z.rect = false) :
    s.resizeStep p = (s.resizeForce p x z r).resizeSweep p := by
  simp only [State.resizeStep, hx, hr, hz, hpending, hruns, Bool.and_false, Bool.or_false, Bool.false_eq_true, if_false]
  refine if_neg fun htaken => ?_
  obtain ⟨⟨q, y⟩, he, hq⟩ := List.any_eq_true.1 htaken
  cases y with
  | none => simp at hq
  | some y =>
    obtain ⟨hother, hover⟩ : q ≠ p ∧ y.overlaps z.rect = true := by simpa using hq
    simp [hfree _ he hother y rfl] at hover

/-- The tables as the change leaves them. -/
theorem State.resizeForce_tables (s : State) (p : Nat) (x : Part) (z : Resize) (old : Rect) :
    (s.resizeForce p x z old).rects = (s.setRect p (some z.rect)).rects ∧
      ∃ y, (s.resizeForce p x z old).part p = some y ∧ y.slice = z.slice ∧ y.mask = z.mask := by
  have hmarked (t : State) : t.markEligible.rects = t.rects ∧ t.markEligible.part p = t.part p := ⟨rfl, rfl⟩
  have hsame (t : State) (cs : List Nat) : t.SameTables ((t.writeMask p z.mask).clearCores cs).retargetAll :=
    ((State.sameTables_of_onlyFab (t.onlyFab_writeMask p z.mask)).trans (State.sameTables_clearCores _ cs)).trans
      (State.sameParts_retargetAll _).toSameTables
  refine ⟨(hmarked _).1.trans (hsame _ _).rects, _, ((hmarked _).2.trans ((hsame _ _).part p)).trans (State.part_setPart_self s _ _), rfl, rfl⟩

end Resizing

section Quiesce

/-! PART_QUIESCE and PART_RESUME (R424, R428). -/

variable {s : State} {c : Cmd} {p : Nat} {x : Part}

theorem partQuiesce_begins (hd : s.doing c 0x0102 4 [(1, 3)]) (hx : s.part (c.arg 0 1) = some x) (hrunning : x.state = .running)
    (hbusy : s.partBusy (c.arg 0 1) = false) (hops : s.opsFull c = false) :
    ∃ u, exec .partQuiesce s = .next (u.setPart (c.arg 0 1) (some { x with state := .quiescing, op := some s.valac.nextOp })) ∧
      (s.startOp c (c.arg 0 1)).answered u c 0 [] := by
  obtain ⟨u, hexec, hans⟩ := State.runThen_of_args (instr := .partQuiesce) hd rfl rfl (by simp [hx]) (by simp [hbusy, hops])
  have hpart : u.part (c.arg 0 1) = some x := ((State.sameParts_of_answered hans).part _).trans hx
  refine ⟨u, hexec.trans ?_, hans⟩
  simp only [hpart, hrunning]
  rfl

/-- The operation that a partition has open ends, and the partition keeps none. -/
theorem State.endPartOp_ends (hx : s.part p = some x) : (s.endPartOp p).part p = some { x with op := none } ∧
    (s.endPartOp p).rects = s.rects ∧ (s.endPartOp p).cores = s.cores ∧ ∀ o, x.op = some o → (s.endPartOp p).ended o := by
  simp only [State.endPartOp, hx]
  cases hop : x.op with
  | none => exact ⟨by rw [hx, ← hop], rfl, rfl, by simp⟩
  | some o =>
    have hsame := State.sameParts_opDone (s.setPart p (some { x with op := none })) o stSuccess false []
    refine ⟨(hsame.part p).trans (State.part_setPart_self _ _ _), hsame.rects, hsame.cores, ?_⟩
    rintro _ ⟨rfl⟩
    exact State.ended_of_raised (State.raised_opDone _ _ _ _ _)

theorem partQuiesceComplete_ends {i : PartIdx} (hx : s.part i = some x) (hstate : x.state = .quiescing) (hquiet : s.partQuiet i = true) :
    exec (.partQuiesceComplete i) s = .next (((s.setPart i (some { x with state := .quiesced })).endPartOp i).postState i 2) := by
  change execPartQuiesceComplete i s = _
  simp [execPartQuiesceComplete, hx, hstate, hquiet]

theorem partResume_answered (hd : s.doing c 0x0103 4 [(1, 3)]) (hx : s.part (c.arg 0 1) = some x) (hquiesced : x.state = .quiesced)
    (hbusy : s.partBusy (c.arg 0 1) = false) (hcommit : s.committing = false) :
    ∃ t, exec .partResume s = .next t ∧
      (((s.setPart (c.arg 0 1) (some { x with state := .running })).retargetAll.markEligible).admission (c.arg 0 1)).answered t c 0 [] := by
  refine ⟨_, rfl, State.answered_of_reply hd rfl (by simp only [hx, hquiesced, if_true]) (State.doing_args hd ?_) ?_⟩
  · simp [hx]
  · simp [hbusy, hcommit]

end Quiesce

/-- Settles O45: an accepted command changes its partition in the tables, and cores and other partitions stay; a pending resize waits for the
kernels of its partition and then comes into force whole. -/
theorem partitions : Obligations.Partitions := by
  unfold Obligations.Partitions
  rintro s c p rfl
  refine ⟨?create, fun x r hx hr hbusy hops => ⟨?resize, ?quiesce⟩, ?takesEffect, ?quiesced, fun x => partResume_answered⟩
  case create =>
    intro hd hp hfn hfits hfree htaken hbound hunlocked
    obtain ⟨t, hexec, hans⟩ := partCreate_answered hd hp hfn hfits hfree htaken hbound hunlocked
    obtain ⟨hcur, hstate, -⟩ := id hans
    obtain ⟨hpart, hrect, hcores, hmask⟩ := State.newPart_tables hans
    exact ⟨t, c.newPart, hexec, hcur, hstate, (hpart _).trans (if_pos rfl), rfl, rfl, rfl, rfl, rfl, rfl, (hrect _).trans (if_pos rfl), hcores,
      fun q hq => ⟨(hpart q).trans (if_neg (Ne.symm hq)), (hrect q).trans (if_neg (Ne.symm hq))⟩, hmask⟩
  case resize =>
    intro hd hfn hbe hfits htaken hruns hremoves
    obtain ⟨t, hexec, hans⟩ := partResize_begins hd hx hfn hbe hfits htaken hbusy hops
    have hsame := State.sameParts_of_answered hans
    have hpart := (hsame.part (c.arg 0 1)).trans (State.part_setPart_self _ _ _)
    have hruns' : t.kernelRuns (c.arg 0 1) = true :=
      (State.kernelRuns_congr (s := s) hsame.cores (congrArg Work.launches hsame.work :) _).trans hruns
    rw [State.resizeStep_waits hpart ((hsame.rect _).trans hr) rfl rfl hruns' hremoves] at hexec
    exact ⟨t, _, hexec, State.began_of_answered hans rfl, hsame.rects, hsame.cores, hpart, rfl, rfl, rfl, rfl⟩
  case quiesce =>
    intro hd hrunning
    obtain ⟨u, hexec, hans⟩ := partQuiesce_begins hd hx hrunning hbusy hops
    have hsame := State.sameParts_of_answered hans
    have hbegan := State.began_of_answered hans rfl
    exact ⟨_, hexec, hbegan, hsame.rects, hsame.cores, State.part_setPart_self _ _ _⟩
  case takesEffect =>
    intro i x z r hx hz hpending hr hruns hfree
    obtain ⟨hrects, y, hy, hslice, hmask⟩ := s.resizeForce_tables i x z r
    obtain ⟨hrects', y', hy', hslice', hmask'⟩ := State.resizeSweep_keeps hy
    have hrect (q : Nat) : ((s.resizeForce i x z r).resizeSweep i).rect q = (s.setRect i (some z.rect)).rect q :=
      congrArg (fun m : SMap (Option Rect) => SMap.get none m q) (hrects'.trans hrects)
    exact ⟨_, y', congrArg Host.Outcome.next (State.resizeStep_takesEffect hx hr hz hpending hruns hfree),
      (hrect _).trans (State.rect_setRect_self _ _ _), hy', hslice'.trans hslice, hmask'.trans hmask,
      fun q hq => (hrect q).trans ((State.rect_setRect _ _ _ q).trans (if_neg (Ne.symm hq)))⟩
  case quiesced =>
    intro i x hx hstate hquiet
    obtain ⟨hpart, hrects, hcores, hended⟩ := State.endPartOp_ends
      (s := s.setPart i (some { x with state := .quiesced })) (State.part_setPart_self _ _ _)
    have hraised := State.raised_postPart ((s.setPart i (some { x with state := .quiesced })).endPartOp i) 0x14 i (leBytes 1 2)
    have hsame := State.sameParts_of_raised hraised
    exact ⟨_, partQuiesceComplete_ends hx hstate hquiet, (hsame.part i).trans hpart, hsame.rects.trans hrects, hsame.cores.trans hcores,
      fun o ho y hy => hended o ho y (State.raised_ops hraised ▸ hy)⟩

end Sys2Proof.Machine

/-! Queues and rings: creation, halt, resume, removal, ABORT, and the registers of event rings (R356, R369 to R375, R391 to R393). -/

namespace Sys2Proof.Machine

section Creation

/-! QUEUE_CREATE, CRING_CREATE and UNDELIVERABLE_DRAIN. -/

variable {s : State} {c : Cmd} {n : Nat} {x : Part}

/-- The queue that a QUEUE_CREATE asks for, at its index in the partition. -/
def Cmd.newQueue (c : Cmd) (index : Nat) : Queue :=
  { part := c.arg 0 1, be := c.arg 1 1 == 1, log2 := c.arg 2 1, tier1 := c.arg 3 1 == 1, ctx := c.arg 4 2, ring := BitVec.ofNat 64 (c.arg 8 8),
    index, tail := 0, head := 0, retired := 0, state := .active, reason := 0, lastLaunch := 0, holdFrom := none, waitAlmanac := false,
    haltOp := none, abortSeqs := [] }

theorem queueCreate_answered {i : Nat} {y : Ctx} (hd : s.doing c 0x0300 16 [(6, 2)]) (hx : s.part (c.arg 0 1) = some x)
    (hforeign : s.foreignTo c (c.arg 0 1) = false) (hbusy : s.partBusy (c.arg 0 1) = false) (hkind : c.arg 1 1 ≤ 1) (hlow : 4 ≤ c.arg 2 1)
    (hhigh : c.arg 2 1 ≤ 16) (htier : c.arg 3 1 ≤ 1) (halign : c.arg 8 8 % 4096 = 0) (hy : s.ctxById (c.arg 4 2) = some y)
    (hpart : y.partition = c.arg 0 1) (hbe : x.be = true → c.arg 1 1 = 1) (hunlocked : s.locked (.ctx (c.arg 4 2)) = false)
    (hn : lowestFree 4096 (fun i => (s.queue i).isSome) = some n) (hi : s.freeIndex (c.arg 0 1) = some i) :
    ∃ t, exec .queueCreate s = .next t ∧ (s.setQueue n (some (c.newQueue i))).answered t c 0
      (leBytes 2 n ++ leBytes 2 0 ++ leBytes 4 (if c.role = 1 then i * 0x1000 else n * 0x1000)) := by
  have hctx : s.noCtx c (c.arg 4 2) = false := State.noCtx_eq_false hy (hpart ▸ hforeign)
  have hpermitted : (!(c.arg 1 1 == 1) && x.be) = false := by
    cases hb : x.be with
    | false => exact Bool.and_false _
    | true => simp [hbe hb]
  refine ⟨_, rfl, State.answered_of_reply hd rfl (by simp only [hn, hi]; rfl) (State.doing_args hd ?_) ?_⟩
  · simp [State.noPart_eq_false hx hforeign, hctx, hy, hpart, hkind, Nat.not_lt.2 hlow, hhigh, htier, halign]
  · simpa [hx, hbusy, hunlocked, hn, hi] using hpermitted

/-- The completion ring that a CRING_CREATE asks for. -/
def Cmd.newCring (c : Cmd) : CRing :=
  { part := c.arg 0 1, log2 := c.arg 2 1, tier1 := c.arg 3 1 == 1, fn := if c.role = 1 then c.mbx - 1 else 0, vector := c.arg 4 2,
    addr := BitVec.ofNat 64 (c.arg 8 8), count := 0, seen := 0 }

theorem cringCreate_answered (hd : s.doing c 0x0306 16 [(1, 1), (6, 2)]) (hx : s.part (c.arg 0 1) = some x)
    (hforeign : s.foreignTo c (c.arg 0 1) = false) (hbusy : s.partBusy (c.arg 0 1) = false) (hlow : 4 ≤ c.arg 2 1) (hhigh : c.arg 2 1 ≤ 16)
    (htier : c.arg 3 1 ≤ 1) (halign : c.arg 8 8 % 4096 = 0) (hvector : c.arg 4 2 < tableSize (if c.role = 1 then c.mbx - 1 else 0))
    (hn : lowestFree 4096 (fun i => (s.cring i).isSome) = some n) :
    ∃ t, exec .cringCreate s = .next t ∧ (s.setCring n (some c.newCring)).answered t c 0 (leBytes 2 n ++ leBytes 2 0) := by
  refine ⟨_, rfl, State.answered_of_reply hd rfl (by simp only [hn]; rfl) (State.doing_args hd ?_) ?_⟩
  · simp [State.noPart_eq_false hx hforeign, Nat.not_lt.2 hlow, hhigh, htier, halign, hvector]
  · simp [hbusy, hn]

theorem undeliverableDrain_answered (hd : s.doing c 0x0304 4 [(1, 1)]) (hx : s.part (c.arg 0 1) = some x)
    (hforeign : s.foreignTo c (c.arg 0 1) = false) (hbusy : s.partBusy (c.arg 0 1) = false) (hlow : 1 ≤ c.arg 2 2) (hhigh : c.arg 2 2 ≤ 63)
    {k : Nat} (hk : k = Nat.min x.undeliverable.length (c.arg 2 2)) :
    ∃ t, exec .undeliverableDrain s = .next t ∧
      (s.setPart (c.arg 0 1) (some { x with undeliverable := x.undeliverable.drop k })).answered t c 0
        (leBytes 2 k ++ leBytes 2 (x.undeliverable.length - k) ++ List.replicate 28 0 ++ (x.undeliverable.take k).flatten) := by
  subst hk
  refine ⟨_, rfl, State.answered_of_reply hd rfl (by simp only [hx]) (State.doing_args hd ?_) ?_⟩
  · simp [State.noPart_eq_false hx hforeign, Nat.one_le_iff_ne_zero.1 hlow, hhigh]
  · simp [hbusy]

end Creation

section Lives

/-! Removal, halt and resume of a queue (R356, R374, R392). -/

variable {s t : State} {c : Cmd} {x : Queue}

theorem queueDestroy_answered (hd : s.doing c 0x0301 4 [(2, 2)]) (hx : s.queue (c.arg 0 2) = some x) (hforeign : s.foreignTo c x.part = false)
    (hunlocked : s.locked (.queue (c.arg 0 2)) = false) (hretired : s.unretired (c.arg 0 2) = 0) :
    ∃ t, exec .queueDestroy s = .next t ∧ (s.setQueue (c.arg 0 2) none).answered t c 0 [] := by
  refine ⟨_, rfl, State.answered_of_args hd rfl ?_ ?_⟩
  · simp [State.noQueue_eq_false hx hforeign]
  · simp [hunlocked, hretired]

theorem State.SameTables.queueRuns (h : s.SameTables t) (q : Nat) : t.queueRuns q = s.queueRuns q := by
  unfold State.queueRuns
  rw [h.work]

/-- A queue halts at once when none of its launches runs, and otherwise when the running one has retired (R392). -/
def State.haltActive (s : State) (q : Nat) (x : Queue) (op : Nat) : State :=
  if s.queueRuns q then s.setQueue q (some { x with state := .halting, haltOp := some op })
  else (s.setQueue q (some { x with state := .halted, reason := 0 })).opDone op stSuccess false []

theorem queueHalt_begins (hd : s.doing c 0x0302 4 [(2, 2)]) (hx : s.queue (c.arg 0 2) = some x) (hforeign : s.foreignTo c x.part = false)
    (hunlocked : s.locked (.queue (c.arg 0 2)) = false) (hactive : x.state = .active) (hops : s.opsFull c = false) :
    ∃ u, exec .queueHalt s = .next (u.haltActive (c.arg 0 2) x s.valac.nextOp) ∧ (s.startOp c (c.arg 0 2)).answered u c 0 [] := by
  obtain ⟨u, hexec, hans⟩ := State.runThen_of_args (instr := .queueHalt) hd rfl rfl (by simp [State.noQueue_eq_false hx hforeign])
    (by simp [hunlocked, hops])
  refine ⟨u, hexec.trans ?_, hans⟩
  have hqueue : u.queue (c.arg 0 2) = some x := ((State.sameParts_of_answered hans).queue _).trans hx
  simp only [hqueue, hactive]
  rfl

theorem queueResume_answered (hd : s.doing c 0x0303 4 [(2, 2)]) (hx : s.queue (c.arg 0 2) = some x) (hforeign : s.foreignTo c x.part = false)
    (hunlocked : s.locked (.queue (c.arg 0 2)) = false) (hhalted : x.state = .halted ∨ x.state = .haltedError) :
    ∃ t, exec .queueResume s = .next t ∧
      (s.setQueue (c.arg 0 2) (some { x with state := .active, reason := 0 })).markEligible.answered t c 0 [] := by
  refine ⟨_, rfl, State.answered_of_reply hd rfl ?_ (State.doing_args hd ?_) ?_⟩
  · rcases hhalted with h | h <;> simp only [hx, h] <;> rfl
  · simp [State.noQueue_eq_false hx hforeign]
  · rcases hhalted with h | h <;> simp [hx, h, hunlocked]

end Lives

section Aborts

/-! ABORT (R393). -/

variable {s : State} {c : Cmd} {x : Queue} {id : DWord}

/-- What an accepted ABORT does: it stops a consumed launch, or names one to come. -/
def State.abortEffect (s : State) (q : Nat) (x : Queue) (id : DWord) : State :=
  if s.abortCase x id = .stop then (s.abortLaunch id).markEligible
  else s.setQueue q (some { x with abortSeqs := x.abortSeqs ++ [BitVec.ofNat 32 (bitsOf id.toNat 20 32)] })

theorem abort_answered (hd : s.doing c 0x0420 8 []) (hx : s.queue (c.arg 0 8 / 2 ^ 52) = some x) (hforeign : s.foreignTo c x.part = false)
    (hlow : c.arg 0 8 % 2 ^ 20 = 0) (hid : id = BitVec.ofNat 64 (c.arg 0 8)) (hvalid : s.abortCase x id ≠ .invalid)
    (hopen : s.abortCase x id ≠ .complete) :
    ∃ t, exec .abort s = .next t ∧ (s.abortEffect (c.arg 0 8 / 2 ^ 52) x id).answered t c 0 [] := by
  subst hid
  have hqueue : bitsOf (c.arg 0 8) 52 12 = c.arg 0 8 / 2 ^ 52 := by
    have hlt := c.arg_lt 0 8
    unfold bitsOf
    omega
  have hnode : bitsOf (c.arg 0 8) 0 20 = 0 := (bitsOf_zero _ _).trans hlow
  refine ⟨_, rfl, State.answered_of_check (bad := [(s.noQueue c (c.arg 0 8 / 2 ^ 52) || s.abortCase x (BitVec.ofNat 64 (c.arg 0 8)) == .invalid, 0)])
    (rules := [(s.abortCase x (BitVec.ofNat 64 (c.arg 0 8)) == .complete, stComplete)]) hd ?_ ?_ ?_⟩
  · simp only [hqueue, hx, hnode]
    rfl
  · simpa [hvalid] using State.noQueue_eq_false hx hforeign
  · simp [hopen]

/-- A consumed launch that has not ended is stopped. -/
theorem State.abortEffect_stop {l : Launch} (hl : s.launch id = some l) (hopen : l.verdict = none) (q : Nat) :
    s.abortCase x id = .stop ∧ s.abortEffect q x id = (s.stopLaunch id (verdictAborted 0x21) (verdictAborted 0x21)).markEligible := by
  have hcase : s.abortCase x id = .stop := by simp [State.abortCase, hl, hopen]
  exact ⟨hcase, if_pos hcase⟩

/-- The launch count in an identifier. -/
theorem launchSeq_eq (n : Nat) : BitVec.ofNat 32 (bitsOf (BitVec.ofNat 64 n).toNat 20 32) = BitVec.ofNat 32 (n / 2 ^ 20) := by
  apply BitVec.eq_of_toNat_eq
  simp only [BitVec.toNat_ofNat, bitsOf]
  omega

end Aborts

section EventRings

/-! EVR_CTRL and EVR_HEAD (R369, R372). -/

variable {s : State} {fn : Nat}

/-- A ring without backlog and without drops writes nothing. -/
theorem State.evrDrain_of_empty (hbacklog : (s.ring fn).backlog = []) (hlost : (s.ring fn).lost = 0) (n : Nat) : s.evrDrain fn n = s := by
  cases n with
  | zero => rfl
  | succ n => simp [State.evrDrain, hbacklog, hlost]

theorem State.drainRing_setRing {r : EventRing} (hbacklog : r.backlog = []) (hlost : r.lost = 0) :
    (s.setRing fn r).drainRing fn = s.setRing fn r :=
  State.evrDrain_of_empty (by rw [State.ring_setRing_self, hbacklog]) (by rw [State.ring_setRing_self, hlost]) 257

/-- The fields that a write of EVR_CTRL sets; its size is kept while the ring is enabled. -/
def EventRing.configured (r : EventRing) (v : Word) : EventRing :=
  { r with enable := v.getLsbD 31, vector := bitsOf v.toNat 16 11, size := if r.enable then r.size else bitsOf v.toNat 0 5 }

/-- The ring after a write of EVR_CTRL: one that is disabled begins anew. -/
def EventRing.controlled (r : EventRing) (v : Word) : EventRing :=
  if r.enable && !v.getLsbD 31 then { r.configured v with head := 0, tail := 0, phase := true } else r.configured v

theorem EventRing.controlled_fields (r : EventRing) (v : Word) :
    (r.controlled v).enable = v.getLsbD 31 ∧ (r.controlled v).vector = v.toNat / 2 ^ 16 % 2 ^ 11 ∧
      (r.controlled v).size = (if r.enable then r.size else v.toNat % 32) ∧
      (r.enable = true → v.getLsbD 31 = false → (r.controlled v).head = 0 ∧ (r.controlled v).tail = 0 ∧ (r.controlled v).phase = true) ∧
      (r.controlled v).backlog = r.backlog ∧ (r.controlled v).lost = r.lost := by
  have hsize : bitsOf v.toNat 0 5 = v.toNat % 32 := bitsOf_zero _ _
  unfold EventRing.controlled
  split
  · exact ⟨rfl, rfl, congrArg (ite _ _) hsize, fun _ _ => ⟨rfl, rfl, rfl⟩, rfl, rfl⟩
  case isFalse h => exact ⟨rfl, rfl, congrArg (ite _ _) hsize, fun he hv => absurd (by rw [he, hv]; rfl) h, rfl, rfl⟩

end EventRings

/-- Settles O49: an accepted command is answered over the table with its entry changed; a halt begins an operation, which ends at once when
nothing runs. -/
theorem queues : Obligations.Queues := by
  unfold Obligations.Queues
  refine fun s c => ⟨?create, ?lives, ?abort, ?rings⟩
  case create =>
    rintro p i n x y rfl hx hforeign hbusy
    refine ⟨?queue, ?cring, ?drain⟩
    case queue =>
      intro hd hkind hlow hhigh htier halign hy hpart hbe hunlocked hn hfree hused hi
      obtain ⟨t, hexec, hans⟩ := queueCreate_answered hd hx hforeign hbusy hkind hlow hhigh htier halign hy hpart hbe hunlocked
        (lowestFree_eq_some hn (by rw [hfree]; rfl) hused) hi
      exact ⟨t, _, hexec, hans, rfl, rfl, rfl, rfl, rfl, rfl, rfl, rfl, rfl, rfl⟩
    case cring =>
      intro hd hlow hhigh htier halign hvector hn hfree hused
      obtain ⟨t, hexec, hans⟩ := cringCreate_answered hd hx hforeign hbusy hlow hhigh htier halign hvector
        (lowestFree_eq_some hn (by rw [hfree]; rfl) hused)
      exact ⟨t, _, hexec, hans, rfl, rfl, rfl, rfl, rfl⟩
    case drain => exact fun k hk hd hlow hhigh => undeliverableDrain_answered hd hx hforeign hbusy hlow hhigh hk
  case lives =>
    rintro q x rfl hx hforeign hunlocked
    refine ⟨fun hd => queueDestroy_answered hd hx hforeign hunlocked, fun hd hactive hops => ?halt,
      fun hd => queueResume_answered hd hx hforeign hunlocked⟩
    obtain ⟨u, hexec, hans⟩ := queueHalt_begins hd hx hforeign hunlocked hactive hops
    obtain ⟨hcur, hstate, hopen⟩ := State.began_of_answered hans rfl
    have hbegun := State.sameParts_of_answered hans
    have hruns : u.queueRuns (c.arg 0 2) = s.queueRuns (c.arg 0 2) := hbegun.queueRuns (c.arg 0 2)
    refine ⟨fun hrun => ?_, fun hrun => ?_⟩
    · rw [State.haltActive, if_pos (hruns.trans hrun)] at hexec
      exact ⟨_, hexec, ⟨hcur, hstate, hopen⟩, hbegun.cores, State.queue_setQueue_self _ _ _⟩
    · rw [State.haltActive, if_neg (by simp [hruns.trans hrun])] at hexec
      have hraised := (u.setQueue (c.arg 0 2) (some { x with state := .halted, reason := 0 })).raised_opDone s.valac.nextOp stSuccess false []
      have hsame := State.sameParts_of_raised hraised
      exact ⟨_, hexec, (congrArg Mailbox.state (State.raised_mbx hraised c.mbx)).trans hstate, State.ended_of_raised hraised,
        hsame.cores.trans hbegun.cores, (hsame.queue _).trans (State.queue_setQueue_self _ _ _)⟩
  case abort =>
    rintro q x id hd rfl hx hforeign hlow hid
    refine ⟨fun l hl hopen => ?_, fun hl hcase => ?_⟩
    · obtain ⟨hcase, heffect⟩ := State.abortEffect_stop (x := x) hl hopen (c.arg 0 8 / 2 ^ 52)
      rw [← heffect]
      exact abort_answered hd hx hforeign hlow hid (by simp [hcase]) (by simp [hcase])
    · obtain ⟨t, hexec, hans⟩ := abort_answered hd hx hforeign hlow hid (by simp [hcase]) (by simp [hcase])
      rw [State.abortEffect, if_neg (by simp [hcase]), hid, launchSeq_eq] at hans
      exact ⟨t, hexec, hans⟩
  case rings =>
    rintro fn v r rfl hbacklog hlost
    obtain ⟨henable, hvector, hsize, hanew, hbacklog', hlost'⟩ := (s.ring fn).controlled_fields v
    have hothers (r : EventRing) (k : Nat) (hk : k ≠ fn.val) : (s.setRing fn r).ring k = s.ring k :=
      (s.ring_setRing _ _ _).trans (if_neg (Ne.symm hk))
    refine ⟨⟨_, congrArg Host.Outcome.next (State.drainRing_setRing (hbacklog'.trans hbacklog) (hlost'.trans hlost)), rfl, hothers _, ?_⟩,
      _, congrArg Host.Outcome.next (State.drainRing_setRing hbacklog hlost), rfl, hothers _, ?_⟩
    · rw [State.ring_setRing_self]
      exact ⟨henable, hvector, hsize, hanew⟩
    · rw [State.ring_setRing_self, bitsOf_zero]

end Sys2Proof.Machine

/-! The management port: SPDM, sessions and their frames, and the link (R346, R520 to R526). -/

namespace Sys2Proof.Machine

section Spdm

/-! Answers to SPDM requests (R520). -/

variable {s : State} {code : Byte}

/-- Over DOE a request is answered whenever Valac runs and the PCI Express link is up. -/
theorem exec_spdmRequest_doe (hup : s.sys.valacUp = true) (hlink : 0 < s.host.width) (code : Byte) (body : List Byte) :
    exec (.spdmRequest .doe code body) s = .next (s.spdm .doe code body) := by
  change execSpdmRequest .doe code body s = _
  simp [execSpdmRequest, hup, hlink]

/-- GET_VERSION needs no earlier stage and begins the connection anew. -/
theorem State.spdm_getVersion (s : State) (body : List Byte) :
    s.spdm .doe 0x84 body = ({ s with fw := { s.fw with spdm := SMap.set 0 s.fw.spdm 0 1 } }).emit (.spdm .doe 0x04 [0x12, 0x13]) := rfl

/-- What R520 does not list is answered with an error. -/
theorem State.spdm_unlisted (h : spdmStage code.toNat = none) (t : SpdmPort) (body : List Byte) :
    s.spdm t code body = s.emit (.spdm t 0x7F [7]) := by
  simp only [State.spdm, h]

end Spdm

section Sessions

/-! Sessions: their opening, the frames they take, and their end (R523 to R525). -/

variable {s : State} {f : MgmtFrame} {x : Session}

theorem exec_hello {body : List Byte} (hserves : s.portServes = true) (hlen : body.length = 1600) : exec (.hello body) s = .next (s.hello body) := by
  change execHello body s = _
  simp [execHello, hserves, hlen]

/-- The session that a PROVE frame opens. -/
def State.provenSession (s : State) (f : MgmtFrame) (id : DWord) : Session :=
  { id, proved := true, rxCount := f.counter.toNat, txCount := 0, keyDigest := keyDigest (f.body.take 1793), idle := s.time.beats }

/-- A whole PROVE frame under an accepted key opens the offered session when its signature holds, and is discarded otherwise. -/
theorem exec_prove {id : DWord} {tr : List Byte} (hserves : s.portServes = true) (hoffer : s.fw.hello = some (id, tr)) (hid : f.session = id)
    (htag : f.tagOk = true) (hcount : 0 < f.counter.toNat) (hlen : f.body.length = 3073) (hkey : s.keyAccepted (f.body.take 1793) = true) :
    exec (.prove f) s = .next (if Config.falconVerify (f.body.take 1793) tr (f.body.drop 1793) = true then
      { s with fw := { s.fw with session := some (s.provenSession f id), hello := none, events := [] } } else s) := by
  change execProve f s = _
  simp only [execProve, hoffer, hserves, hid, htag, hcount, hlen, hkey, beq_self_eq_true, decide_true, Bool.true_and, Bool.and_true]
  rfl

/-- The session after a frame that it has accepted. -/
def Session.counts (x : Session) (f : MgmtFrame) (beats : Nat) : Session := { x with rxCount := f.counter.toNat, idle := beats }

/-- The state in which an accepted frame acts. -/
def State.countsFrame (s : State) (x : Session) (f : MgmtFrame) : State := { s with fw := { s.fw with session := some (x.counts f s.time.beats) } }

/-- A frame that the open session takes is accepted, and then acts. -/
theorem State.onFrame_takes (hserves : s.portServes = true) (hx : s.fw.session = some x) (htakes : x.takes f = true) (act : State → State) :
    s.onFrame f act = act (s.countsFrame x f) := by
  simp only [State.onFrame, hx, hserves, htakes, Bool.and_self, if_true]
  rfl

/-- A console command goes to the console's mailbox unless one is in progress there. -/
theorem State.consoleCommand_idle (hidle : (s.mbx 66).state ≠ 1) (body : List Byte) :
    s.consoleCommand body = s.setMbx 66 { s.mbx 66 with
      buffer := SMap.putBytes [] 0 (body.take 4096), state := 1, doorbell := BitVec.ofNat 16 (fieldAt body 2 2) } := by
  simp only [State.consoleCommand, hidle, if_false]

/-- A frame to the console leaves Valac alone. -/
theorem State.valac_responseFrame (s : State) (body : List Byte) : (s.responseFrame body).valac = s.valac := by
  unfold State.responseFrame
  split
  · split
    · rfl
    · rfl
  · rfl

/-- While one is in progress it is answered by a frame alone (R346). -/
theorem State.consoleCommand_busy (hbusy : (s.mbx 66).state = 1) (body : List Byte) :
    (s.consoleCommand body).valac = s.valac ∧ (s.consoleCommand body).cores = s.cores := by
  simp only [State.consoleCommand, hbusy, if_true]
  exact ⟨s.valac_responseFrame _, (State.raised_cores (s.raised_responseFrame _) :)⟩

end Sessions

section Events

/-! EVENT frames are sent again until they are acknowledged (R524). -/

variable {s : State} {x : Session} {n sent : Nat} {body : List Byte}

/-- The events with that of number `n` counted as sent once more. -/
def eventsResent (events : List (Nat × List Byte × Nat)) (n : Nat) (body : List Byte) (sent : Nat) : List (Nat × List Byte × Nat) :=
  events.map fun e => if e.1 = n then (n, body, sent + 1) else e

theorem mem_eventsResent {events : List (Nat × List Byte × Nat)} (h : events.find? (fun e => e.1 == n) = some (n, body, sent)) :
    (n, body, sent + 1) ∈ eventsResent events n body sent :=
  List.mem_map.2 ⟨_, List.mem_of_find?_eq_some h, if_pos rfl⟩

theorem exec_eventResend (hserves : s.portServes = true) (hx : s.fw.session = some x)
    (hfind : s.fw.events.find? (fun e => e.1 == n) = some (n, body, sent)) (hsent : sent ≤ 60) :
    exec (.eventResend n) s = .next (({ s with fw := { s.fw with
      session := some { x with txCount := x.txCount + 1 }, events := eventsResent s.fw.events n body sent } }).emit
        (.frame 6 x.id (BitVec.ofNat 64 (x.txCount + 1)) body)) := by
  change execEventResend n s = _
  simp only [execEventResend, hserves, if_true, State.resendEvent, hx, hfind, Nat.not_lt.2 hsent, if_false]
  rfl

end Events

section Ends

/-! The end of an idle session, and the link (R522, R524). -/

variable {s : State} {x : Session}

theorem exec_mgmtSessionIdle (hx : s.fw.session = some x) (hidle : x.idle + 300000000 ≤ s.time.beats) :
    exec .mgmtSessionIdle s = .next s.closeSession := by
  change execMgmtSessionIdle s = _
  simp only [execMgmtSessionIdle, hx, hidle, if_true]

/-- The link is up as the event says; the rate changes when a trial of one ends without the link. -/
theorem State.portLink_powered (hstandby : s.sys.standby = true) (up : Bool) : s.portLink up =
    { s with fw := { s.fw with mgmtUp := up, mgmtRate := if up || s.fw.mgmtUp then s.fw.mgmtRate else 1 - s.fw.mgmtRate } } := by
  cases up with
  | true => simp [State.portLink, hstandby]
  | false => cases hup : s.fw.mgmtUp <;> simp [State.portLink, hstandby, hup]

end Ends

/-- Settles O58: a request over a link that is up reaches its operation, and an accepted frame acts in the state that counts it. -/
theorem managementPort : Obligations.ManagementPort := by
  unfold Obligations.ManagementPort
  refine fun s => ⟨fun code body hup hlink => ⟨?version, ?unlisted⟩, fun hserves => ⟨?hello, ?prove, ?frames, ?resend⟩, ?idle, ?link⟩
  case version =>
    rintro rfl
    exact ⟨_, (exec_spdmRequest_doe hup hlink 0x84 body).trans (congrArg Host.Outcome.next (s.spdm_getVersion body)), rfl, rfl,
      SMap.get_set_self 0 s.fw.spdm 0 1⟩
  case unlisted => exact fun hstage => ⟨_, exec_spdmRequest_doe hup hlink code body, State.spdm_unlisted hstage .doe body⟩
  case hello => exact fun body hlen => ⟨_, _, exec_hello hserves hlen, rfl, rfl, rfl, rfl⟩
  case prove =>
    intro f id tr hoffer hid htag hcount hlen hkey
    have hexec := exec_prove hserves hoffer hid htag hcount hlen hkey
    by_cases hverify : Config.falconVerify (f.body.take 1793) tr (f.body.drop 1793) = true
    · rw [if_pos hverify] at hexec
      simp only [if_pos hverify]
      exact ⟨_, hexec, rfl, rfl, rfl, _, rfl, rfl, rfl, rfl, rfl⟩
    · rw [if_neg hverify] at hexec
      simp only [if_neg hverify]
      exact ⟨s, hexec, rfl, rfl⟩
  case frames =>
    intro f x hx htakes
    have hact (act : State → State) : s.onFrame f act = act (s.countsFrame x f) := State.onFrame_takes hserves hx htakes act
    refine ⟨fun hidle => ?_, fun hbusy => ?_, ⟨_, congrArg Host.Outcome.next (hact _), rfl, rfl⟩,
      ⟨_, congrArg Host.Outcome.next (hact _), rfl, rfl, rfl⟩⟩
    · refine ⟨_, congrArg Host.Outcome.next ((hact _).trans (State.consoleCommand_idle (s := s.countsFrame x f) hidle f.body)), ?_⟩
      rw [State.mbx_setMbx_self]
      exact ⟨rfl, rfl, rfl, fun m hm => (State.mbx_setMbx _ _ _ _).trans (if_neg (Ne.symm hm))⟩
    · exact ⟨_, congrArg Host.Outcome.next (hact _), State.consoleCommand_busy (s := s.countsFrame x f) hbusy f.body⟩
  case resend =>
    intro n x body sent hx hfind hsent
    exact ⟨_, exec_eventResend hserves hx hfind hsent, rfl, rfl, mem_eventsResent hfind⟩
  case idle => exact fun x hx hidle => ⟨_, exec_mgmtSessionIdle hx hidle, rfl⟩
  case link => exact fun hstandby up => ⟨_, rfl, State.portLink_powered hstandby up⟩

end Sys2Proof.Machine

/-! Every command of a link answers (R376, R385, R388, R484, R487; the model's choice, assumption 68). -/

namespace Sys2Proof.Machine

section Completion

/-! A row answers a next state, after a check of its payload if it carries one (assumption 68). -/

/-- What CommandsComplete asks of one command. -/
def Instr.completes (c : Instr) (s : State) : Prop :=
  (c.wellFormed = true → ∃ t, exec c s = .next t) ∧ (c.wellFormed = false → ∃ m, exec c s = .fault (.malformed m))

variable {c : Instr} {s t : State} {m : String}

/-- A row that checks nothing. -/
theorem Instr.completes_of_next (hexec : exec c s = .next t) (hwf : c.wellFormed = true) : Instr.completes c s :=
  ⟨fun _ => ⟨t, hexec⟩, fun hbad => absurd (hwf.symm.trans hbad) Bool.noConfusion⟩

/-- A row whose check finds exactly the commands that no link carries. -/
theorem Instr.completes_of_check {bad : Prop} [Decidable bad] (hexec : exec c s = if bad then .fault (.malformed m) else .next t)
    (hbad : bad ↔ c.wellFormed = false) : Instr.completes c s :=
  ⟨fun hwf => ⟨t, hexec.trans (if_neg fun h => absurd (hwf.symm.trans (hbad.1 h)) Bool.noConfusion)⟩,
    fun hwf => ⟨m, hexec.trans (if_pos (hbad.2 hwf))⟩⟩

/-- A row that checks the command's own form. -/
theorem Instr.completes_of_wellFormed (hexec : exec c s = if !c.wellFormed then .fault (.malformed m) else .next t) : Instr.completes c s :=
  Instr.completes_of_check hexec (Bool.not_eq_true' c.wellFormed).to_iff

/-- A payload is empty or too long, or it has from 1 to `b` bytes. -/
theorem sizeCheck_iff (n b : Nat) : (decide (n = 0) || decide (b < n)) = true ↔ (decide (0 < n) && decide (n ≤ b)) = false := by
  simp only [Bool.or_eq_true, Bool.and_eq_false_iff, decide_eq_true_eq, decide_eq_false_iff_not]
  omega

end Completion

/-- Settles O3: fourteen rows check what they carry before anything else; every other row answers a next state. -/
theorem commandsComplete : Obligations.CommandsComplete := by
  unfold Obligations.CommandsComplete
  intro c s
  show Instr.completes c s
  cases c with
  | registerWrite sp off data => exact Instr.completes_of_wellFormed rfl
  | bar4Read fn off len => exact Instr.completes_of_check rfl (sizeCheck_iff len 4096)
  | bar4Write fn off data poisoned relaxed => exact Instr.completes_of_check rfl (sizeCheck_iff data.length 512)
  | bundleCredit b dir counts => exact Instr.completes_of_check rfl (by simp [Instr.wellFormed])
  | epochWriteRecord w line data => exact Instr.completes_of_wellFormed rfl
  | syncWriteRecord w tag line data => exact Instr.completes_of_wellFormed rfl
  | reloadData tag data => exact Instr.completes_of_check rfl (by cases data <;> simp [Instr.wellFormed])
  | launchConsume q desc => exact Instr.completes_of_wellFormed rfl
  | semaphorePoll launch word => exact Instr.completes_of_wellFormed rfl
  | completionRingRecheck q word => exact Instr.completes_of_wellFormed rfl
  | launchCommit launch sig record => exact Instr.completes_of_wellFormed rfl
  | hostCompletion rid r => exact Instr.completes_of_check rfl (by cases r <;> simp [Instr.wellFormed, CplStatus.wf])
  | walkComplete row entries casOk => exact Instr.completes_of_check rfl (by simp [Instr.wellFormed])
  | thermalSample l temps =>
    cases l with
    | half h => exact Instr.completes_of_check rfl (by simp [Instr.wellFormed])
    | hub k => exact Instr.completes_of_check rfl (by simp [Instr.wellFormed])
  | _ => exact Instr.completes_of_next rfl rfl

end Sys2Proof.Machine

/-! Writes of QDB_TAIL (R375). -/

namespace Sys2Proof.Machine

section TailWrites

/-! QDB_TAIL (R375). -/

variable {s : State} {q : Nat} {x : Queue} {v : Word}

theorem State.haltQueue_eq (hx : s.queue q = some x) (state : QueueState) (reason : Nat) :
    s.haltQueue q state reason = (s.setQueue q (some { x with state, reason })).postPart 0x10 x.part
      (leBytes 2 q ++ leBytes 2 state.code ++ leBytes 4 0 ++ leBytes 8 x.lastLaunch.toNat) := by
  simp only [State.haltQueue, hx]

theorem State.tailWrite_covered (hx : s.queue q = some x) (hserves : s.sys.state = 2) (hfits : (v - x.head).toNat ≤ 2 ^ x.log2) :
    s.tailWrite q v = s.setQueue q (some { x with tail := v }) := by
  simp only [State.tailWrite, hx, hserves, if_neg (Nat.not_lt.2 hfits)]
  rfl

theorem State.tailWrite_beyond (hx : s.queue q = some x) (hserves : s.sys.state = 2) (hbeyond : 2 ^ x.log2 < (v - x.head).toNat) :
    s.tailWrite q v = if x.state = .active then s.haltQueue q .haltedError 2 else s := by
  simp only [State.tailWrite, hx, hserves, if_pos hbeyond, beq_iff_eq]
  rfl

/-- A queue whose head has reached its tail has nothing to consume. -/
theorem launchConsume_empty {q : QueueIdx} (hx : s.queue q = some x) (hempty : x.head = x.tail) {desc : ReadResult}
    (hlen : desc.len 512 = true) : exec (.launchConsume q desc) s = .next s := by
  show execLaunchConsume q desc s = _
  simp [execLaunchConsume, hlen, hx, hempty]

end TailWrites

/-- Settles O11: the tail's distance from the head decides whether it is taken over, and a queue whose head is its tail stays as it is. -/
theorem queueTailWrites : Obligations.QueueTailWrites := by
  unfold Obligations.QueueTailWrites
  intro q v s x hx hserves
  refine ⟨fun hfits => ⟨_, congrArg Host.Outcome.next (State.tailWrite_covered hx hserves hfits), rfl⟩, fun hbeyond => ⟨fun hactive => ?_, fun hidle => ?_⟩,
    fun desc hlen hempty => launchConsume_empty hx hempty hlen⟩
  · refine ⟨_, congrArg Host.Outcome.next (State.tailWrite_beyond hx hserves hbeyond), ?_⟩
    rw [if_pos hactive, State.haltQueue_eq hx]
    rfl
  · exact congrArg Host.Outcome.next ((State.tailWrite_beyond hx hserves hbeyond).trans (if_neg hidle))

end Sys2Proof.Machine

/-! The end of launches: commit, records, time limits and stops (R374, R384 to R396). -/

namespace Sys2Proof.Machine

section Frames

/-! What the end of a launch leaves alone of the launches, the cores and a queue's count. -/

variable {r s t : State}

/-- What a queue's commits have counted: the retired launches, and the one that retired last (R374; the model's choice, assumption 41). -/
def Queue.commits (x : Queue) : Word × DWord := (x.retired, x.lastLaunch)

/-- `t` has the launches and the cores of `s`, and its queues have counted the same commits. -/
structure State.SameLaunches (s t : State) : Prop where
  launches : t.work.launches = s.work.launches
  commits  : ∀ q, (t.queue q).map Queue.commits = (s.queue q).map Queue.commits
  cores    : t.cores = s.cores

theorem State.SameLaunches.refl (s : State) : s.SameLaunches s := ⟨rfl, fun _ => rfl, rfl⟩

theorem State.SameLaunches.trans (hr : r.SameLaunches s) (hs : s.SameLaunches t) : r.SameLaunches t :=
  ⟨hs.launches.trans hr.launches, fun q => (hs.commits q).trans (hr.commits q), hs.cores.trans hr.cores⟩

theorem State.sameLaunches_of_work (hwork : t.work = s.work) (hcores : t.cores = s.cores) : s.SameLaunches t :=
  ⟨congrArg Work.launches hwork, fun q => congrArg (fun w : Work => (SMap.get none w.queues q).map Queue.commits) hwork, hcores⟩

theorem State.launch_of_launches (h : t.work.launches = s.work.launches) (id : DWord) : t.launch id = s.launch id :=
  congrArg (List.find? fun l : Launch => l.id == id) h

theorem State.SameLaunches.launch (h : s.SameLaunches t) (id : DWord) : t.launch id = s.launch id := State.launch_of_launches h.launches id

theorem State.launch_id {id : DWord} {l : Launch} (h : s.launch id = some l) : l.id = id := by
  simpa using List.find?_some h

/-- The launch that is set is found under its number. -/
theorem State.launch_setLaunch_self {l l0 : Launch} (h : s.launch l.id = some l0) : (s.setLaunch l).launch l.id = some l := by
  have hid : (fun x : Launch => x.id == l.id) ∘ (fun x : Launch => if x.id = l.id then l else x) = fun x => x.id == l.id := by
    funext x
    dsimp only [Function.comp]
    split
    · next hx => rw [hx]
    · rfl
  have hfind : s.work.launches.find? (fun x => x.id == l.id) = some l0 := h
  show (s.work.launches.map fun x => if x.id = l.id then l else x).find? _ = _
  rw [List.find?_map, hid, hfind]
  exact congrArg some (if_pos (State.launch_id h))

@[simp] theorem State.work_note (s : State) (i : LogItem) : (s.note i).work = s.work := congrArg (·.work) (s.note_rest i)
@[simp] theorem State.cores_note (s : State) (i : LogItem) : (s.note i).cores = s.cores := congrArg (·.cores) (s.note_rest i)

theorem State.launch_note (s : State) (i : LogItem) (id : DWord) : (s.note i).launch id = s.launch id :=
  State.launch_of_launches (congrArg Work.launches (s.work_note i)) id

@[simp] theorem State.work_warn (s : State) (i : LogItem) : (s.warn i).work = s.work := by
  obtain ⟨log, h⟩ := s.warn_raised i
  exact (State.raised_work h :)

theorem State.sameLaunches_warn (s : State) (i : LogItem) : s.SameLaunches (s.warn i) :=
  State.sameLaunches_of_work (s.work_warn i) (s.cores_warn i)

theorem State.sameLaunches_unbind (s : State) (g : Nat × Nat) : s.SameLaunches (s.unbind g) := by
  unfold State.unbind
  split
  · exact State.SameLaunches.refl s
  · exact ⟨rfl, fun _ => rfl, rfl⟩

/-- The end of a hold leaves a queue's commits as they were. -/
theorem State.sameLaunches_breakHold (s : State) (q : Nat) : s.SameLaunches (s.breakHold q) := by
  unfold State.breakHold
  split
  · exact State.SameLaunches.refl s
  · split
    · next x hx =>
      refine ⟨rfl, fun j => ?_, rfl⟩
      rw [State.queue_setQueue]
      split
      · next hj => rw [← hj, hx]; rfl
      · rfl
    · exact State.SameLaunches.refl s

theorem State.sameLaunches_leaveShares (s : State) (p : Nat) : s.SameLaunches (s.leaveShares p) := by
  unfold State.leaveShares
  split
  · exact State.SameLaunches.refl s
  · exact ⟨rfl, fun _ => rfl, rfl⟩

theorem State.sameLaunches_keepRise (s : State) (g : Nat × Nat) (f : GraphVersion → GraphVersion) : s.SameLaunches (s.keepRise g f) := by
  unfold State.keepRise
  split
  · exact ⟨rfl, fun _ => rfl, rfl⟩
  · exact State.SameLaunches.refl s

theorem State.sameLaunches_noteRise (s : State) (l : Launch) : s.SameLaunches (s.noteRise l) := by
  unfold State.noteRise
  dsimp only
  split
  · exact s.sameLaunches_keepRise _ _
  · split
    · exact ⟨rfl, fun _ => rfl, rfl⟩
    · exact State.SameLaunches.refl s

/-- The end actions change cores, and warn of flits that a router still holds (R237). -/
theorem State.work_endActions (s : State) (l : Launch) (cores : List Nat) : (s.endActions l cores).work = s.work := by
  unfold State.endActions
  dsimp only
  split
  · rfl
  · exact State.work_warn _ _

end Frames

section Commits

/-! Commit (R374, R390). -/

variable {s : State} {id : DWord} {l : Launch}

/-- The launch as it commits: its outcome and its record are fixed. -/
def State.committed (s : State) (l : Launch) (v : Verdict) : Launch :=
  let l1 : Launch := if l.running then l else { l with start := s.now, energyStart := s.power.energy }
  { l1 with phase := .committed, verdict := some v, busy := [], record := some (s.recordOf l1 v), stamp := s.work.stamps }

theorem State.committed_id (s : State) (l : Launch) (v : Verdict) : (s.committed l v).id = l.id := by
  unfold State.committed
  dsimp only
  split <;> rfl

/-- Queue `q` counts launch `id` as retired. -/
def State.countRetired (s : State) (q : Nat) (id : DWord) : State :=
  match s.queue q with
  | some x => s.setQueue q (some { x with retired := x.retired + 1, lastLaunch := id })
  | none => s

theorem State.queue_countRetired {q : Nat} {x : Queue} (hx : s.queue q = some x) (id : DWord) :
    (s.countRetired q id).queue q = some { x with retired := x.retired + 1, lastLaunch := id } := by
  simp only [State.countRetired, hx, State.queue_setQueue_self]

theorem State.countRetired_keeps (s : State) (q : Nat) (id : DWord) :
    (s.countRetired q id).work.launches = s.work.launches ∧ (s.countRetired q id).cores = s.cores := by
  unfold State.countRetired
  split <;> exact ⟨rfl, rfl⟩

/-- The state in which the launch has committed and its queue has counted it. -/
def State.withCommitted (s : State) (l : Launch) (v : Verdict) : State :=
  let s0 := s.setLaunch (s.committed l v)
  ({ s0 with work := { s0.work with stamps := s0.work.stamps + 1 } }).countRetired l.queue l.id

/-- What else a commit does leaves launches, cores and counts alone. -/
theorem State.sameLaunches_commitLaunch (hl : s.launch id = some l) (hopen : l.verdict = none) (v : Verdict) :
    (s.withCommitted l v).SameLaunches (s.commitLaunch id v) := by
  obtain rfl := State.launch_id hl
  unfold State.commitLaunch
  split
  · next hnone => exact absurd (hnone.symm.trans hl) (Option.some_ne_none l).symm
  next l' hl' =>
  obtain rfl : l' = l := Option.some.inj (hl'.symm.trans hl)
  rw [if_neg (by simp [hopen])]
  extract_lets l1 s0 _ s1 s2a s2b s2 late s3
  change s2a.SameLaunches _
  have hs2b : s2a.SameLaunches s2b := by
    unfold s2b
    split
    · exact (s2a.sameLaunches_unbind _).trans (State.sameLaunches_breakHold _ _)
    · exact s2a.sameLaunches_breakHold _
  have hs2 : s2a.SameLaunches s2 := hs2b.trans (s2b.sameLaunches_leaveShares _)
  have hs3 : s2.SameLaunches s3 := by
    unfold s3
    split
    · exact ⟨rfl, fun _ => rfl, rfl⟩
    · exact State.SameLaunches.refl s2
  split
  · exact hs2
  · exact hs2.trans (hs3.trans (s3.sameLaunches_warn _))

/-- What a commit leaves in the tables. -/
theorem State.commitLaunch_tables (hl : s.launch id = some l) (hopen : l.verdict = none) (v : Verdict) :
    (s.commitLaunch id v).launch id = some (s.committed l v) ∧ (s.commitLaunch id v).cores = s.cores ∧
      ∀ y, s.queue l.queue = some y →
        ∃ z, (s.commitLaunch id v).queue l.queue = some z ∧ z.retired = y.retired + 1 ∧ z.lastLaunch = id := by
  have hsame := State.sameLaunches_commitLaunch hl hopen v
  obtain rfl := State.launch_id hl
  have hfound : s.launch (s.committed l v).id = some l := by rw [s.committed_id, hl]
  have hset := State.launch_setLaunch_self hfound
  rw [s.committed_id] at hset
  refine ⟨?_, ?_, fun y hy => ?_⟩
  · exact (hsame.launch _).trans ((State.launch_of_launches (State.countRetired_keeps _ _ _).1 _).trans hset)
  · exact hsame.cores.trans (State.countRetired_keeps _ _ _).2
  · have hcounted : (s.withCommitted l v).queue l.queue = some { y with retired := y.retired + 1, lastLaunch := l.id } :=
      State.queue_countRetired (x := y) (by exact hy) l.id
    have hcount := hsame.commits l.queue
    rw [hcounted, Option.map_some, Option.map_eq_some_iff] at hcount
    obtain ⟨z, hz, hcommits⟩ := hcount
    exact ⟨z, hz, congrArg Prod.fst hcommits, congrArg Prod.snd hcommits⟩

/-- Before it commits, a launch that ran has its end actions, which leave the launches and the counts alone. -/
theorem State.commitRun_tables (hl : s.launch id = some l) (hopen : l.verdict = none) :
    ∃ x, (s.commitRun l).launch l.id = some x ∧ x.verdict = some l.outcome ∧ x.phase = .committed ∧ x.busy = [] ∧ x.record.isSome ∧
      ∀ y, s.queue l.queue = some y → ∃ z, (s.commitRun l).queue l.queue = some z ∧ z.retired = y.retired + 1 ∧ z.lastLaunch = l.id := by
  obtain rfl := State.launch_id hl
  unfold State.commitRun
  extract_lets s1
  have hs1 : s1.work.launches = s.work.launches ∧ ∀ q, (s1.queue q).map Queue.commits = (s.queue q).map Queue.commits := by
    unfold s1
    split
    · have hrise := (s.endActions l (if l.graph.isSome then [] else l.cores)).sameLaunches_noteRise l
      have hwork := s.work_endActions l (if l.graph.isSome then [] else l.cores)
      exact ⟨hrise.launches.trans (congrArg Work.launches hwork),
        fun q => (hrise.commits q).trans (congrArg (fun w : Work => (SMap.get none w.queues q).map Queue.commits) hwork)⟩
    · exact ⟨rfl, fun _ => rfl⟩
  obtain ⟨hlaunches, hcommits⟩ := hs1
  obtain ⟨hfound, -, hcount⟩ := State.commitLaunch_tables ((State.launch_of_launches hlaunches l.id).trans hl) hopen l.outcome
  refine ⟨_, hfound, rfl, rfl, rfl, rfl, fun y hy => ?_⟩
  have hy1 := hcommits l.queue
  rw [hy, Option.map_some, Option.map_eq_some_iff] at hy1
  obtain ⟨y1, hy1, hsame⟩ := hy1
  obtain ⟨z, hz, hretired, hlast⟩ := hcount y1 hy1
  exact ⟨z, hz, hretired.trans (congrArg (·.1 + 1) hsame), hlast⟩

theorem exec_launchCommit_ended {launch : DWord} {sig record : ReadResult} (hsig : sig.len 8 = true) (hrecord : record.len 8 = true)
    (hnode : nodeOf launch = 0) (hl : s.launch (wholeOf launch) = some l) (hopen : l.verdict = none) (hmay : s.mayCommit l = true) :
    exec (.launchCommit launch sig record) s =
      .next ((((s.commitRun l).performSignal l.id sig).deliver l.id record).afterCommit l.part l.queue) := by
  show execLaunchCommit launch sig record s = _
  simp [execLaunchCommit, hsig, hrecord, hnode, hl, hopen, hmay]

end Commits

section Records

/-! A record that waits for its ring (R387, R390). -/

variable {s : State} {id : DWord} {l : Launch} {b : List Byte} {q : QueueIdx} {x : Queue} {r : ReadResult}

/-- The record of a launch whose turn at its ring has come. -/
structure State.recordDue (s : State) (id : DWord) (l : Launch) (b : List Byte) : Prop where
  found     : s.launch id = some l
  signalled : l.signalled = true
  record    : l.record = some b
  named     : l.cringNo ≠ 0xFFFF
  ring      : s.ringOk l.part l.desc = true
  first     : s.recordsAhead l.part l.cringNo l.stamp = false

/-- The bytes of a record with its late flags (R388). -/
def Launch.recordBytes (l : Launch) (b : List Byte) : List Byte := orByte b 0x0B (8 * bit l.lost + 32 * bit l.recordsLost)

variable {s1 : State} (h : s.recordDue id l b)

include h

theorem State.recordDue.deliver_written (hput : s.putRecord l.ctx l.part l.cringNo (l.recordBytes b) r = (.written, s1)) :
    s.deliver id r = (if l.flag 3 then s1.ringSignal l.cringNo else s1).dropLaunch id := by
  obtain ⟨hfound, hsignalled, hrecord, hnamed, hring, hfirst⟩ := h
  unfold Launch.recordBytes at hput
  simp [State.deliver, hfound, hsignalled, hrecord, hnamed, hring, hfirst, hput]

theorem State.recordDue.deliver_waits (hput : s.putRecord l.ctx l.part l.cringNo (l.recordBytes b) r = (.waits, s1)) : s.deliver id r = s1 := by
  obtain ⟨hfound, hsignalled, hrecord, hnamed, hring, hfirst⟩ := h
  unfold Launch.recordBytes at hput
  simp [State.deliver, hfound, hsignalled, hrecord, hnamed, hring, hfirst, hput]

omit h

/-- COMPLETION_RING_RECHECK delivers the record of a launch that has waited longest. -/
theorem exec_completionRingRecheck (hlen : r.len 8 = true) (hx : s.queue q = some x) (hwaits : s.firstWaiting q = some (id, 0)) :
    exec (.completionRingRecheck q r) s = .next ((s.deliver id r).afterCommit x.part q) := by
  show execCompletionRingRecheck q r s = _
  simp [execCompletionRingRecheck, hlen, hx, hwaits]

end Records

section Stops

/-! Time limits and stops (R66, R394, R395). -/

variable {s : State} {id : DWord} {l : Launch}

theorem Core.stop_stop (k : Core) : k.stop.stop = k.stop := by
  cases hmode : k.mode <;> simp [Core.stop, hmode]

/-- The stop event reaches each core of a list, and a second one changes nothing. -/
theorem State.core_stopCores (cs : List Nat) (s : State) (c : Nat) :
    (cs.foldl (fun s c => s.updCore c Core.stop) s).core c = if c ∈ cs then (s.core c).stop else s.core c := by
  induction cs generalizing s with
  | nil => rfl
  | cons d rest ih =>
    rw [List.foldl_cons, ih, State.updCore_eq, State.core_setCore]
    by_cases hd : d = c
    · subst hd
      simp [Core.stop_stop]
    · simp [hd, Ne.symm hd]

theorem State.work_stopCores (cs : List Nat) (s : State) : (cs.foldl (fun s c => s.updCore c Core.stop) s).work = s.work :=
  List.foldlRecOn (motive := fun t : State => t.work = s.work) cs _ rfl fun _ ht _ _ => ht

/-- A stop decides a launch that has not started at once (R394). -/
theorem State.stopLaunch_waiting (hl : s.launch id = some l) (hopen : l.verdict = none) (hgoes : l.stop = none) (hrun : l.running = false)
    (v w : Verdict) : s.stopLaunch id v w = s.commitLaunch id { w with notRun := true } := by
  simp [State.stopLaunch, hl, hopen, hgoes, hrun]

/-- A stop of a running launch is noted, and its cores drain (R66, R394). -/
theorem State.stopLaunch_running (hl : s.launch id = some l) (hopen : l.verdict = none) (hgoes : l.stop = none) (hrun : l.running = true)
    (v w : Verdict) :
    (s.stopLaunch id v w).launch id = some { l with stop := some v } ∧
      ∀ c, (s.stopLaunch id v w).core c = if c ∈ l.busy then (s.core c).stop else s.core c := by
  obtain rfl := State.launch_id hl
  have hstop : s.stopLaunch l.id v w = l.busy.foldl (fun s c => s.updCore c Core.stop) (s.setLaunch { l with stop := some v }) := by
    simp [State.stopLaunch, hl, hopen, hgoes, hrun]
  rw [hstop]
  constructor
  · exact (State.launch_of_launches (congrArg Work.launches (State.work_stopCores _ _)) _).trans
      (State.launch_setLaunch_self (l := { l with stop := some v }) hl)
  · exact fun c => State.core_stopCores _ _ c

/-- TIME_LIMIT_EXPIRY of a launch at the head of its queue is logged, and stops it (R395). -/
theorem exec_timeLimitExpiry (hl : s.launch id = some l) (hopen : l.verdict = none) (hlimit : fieldAt l.desc 0x180 4 ≠ 0) (hgoes : l.stop = none)
    (hhead : s.atHead l = true) :
    ∃ i, exec (.timeLimitExpiry id) s = .next ((s.note i).stopLaunch id (verdictTimeout 0x41) (verdictTimeout 0x40)) := by
  show ∃ i, execTimeLimitExpiry id s = _
  simp only [execTimeLimitExpiry, hl]
  exact ⟨_, congrArg Host.Outcome.next (if_neg (by simp [hopen, hlimit, hgoes, hhead]))⟩

/-- ABORT_STOP_TIMEOUT of a stopped launch is logged, and tears its context down (R394). -/
theorem exec_abortStopTimeout {v : Verdict} (hl : s.launch id = some l) (hopen : l.verdict = none) (hstop : l.stop = some v) (hbusy : l.busy ≠ []) :
    ∃ i, exec (.abortStopTimeout id) s = .next ((s.note i).tearContext l.ctx { kind := fkAborted, code := v.reason }) := by
  show ∃ i, execAbortStopTimeout id s = _
  simp only [execAbortStopTimeout, hl, hstop]
  exact ⟨_, congrArg Host.Outcome.next (if_neg (by simp [hopen, hbusy]))⟩

end Stops

/-- Settles O52: the tables after a commit hold the launch with its outcome, whatever its end actions do; a record whose turn has come is
delivered as its ring has room; a stop commits a launch that has not started, and drains the cores of a running one. -/
theorem launchesEnd : Obligations.LaunchesEnd := by
  unfold Obligations.LaunchesEnd
  refine fun s => ⟨?commit, ?record, fun launch l hl hopen => ⟨fun hlimit hgoes hhead => ⟨fun hrun => ?notStarted, fun hrun => ?running⟩,
    fun v hstop hbusy => ?stop⟩⟩
  case commit =>
    intro launch sig record l hsig hrecord hnode hl hopen hmay
    obtain ⟨x, hx, hverdict, hphase, hbusy, hrec, hcount⟩ := State.commitRun_tables hl hopen
    exact ⟨_, s.commitRun l, x, exec_launchCommit_ended hsig hrecord hnode hl hopen hmay, hx, hverdict, hphase, hbusy, hrec, hcount, rfl⟩
  case record =>
    intro q headWord x id l b s1 hlen hx hwaits hl hsignalled hrecord hnamed hring hfirst
    have hdue : s.recordDue id l b := ⟨hl, hsignalled, hrecord, hnamed, hring, hfirst⟩
    have hexec := exec_completionRingRecheck hlen hx hwaits
    exact ⟨fun hput => ⟨_, hexec, congrArg (State.afterCommit · x.part q) (hdue.deliver_written hput)⟩,
      fun hput => ⟨_, hexec, congrArg (State.afterCommit · x.part q) (hdue.deliver_waits hput)⟩⟩
  case notStarted =>
    obtain ⟨i, hexec⟩ := exec_timeLimitExpiry hl hopen hlimit hgoes hhead
    have hl' : (s.note i).launch launch = some l := (s.launch_note i launch).trans hl
    rw [State.stopLaunch_waiting hl' hopen hgoes hrun] at hexec
    obtain ⟨hfound, hcores, -⟩ := State.commitLaunch_tables hl' hopen { verdictTimeout 0x40 with notRun := true }
    exact ⟨_, _, hexec, hfound, rfl, rfl, hcores.trans (s.cores_note i)⟩
  case running =>
    obtain ⟨i, hexec⟩ := exec_timeLimitExpiry hl hopen hlimit hgoes hhead
    have hl' : (s.note i).launch launch = some l := (s.launch_note i launch).trans hl
    obtain ⟨hfound, hcore⟩ := State.stopLaunch_running hl' hopen hgoes hrun (verdictTimeout 0x41) (verdictTimeout 0x40)
    exact ⟨_, _, hexec, hfound, hopen, rfl, fun c => (hcore c).trans (by rw [State.note_core])⟩
  case stop =>
    obtain ⟨i, hexec⟩ := exec_abortStopTimeout hl hopen hstop hbusy
    exact ⟨_, s.note i, hexec, s.cores_note i, s.work_note i, congrArg (·.xlat) (s.note_rest i), congrArg (·.fab) (s.note_rest i), rfl⟩

end Sys2Proof.Machine

/-! What ordinary commands leave as it is, one lemma per function of the model. -/

namespace Sys2Proof.Machine

/-- What no ordinary command changes: the rectangles, the bytes of memory and flash, THERM_TRIP, and what decides on main power. -/
structure Anchor where
  rects   : SMap (Option Rect)
  mem     : SMap Byte
  flash   : SMap Byte
  tripped : Bool
  ignored : Bool
  pwrEn   : Bool
  mainOn  : Bool

def State.anchor (s : State) : Anchor :=
  ⟨s.rects, s.store.mem, s.store.flash, s.sys.tripped, s.sys.ignored, s.sys.pwrEn, s.sys.mainOn⟩

@[simp] theorem State.anchor_mk (pending : List Instr) (free rd : Nat) (rects : SMap (Option Rect)) (cores : SMap Core) (fab : Fabric)
    (xlat : Xlat)
    (store : Store) (links : Links) (valac : Valac) (log : Logbook) (work : Work) (time : Meridian) (power : Power) (twin : Twin) (host : HostIf)
    (fw : Firmware) (sys : Sys) (out : List Out) :
    State.anchor ⟨pending, free, rd, rects, cores, fab, xlat, store, links, valac, log, work, time, power, twin, host, fw, sys, out⟩ =
      ⟨rects, store.mem, store.flash, sys.tripped, sys.ignored, sys.pwrEn, sys.mainOn⟩ := rfl

@[simp] theorem Anchor.of_state (s : State) :
    (⟨s.rects, s.store.mem, s.store.flash, s.sys.tripped, s.sys.ignored, s.sys.pwrEn, s.sys.mainOn⟩ : Anchor) = s.anchor := rfl

theorem State.anchor_setCores (s : State) (c : SMap Core) : ({ s with cores := c } : State).anchor = s.anchor := rfl

@[simp] theorem State.anchor_ite (c : Prop) [Decidable c] (s t : State) :
    (if c then s else t).anchor = if c then s.anchor else t.anchor := apply_ite _ _ _ _

@[simp] theorem State.anchor_foldl {α : Type} (f : State → α → State) (h : ∀ s a, (f s a).anchor = s.anchor) (l : List α) (s : State) :
    (l.foldl f s).anchor = s.anchor := by
  induction l generalizing s with
  | nil => rfl
  | cons a l ih => exact (ih (f s a)).trans (h s a)

/-- The second part of a pair, found by a case split. -/
theorem State.anchor_of_snd {α : Type} {p : α × State} {a : α} {s : State} {x : Anchor} (h : p.2.anchor = x) (e : p = (a, s)) :
    s.anchor = x := by
  subst e; exact h

theorem State.anchor_serves {α : Type} {f : Served → α → Served} (hf : ∀ acc n, (f acc n).1.anchor = acc.1.anchor) (ns : List α)
    (acc : Served) :
    (ns.foldl f acc).1.anchor = acc.1.anchor :=
  List.foldlRecOn (motive := fun m : Served => m.1.anchor = acc.1.anchor) ns f rfl fun m hm n _ => (hf m n).trans hm

/-- What an instruction answers keeps the anchor. -/
def Effect.keeps (x : Anchor) : Effect → Prop
  | .next s | .jump s | .fault s _ => s.anchor = x
  | .stall => True

@[simp] theorem Effect.keeps_next (x : Anchor) (s : State) : (Effect.next s).keeps x ↔ s.anchor = x := Iff.rfl
@[simp] theorem Effect.keeps_jump (x : Anchor) (s : State) : (Effect.jump s).keeps x ↔ s.anchor = x := Iff.rfl
@[simp] theorem Effect.keeps_fault (x : Anchor) (s : State) (r : FaultRep) : (Effect.fault s r).keeps x ↔ s.anchor = x := Iff.rfl
@[simp] theorem Effect.keeps_stall (x : Anchor) : Effect.stall.keeps x ↔ True := Iff.rfl

/-- What Valac answers to a command keeps the anchor. -/
def Reply.keeps (x : Anchor) : Reply → Prop
  | .ok _ s => s.anchor = x
  | .err _ _ => True

@[simp] theorem Reply.keeps_ok (x : Anchor) (b : List Byte) (s : State) : (Reply.ok b s).keeps x ↔ s.anchor = x := Iff.rfl
@[simp] theorem Reply.keeps_err (x : Anchor) (n d : Nat) : (Reply.err n d).keeps x ↔ True := Iff.rfl

@[simp] theorem Cmd.check_keeps {c : Cmd} {len : Nat} {bad rules : List (Bool × Nat)} {ok : Reply} {x : Anchor} (h : ok.keeps x) :
    (c.check len bad rules ok).keeps x := by
  unfold Cmd.check
  split
  · trivial
  · split
    · trivial
    · split
      · trivial
      · exact h

@[simp] theorem Effect.keeps_ite (x : Anchor) (c : Prop) [Decidable c] (e f : Effect) :
    (if c then e else f).keeps x ↔ if c then e.keeps x else f.keeps x := by split <;> rfl

@[simp] theorem Reply.keeps_ite (x : Anchor) (c : Prop) [Decidable c] (e f : Reply) :
    (if c then e else f).keeps x ↔ if c then e.keeps x else f.keeps x := by split <;> rfl


@[simp] theorem State.anchor_setCore (s : State) (c : Nat) (k : Core) : (s.setCore c k).anchor = s.anchor := by simp [State.setCore]

@[simp] theorem State.anchor_updCore (s : State) (c : Nat) (f : Core → Core) : (s.updCore c f).anchor = s.anchor := by simp [State.updCore]

@[simp] theorem State.anchor_setHalf (s : State) (h : Nat) (x : Half) : (s.setHalf h x).anchor = s.anchor := by simp [State.setHalf]

@[simp] theorem State.anchor_setCtrl (s : State) (m : Nat) (x : MemCtrl) : (s.setCtrl m x).anchor = s.anchor := by simp [State.setCtrl]

@[simp] theorem State.anchor_setFlashCtrl (s : State) (k : Nat) (x : FlashCtrl) : (s.setFlashCtrl k x).anchor = s.anchor := by
  simp [State.setFlashCtrl]

@[simp] theorem State.anchor_setCtx (s : State) (slot : Nat) (x : Ctx) : (s.setCtx slot x).anchor = s.anchor := by simp [State.setCtx]

@[simp] theorem State.anchor_setPri (s : State) (fn : Nat) (x : PriState) : (s.setPri fn x).anchor = s.anchor := by simp [State.setPri]

@[simp] theorem State.anchor_setRow (s : State) (r : Nat) (x : Option XRow) : (s.setRow r x).anchor = s.anchor := by simp [State.setRow]

@[simp] theorem State.anchor_setPart (s : State) (p : Nat) (x : Option Part) : (s.setPart p x).anchor = s.anchor := by simp [State.setPart]

@[simp] theorem State.anchor_setQueue (s : State) (q : Nat) (x : Option Queue) : (s.setQueue q x).anchor = s.anchor := by
  simp [State.setQueue]

@[simp] theorem State.anchor_setCring (s : State) (r : Nat) (x : Option CRing) : (s.setCring r x).anchor = s.anchor := by
  simp [State.setCring]

@[simp] theorem State.anchor_setKernel (s : State) (h : Nat) (x : Option Kernel) : (s.setKernel h x).anchor = s.anchor := by
  simp [State.setKernel]

@[simp] theorem State.anchor_setGraph (s : State) (h : Nat) (x : Option Graph) : (s.setGraph h x).anchor = s.anchor := by
  simp [State.setGraph]

@[simp] theorem State.anchor_setMbx (s : State) (m : Nat) (x : Mailbox) : (s.setMbx m x).anchor = s.anchor := by simp [State.setMbx]

@[simp] theorem State.anchor_setRing (s : State) (fn : Nat) (x : EventRing) : (s.setRing fn x).anchor = s.anchor := by simp [State.setRing]

@[simp] theorem State.anchor_setBundle (s : State) (b : Nat) (x : Bundle) : (s.setBundle b x).anchor = s.anchor := by simp [State.setBundle]

@[simp] theorem State.anchor_setArb (s : State) (k : Nat) (x : Arb) : (s.setArb k x).anchor = s.anchor := by simp [State.setArb]

@[simp] theorem State.anchor_setSteward (s : State) (h : Nat) (x : Steward) : (s.setSteward h x).anchor = s.anchor := by
  simp [State.setSteward]

@[simp] theorem State.anchor_setWin (s : State) (w : Nat) (x : MirWin) : (s.setWin w x).anchor = s.anchor := by simp [State.setWin]

@[simp] theorem State.anchor_emit (s : State) (o : Out) : (s.emit o).anchor = s.anchor := by simp [State.emit]

@[simp] theorem State.anchor_draw (s : State) (w : Nat) : (s.draw w).2.anchor = s.anchor := by simp [State.draw]

@[simp] theorem State.anchor_setVector (s : State) (fn v : Nat) (x : Vector) : (s.setVector fn v x).anchor = s.anchor := by
  simp [State.setVector]

@[simp] theorem State.anchor_signal (s : State) (fn v : Nat) : (s.signal fn v).anchor = s.anchor := by simp [State.signal]

@[simp] theorem State.anchor_evrWrite (s : State) (fn : Nat) (e : Event) : (s.evrWrite fn e).anchor = s.anchor := by simp [State.evrWrite]

@[simp] theorem State.anchor_evrPut (s : State) (fn : Nat) (e : Event) : (s.evrPut fn e).anchor = s.anchor := by simp [State.evrPut]

@[simp] theorem State.anchor_evrDrain (s : State) (fn n : Nat) : (s.evrDrain fn n).anchor = s.anchor := by
  induction n generalizing s with
  | zero => rfl
  | succ n ih =>
    unfold State.evrDrain
    dsimp only
    split
    · rfl
    · split <;> simp [ih]

@[simp] theorem State.anchor_post (s : State) (type partition : Nat) (payload : List Byte) :
    (s.post type partition payload).anchor = s.anchor := by
  simp [State.post]

@[simp] theorem State.anchor_postPart (s : State) (type p : Nat) (payload : List Byte) : (s.postPart type p payload).anchor = s.anchor := by
  simp [State.postPart]

@[simp] theorem State.anchor_consoleEvent (s : State) (type : Nat) (payload : List Byte) :
    (s.consoleEvent type payload).anchor = s.anchor := by
  unfold State.consoleEvent
  split <;> simp

@[simp] theorem State.anchor_logPut (s : State) (i : LogItem) : (s.logPut i).2.anchor = s.anchor := by
  simp only [State.logPut]
  repeat' split
  all_goals simp

@[simp] theorem State.anchor_note (s : State) (i : LogItem) : (s.note i).anchor = s.anchor := by simp [State.note]

@[simp] theorem State.anchor_warn (s : State) (i : LogItem) : (s.warn i).anchor = s.anchor := by
  unfold State.warn
  split <;> next h => simpa using State.anchor_of_snd (s.anchor_logPut i) h

@[simp] theorem State.anchor_setPoison (s : State) (a : Nat) (on : Bool) : (s.setPoison a on).anchor = s.anchor := by
  unfold State.setPoison
  split <;> simp

@[simp] theorem State.anchor_cacheCount (s : State) (h p off n : Nat) : (s.cacheCount h p off n).anchor = s.anchor := by
  simp [State.cacheCount]

@[simp] theorem State.anchor_dropResv (s : State) (p : Nat → Nat → Reservation → Bool) : (s.dropResv p).anchor = s.anchor := by
  simp [State.dropResv]

@[simp] theorem State.anchor_removalEndsResv (s : State) (line : Nat) : (s.removalEndsResv line).anchor = s.anchor := by
  simp [State.removalEndsResv]

@[simp] theorem State.anchor_pushMem (s : State) (a : Nat) (op : MemOp) : (s.pushMem a op).anchor = s.anchor := by simp [State.pushMem]

@[simp] theorem State.anchor_writeDirty (s : State) (h key : Nat) : (s.writeDirty h key).anchor = s.anchor := by simp [State.writeDirty]

@[simp] theorem State.anchor_emptyWay (s : State) (h key : Nat) : (s.emptyWay h key).anchor = s.anchor := by simp [State.emptyWay]

@[simp] theorem State.anchor_reduceWriteback (s : State) (h key : Nat) : (s.reduceWriteback h key).anchor = s.anchor := by
  simp [State.reduceWriteback]

@[simp] theorem State.anchor_evictNow (s : State) (h key : Nat) : (s.evictNow h key).anchor = s.anchor := by
  simp only [State.evictNow]
  split <;> simp

@[simp] theorem State.anchor_startInvalidate (s : State) (h key : Nat) (after : AfterHold) (waiters : List Nat) :
    (s.startInvalidate h key after waiters).anchor = s.anchor := by
  simp [State.startInvalidate]

@[simp] theorem State.anchor_touch (s : State) (h key : Nat) : (s.touch h key).anchor = s.anchor := by simp [State.touch]

@[simp] theorem State.anchor_openFill (s : State) (h key : Nat) (mask : BitVec 4) (waiters : List Nat) :
    (s.openFill h key mask waiters).anchor = s.anchor := by
  simp [State.openFill]

@[simp] theorem State.anchor_beginMerge (s : State) (h key : Nat) (waiters : List Nat) :
    (s.beginMerge h key waiters).anchor = s.anchor := by
  simp [State.beginMerge]

@[simp] theorem State.anchor_dropReplica (s : State) (h key : Nat) : (s.dropReplica h key).anchor = s.anchor := by simp [State.dropReplica]

@[simp] theorem State.anchor_clearWay (s : State) (h key : Nat) : (s.clearWay h key).anchor = s.anchor := by
  simp only [State.clearWay]
  split <;> simp

@[simp] theorem State.anchor_sweepPart (s : State) (h part : Nat) (ways : Half16) : (s.sweepPart h part ways).anchor = s.anchor := by
  simp [State.sweepPart]

@[simp] theorem State.anchor_sweepCtx (s : State) (h ctx : Nat) : (s.sweepCtx h ctx).anchor = s.anchor :=
  State.anchor_foldl _ (fun _ _ => by dsimp only; split <;> simp) _ _

@[simp] theorem State.anchor_sweepCtxAll (s : State) (ctx : Nat) : (s.sweepCtxAll ctx).anchor = s.anchor := by simp [State.sweepCtxAll]

@[simp] theorem State.anchor_setReq (s : State) (r : Req) : (s.setReq r).anchor = s.anchor := by simp [State.setReq]

@[simp] theorem State.anchor_dropReq (s : State) (id : Nat) : (s.dropReq id).anchor = s.anchor := by simp [State.dropReq]

@[simp] theorem State.anchor_place (s : State) (id : Nat) (p : Place) : (s.place id p).anchor = s.anchor := by simp [State.place]

@[simp] theorem State.anchor_addReq (s : State) (r : Req) : (s.addReq r).anchor = s.anchor := by simp [State.addReq]

@[simp] theorem State.anchor_updGroup (s : State) (c i : Nat) (f : Group → Group) : (s.updGroup c i f).anchor = s.anchor := by
  simp [State.updGroup]

@[simp] theorem State.anchor_fillL1 (s : State) (c key : Nat) (bytes : List Byte) : (s.fillL1 c key bytes).anchor = s.anchor := by
  simp [State.fillL1]

@[simp] theorem State.anchor_loadLanes (s : State) (c slot d size : Nat) (sign : Bool) (lanes : List (Nat × Nat)) (get : Nat → Byte) :
    (s.loadLanes c slot d size sign lanes get).anchor = s.anchor := by
  simp [State.loadLanes]

@[simp] theorem State.anchor_deliverLoad (s : State) (r : Req) (get : Nat → Byte) : (s.deliverLoad r get).anchor = s.anchor := by
  unfold State.deliverLoad
  split <;> simp

@[simp] theorem State.anchor_send (s : State) (r : Req) : (s.send r).anchor = s.anchor := by unfold State.send; split <;> simp

@[simp] theorem State.anchor_dmaLines (s : State) (r : Req) (bad : Nat → Bool) (bytes : List Byte) (done : Nat)
    (ls : List (Nat × Nat × OutKind × MemType × Nat)) : (s.dmaLines r bad bytes done ls).anchor = s.anchor := by
  induction ls generalizing s bytes done with
  | nil => rfl
  | cons x ls ih => simp [State.dmaLines, ih]

@[simp] theorem State.anchor_deliverDma (s : State) (r : Req) (bytes : List Byte) (dest : DmaDest) (bad : Nat → Bool) :
    (s.deliverDma r bytes dest bad).anchor = s.anchor := by
  unfold State.deliverDma
  repeat' split
  all_goals simp

@[simp] theorem State.anchor_specCount (s : State) (off n : Nat) : (s.specCount off n).anchor = s.anchor := by simp [State.specCount]

@[simp] theorem State.anchor_sendRecord (s : State) (kind window value : Nat) (bytes : List Byte) :
    (s.sendRecord kind window value bytes).anchor = s.anchor := by
  simp [State.sendRecord]

@[simp] theorem State.anchor_epochOverflow (s : State) (w : Nat) : (s.epochOverflow w).anchor = s.anchor := by simp [State.epochOverflow]

@[simp] theorem State.anchor_mirrorOut (s : State) (agent : Agent) (line : Nat) (bytes : List (Nat × Byte)) (rid : Nat) :
    (s.mirrorOut agent line bytes rid).1.anchor = s.anchor := by
  unfold State.mirrorOut
  split
  · rfl
  · split
    · rfl
    · next w x _ =>
      split
      · rfl
      · simp
      · simp
      · dsimp only
        split
        · have e := s.anchor_sendRecord 2 w line (leBytes 4 s.twin.nextTag ++ leBytes 4 0 ++ recordBody bytes)
          exact (State.anchor_specCount _ _ _).trans e
        · split <;> simp

@[simp] theorem State.anchor_mirrorDone (s : State) (r : Req) : (s.mirrorDone r).anchor = s.anchor := by
  unfold State.mirrorDone
  repeat' split
  all_goals simp

@[simp] theorem State.anchor_finishWrite (s : State) (r : Req) (bytes : List (Nat × Byte)) : (s.finishWrite r bytes).anchor = s.anchor := by
  simp [State.finishWrite]

@[simp] theorem State.anchor_hostRefuse (s : State) (fn off cause : Nat) : (s.hostRefuse fn off cause).anchor = s.anchor := by
  simp [State.hostRefuse]

@[simp] theorem State.anchor_hostAnswer (s : State) (r : Req) (bytes : List Byte) (poisoned : Bool) :
    (s.hostAnswer r bytes poisoned).anchor = s.anchor := by
  simp [State.hostAnswer]

@[simp] theorem State.anchor_retry (s : State) (h : Nat) (r : Req) (needsReg : Bool) : (s.retry h r needsReg).anchor = s.anchor := by
  simp [State.retry]

@[simp] theorem State.anchor_accepted (s : State) (h : Nat) (r : Req) (first : Bool) (off : Nat) :
    (s.accepted h r first off).anchor = s.anchor := by
  simp [State.accepted]

@[simp] theorem State.anchor_joinLine (s : State) (h key : Nat) (r : Req) (first : Bool) :
    (s.joinLine h key r first).anchor = s.anchor := by
  simp [State.joinLine]

theorem State.anchor_allocate {s t : State} {h : Nat} {r : Req} {avoid : List Nat} :
    (∀ k, s.allocate h r avoid = .way k t → t.anchor = s.anchor) ∧ (s.allocate h r avoid = .wait t → t.anchor = s.anchor) := by
  unfold State.allocate
  dsimp only
  split
  · exact ⟨fun k hk => by cases hk; rfl, nofun⟩
  · exact ⟨nofun, nofun⟩
  · split
    · split
      · exact ⟨nofun, fun hk => by cases hk; simp⟩
      · exact ⟨nofun, nofun⟩
    · split
      · exact ⟨nofun, nofun⟩
      · exact ⟨fun k hk => by cases hk; simp, nofun⟩

@[simp] theorem State.anchor_sendReplica (s : State) (r : Req) (l : CLine) : (s.sendReplica r l).anchor = s.anchor := by
  unfold State.sendReplica
  split <;> simp

@[simp] theorem State.anchor_putLine (s : State) (h key : Nat) (l : CLine) : (s.putLine h key l).anchor = s.anchor := by
  simp [State.putLine]

@[simp] theorem State.anchor_rangeAct (s : State) (h key : Nat) (r : Req) (op : RangeOp) : (s.rangeAct h key r op).anchor = s.anchor := by
  unfold State.rangeAct
  split <;> simp

@[simp] theorem State.anchor_perform (s : State) (h key : Nat) (r : Req) : (s.perform h key r).1.anchor = s.anchor := by
  unfold State.perform
  dsimp only
  split
  · simp
  · cases r.op with
    | load => dsimp only; split <;> simp
    | atomic => dsimp only; split <;> simp
    | ldres => dsimp only; split <;> simp
    | stcond => dsimp only; split <;> simp
    | _ => simp

@[simp] theorem State.anchor_serveHit (s : State) (h key : Nat) (r : Req) (first : Bool) :
    (s.serveHit h key r first).1.anchor = s.anchor := by
  simp [State.serveHit, apply_ite Prod.fst]

@[simp] theorem State.anchor_serveUncached (s : State) (h : Nat) (r : Req) (first : Bool) :
    (s.serveUncached h r first).1.anchor = s.anchor := by
  unfold State.serveUncached
  dsimp only
  split
  · split <;> simp
  all_goals simp

theorem State.anchor_withWay {s : State} {h : Nat} {r : Req} {needsReg : Bool} {dead : Option Nat} {go : State → Nat → Served}
    (hgo : ∀ (t : State) (k : Nat), (go t k).1.anchor = t.anchor) : (s.withWay h r needsReg dead go).1.anchor = s.anchor := by
  unfold State.withWay
  split
  · simp
  · split
    · exact hgo s _
    · split
      · simp
      · next s1 hs => simpa using State.anchor_allocate.2 hs
      · next k s1 hs => exact (hgo s1 k).trans (State.anchor_allocate.1 k hs)

@[simp] theorem State.anchor_serveMiss (s : State) (h : Nat) (dead : Option Nat) (r : Req) (first : Bool) :
    (s.serveMiss h dead r first).1.anchor = s.anchor := by
  unfold State.serveMiss
  extract_lets isLoad s1 noAcc s2 _ _
  have hs1 : s1.anchor = s.anchor := by
    unfold s1
    split <;> simp
  split
  · simp [hs1]
  · split
    · simp [hs1]
    · cases r.op with
      | range op => cases op <;> cases dead <;> simp [s2, hs1, State.anchor_withWay]
      | reduce op type elems =>
        dsimp only
        split
        · simp [hs1, State.anchor_withWay]
        · refine (State.anchor_withWay fun t k => ?_).trans hs1
          split
          · split
            · next j s2 hs =>
              have hs2 := State.anchor_allocate.1 j hs
              split
              · simp
              · simp [hs2]
            · next s2 hs => simpa using State.anchor_allocate.2 hs
            · simp
          · simp
      | write bytes => dsimp only; split <;> simp [hs1, State.anchor_withWay]
      | _ => simp [hs1, State.anchor_withWay]

@[simp] theorem State.anchor_serveAccum (s : State) (h key : Nat) (r : Req) (first : Bool) :
    (s.serveAccum h key r first).1.anchor = s.anchor := by
  unfold State.serveAccum
  extract_lets l s1 merge s2
  have hmerge : (merge ()).1.anchor = s.anchor := by
    unfold merge
    split
    · simp [s1]
    · split <;> simp
  cases r.op with
  | reduce => dsimp only; split <;> simp [hmerge]
  | range op =>
    cases op with
    | prefetch => simp
    | discard => simp [s2]
    | _ => dsimp only; split <;> simp
  | _ => simp [hmerge]

@[simp] theorem State.anchor_homeServe (s : State) (id : Nat) (first : Bool) : (s.homeServe id first).1.anchor = s.anchor := by
  unfold State.homeServe
  split
  · rfl
  · next r _ =>
    dsimp only
    split
    · simp
    · split_ifs
      · simp
      · simp
      · split <;> simp
      · simp
      · split
        · simp
        · split <;> simp

@[simp] theorem State.anchor_serveAll (s : State) (ids : List Nat) : (s.serveAll ids).1.anchor = s.anchor :=
  State.anchor_serves (fun acc id => by simp) ids (s, [])

@[simp] theorem State.anchor_releaseLine (s : State) (h key : Nat) : (s.releaseLine h key).1.anchor = s.anchor := by
  simp [State.releaseLine]

@[simp] theorem State.anchor_holdDone (s : State) (h key : Nat) : (s.holdDone h key).1.anchor = s.anchor := by
  unfold State.holdDone
  dsimp only
  split
  · exact (State.anchor_foldl _ (by simp) _ _).trans (by simp)
  · simp

@[simp] theorem State.anchor_mbxEvent (s : State) (m type : Nat) (payload : List Byte) : (s.mbxEvent m type payload).anchor = s.anchor := by
  unfold State.mbxEvent
  split <;> simp

@[simp] theorem State.anchor_opDone (s : State) (id status : Nat) (cancelled : Bool) (result : List Byte) :
    (s.opDone id status cancelled result).anchor = s.anchor := by
  unfold State.opDone
  split <;> simp

@[simp] theorem State.anchor_haltQueue (s : State) (q : Nat) (state : QueueState) (reason : Nat) :
    (s.haltQueue q state reason).anchor = s.anchor := by
  unfold State.haltQueue
  split <;> simp

@[simp] theorem State.anchor_endHaltOp (s : State) (q : Nat) : (s.endHaltOp q).anchor = s.anchor := by
  unfold State.endHaltOp
  repeat' split
  all_goals simp

@[simp] theorem State.anchor_setLaunch (s : State) (l : Launch) : (s.setLaunch l).anchor = s.anchor := by simp [State.setLaunch]

@[simp] theorem State.anchor_dropLaunch (s : State) (id : DWord) : (s.dropLaunch id).anchor = s.anchor := by simp [State.dropLaunch]

@[simp] theorem State.anchor_unbind (s : State) (g : Nat × Nat) : (s.unbind g).anchor = s.anchor := by unfold State.unbind; split <;> simp

@[simp] theorem State.anchor_breakHold (s : State) (q : Nat) : (s.breakHold q).anchor = s.anchor := by
  unfold State.breakHold
  repeat' split
  all_goals simp

@[simp] theorem State.anchor_leaveShares (s : State) (p : Nat) : (s.leaveShares p).anchor = s.anchor := by simp [State.leaveShares]

@[simp] theorem State.anchor_commitLaunch (s : State) (id : DWord) (v : Verdict) : (s.commitLaunch id v).anchor = s.anchor := by
  simp only [State.commitLaunch]
  repeat' split
  all_goals simp

@[simp] theorem State.anchor_cancelRows (s : State) (c : Nat) : (s.cancelRows c).anchor = s.anchor := by simp [State.cancelRows]

@[simp] theorem State.anchor_cancelPins (s : State) (ctx : Nat) : (s.cancelPins ctx).anchor = s.anchor := by simp [State.cancelPins]

@[simp] theorem State.anchor_teardownCore (s : State) (c : Nat) (keepWrites : Bool) : (s.teardownCore c keepWrites).anchor = s.anchor := by
  unfold State.teardownCore
  extract_lets k s1 s2
  have e : s2.anchor = s.anchor := by simp [s2, s1]
  split
  · rfl
  · split
    · exact e
    · exact (State.anchor_foldl _ (fun _ _ => by simp) _ _).trans e

@[simp] theorem State.anchor_commitTorn (s : State) (k : Cause) (l : Launch) : (s.commitTorn k l).anchor = s.anchor := by
  unfold State.commitTorn
  repeat' split
  all_goals simp

@[simp] theorem State.anchor_tearContext (s : State) (ctx : Nat) (k : Cause) : (s.tearContext ctx k).anchor = s.anchor := by
  unfold State.tearContext
  split
  · rfl
  · split
    · rfl
    · extract_lets s1 qs s2 cs s3a s3 asked s4 s5 s6 s7 s8
      have e2 : s2.anchor = s.anchor := by simp [s2, s1]
      have e3a : s3a.anchor = s2.anchor := by simp [s3a]
      have e3 : s3.anchor = s.anchor := (s3a.anchor_setCores _).trans (e3a.trans e2)
      have e4 : s4.anchor = s.anchor := by simpa [s4] using e3
      have e5 : s5.anchor = s.anchor := by simpa [s5] using e4
      have e6 : s6.anchor = s.anchor := (s5.anchor_setCores _).trans e5
      have e7 : s7.anchor = s.anchor := by simpa [s7] using e6
      exact (State.anchor_foldl _ (by simp) _ _).trans ((s7.anchor_postPart _ _ _).trans e7)

@[simp] theorem State.anchor_takeFaultAs (s : State) (f : FaultRep) (force : Bool) : (s.takeFaultAs f force).anchor = s.anchor := by
  simp [State.takeFaultAs]

@[simp] theorem State.anchor_takeFault (s : State) (f : FaultRep) : (s.takeFault f).anchor = s.anchor := by simp [State.takeFault]

@[simp] theorem State.anchor_settle (r : Served) : (State.settle r).anchor = r.1.anchor := State.anchor_foldl _ (by simp) _ _

@[simp] theorem State.anchor_stopLaunch (s : State) (id : DWord) (v : Verdict) (notStarted : Verdict) :
    (s.stopLaunch id v notStarted).anchor = s.anchor := by
  unfold State.stopLaunch
  split <;> simp

@[simp] theorem State.anchor_abortRunning (s : State) (reason : Nat) : (s.abortRunning reason).anchor = s.anchor := by
  simp [State.abortRunning]

@[simp] theorem State.anchor_quiesceAll (s : State) : (s.quiesceAll).anchor = s.anchor := by simp [State.quiesceAll]

@[simp] theorem State.anchor_postBoth (s : State) (type : Nat) (payload : List Byte) : (s.postBoth type payload).anchor = s.anchor := by
  simp [State.postBoth]

@[simp] theorem State.anchor_haltOn (s : State) (i : LogItem) : (s.haltOn i).anchor = s.anchor := by simp [State.haltOn]

@[simp] theorem State.anchor_deviceError (s : State) (i : LogItem) : (s.deviceError i).anchor = s.anchor := by simp [State.deviceError]

@[simp] theorem State.anchor_setL2tlb (s : State) (h : Nat) (l : List TlbEntry) : (s.setL2tlb h l).anchor = s.anchor := by
  simp [State.setL2tlb]

@[simp] theorem State.anchor_xlatCount (s : State) (d off n : Nat) : (s.xlatCount d off n).anchor = s.anchor := by simp [State.xlatCount]

@[simp] theorem State.anchor_useUtlb (s : State) (c : Nat) (dma : Bool) (e : TlbEntry) : (s.useUtlb c dma e).anchor = s.anchor := by
  simp [State.useUtlb]

@[simp] theorem State.anchor_lookup (s : State) (c : Nat) (dma : Bool) (ctx va : Nat) : (s.lookup c dma ctx va).2.anchor = s.anchor := by
  simp only [State.lookup]
  repeat' split
  all_goals simp

@[simp] theorem State.anchor_compute (s : State) (c va : Nat) (use : Use) : (s.compute c va use).2.anchor = s.anchor := by
  unfold State.compute
  dsimp only
  split
  all_goals
    next h =>
    have e := State.anchor_of_snd (s.anchor_lookup c false (s.core c).context va) h
    simp [apply_ite Prod.snd, e]

@[simp] theorem State.anchor_setGrp (s : State) (i : Inst) (g : Group) : (s.setGrp i g).anchor = s.anchor := by simp [State.setGrp]

@[simp] theorem State.anchor_countIssue (s : State) (i : Inst) : (s.countIssue i).anchor = s.anchor := by simp [State.countIssue]

@[simp] theorem State.anchor_advance (s : State) (i : Inst) : (s.advance i).anchor = s.anchor := by simp [State.advance]

@[simp] theorem State.anchor_issue {s : State} {i : Inst} {f : Form} {act : State → Effect} (h : (act s).keeps s.anchor) :
    (s.issue i f act).anchor = s.anchor := by
  unfold State.issue
  split
  · rfl
  · split
    · simp
    · split
      · simp
      · split
        · next e => rw [e] at h; simpa using h
        · next e => rw [e] at h; simpa using h
        · next e => rw [e] at h; simpa using h
        · rfl

@[simp] theorem State.anchor_onceIssue {s : State} {i : Inst} {f : Form} {act : State → Effect} (h : (act s).keeps s.anchor) :
    (s.onceIssue i f act).anchor = s.anchor := by
  refine State.anchor_issue ?_
  split
  · simp
  · exact h

@[simp] theorem State.anchor_collective {s : State} {i : Inst} {f : Form} {cls : Nat} {part : Bool} {act : State → Mask → Effect}
    (h : ∀ m, (act s m).keeps s.anchor) : (s.collective i f cls part act).anchor = s.anchor := by
  refine State.anchor_issue ?_
  dsimp only
  split
  · simp
  · exact h _

@[simp] theorem State.anchor_putU (s : State) (i : Inst) (n : Nat) (v : DWord) : (s.putU i n v).anchor = s.anchor := by simp [State.putU]

@[simp] theorem State.anchor_putT (s : State) (i : Inst) (m : Mask) (d : Nat) (v : Nat → Word) : (s.putT i m d v).anchor = s.anchor := by
  simp [State.putT]

@[simp] theorem State.anchor_putP (s : State) (i : Inst) (m : Mask) (d : Nat) (v : Nat → Bool) : (s.putP i m d v).anchor = s.anchor := by
  simp [State.putP]

@[simp] theorem State.anchor_checkLines (s : State) (c : Nat) (use : Use) (size : Nat) (las : List (Nat × Nat)) (vs : List Nat) :
    (s.checkLines c use size las vs).2.anchor = s.anchor := by
  induction vs generalizing s with
  | nil => rfl
  | cons v vs ih =>
    unfold State.checkLines
    dsimp only
    split
    · rfl
    · split
      · next h =>
        have e := State.anchor_of_snd (s.anchor_compute _ _ _) h
        split
        · next h2 => exact (State.anchor_of_snd (ih _) h2).trans e
        · exact (ih _).trans e
      · next h => exact State.anchor_of_snd (s.anchor_compute _ _ _) h

@[simp] theorem State.anchor_accesses (s : State) (i : Inst) (use : Use) (size : Nat) (m : Mask) :
    (s.accesses i use size m).2.anchor = s.anchor := by
  unfold State.accesses
  dsimp only
  split <;> next h => exact State.anchor_of_snd (s.anchor_checkLines _ _ _ _ _) h

@[simp] theorem State.keeps_failed (s : State) (i : Inst) (f : Failed) (x : Anchor) : (s.failed i f).keeps x ↔ s.anchor = x := Iff.rfl

@[simp] theorem State.anchor_countLine (s : State) (c : Nat) (offs : List Nat) : (s.countLine c offs).anchor = s.anchor := by
  simp [State.countLine]

@[simp] theorem State.anchor_leaveWb (s : State) (c : Nat) (e : WbEntry) : (s.leaveWb c e).anchor = s.anchor := by simp [State.leaveWb]

@[simp] theorem State.anchor_flushEntry (s : State) (c : Nat) (t : Target) : (s.flushEntry c t).anchor = s.anchor := by
  unfold State.flushEntry
  split <;> simp

@[simp] theorem State.anchor_loadLine (s : State) (i : Inst) (size : Nat) (sign ro : Bool) (tag : Nat) (a : LineAcc) :
    (s.loadLine i size sign ro tag a).anchor = s.anchor := by
  simp only [State.loadLine]
  repeat' split
  all_goals simp

@[simp] theorem State.anchor_buffer (s : State) (i : Inst) (t : Target) (tag : Nat) (bytes : List (Nat × Byte)) :
    (s.buffer i t tag bytes).anchor = s.anchor := by
  unfold State.buffer
  repeat' split
  all_goals simp

@[simp] theorem State.anchor_storeLine (s : State) (i : Inst) (size tag : Nat) (a : LineAcc) :
    (s.storeLine i size tag a).anchor = s.anchor := by
  simp [State.storeLine]

@[simp] theorem State.anchor_atomicLine (s : State) (i : Inst) (cas : Bool) (aop size tag : Nat) (a : LineAcc) :
    (s.atomicLine i cas aop size tag a).anchor = s.anchor := by
  simp [State.atomicLine]

@[simp] theorem State.keeps_atomicAct (s : State) (i : Inst) (cas : Bool) (aop : Nat) : (s.atomicAct i cas aop).keeps s.anchor := by
  unfold State.atomicAct
  dsimp only
  split
  all_goals
    next h =>
    have e := State.anchor_of_snd (s.anchor_accesses _ _ _ _) h
    simp [State.anchor_foldl, e]

@[simp] theorem State.anchor_redIssue (s : State) (i : Inst) (op : RedOp) : (s.redIssue i op).anchor = s.anchor := by
  refine State.anchor_collective fun m => ?_
  dsimp only
  split
  all_goals
    next h =>
    have e := State.anchor_of_snd (s.anchor_accesses _ _ _ _) h
    simp [State.anchor_foldl, e]

@[simp] theorem State.anchor_rangeLine (s : State) (i : Inst) (op : RangeOp) (t : Target) : (s.rangeLine i op t).anchor = s.anchor := by
  simp [State.rangeLine]

@[simp] theorem State.anchor_prefetchAct (s : State) (i : Inst) (lines : List Nat) : (s.prefetchAct i lines).anchor = s.anchor := by
  refine State.anchor_foldl _ (fun s va => ?_) _ _
  split
  all_goals
    next h =>
    have e := State.anchor_of_snd (s.anchor_compute _ _ _) h
    simp [e]

@[simp] theorem State.keeps_rangeOpAct (s : State) (i : Inst) (op : RangeOp) (use : Use) (lines : List Nat) :
    (s.rangeOpAct i op use lines).keeps s.anchor := by
  unfold State.rangeOpAct
  split
  all_goals
    next h =>
    have e := State.anchor_of_snd (s.anchor_checkLines _ _ _ _ _) h
    simp [State.anchor_foldl, e]

@[simp] theorem State.anchor_cacheOp (s : State) (i : Inst) (op : RangeOp) : (s.cacheOp i op).anchor = s.anchor := by
  refine State.anchor_onceIssue ?_
  dsimp only
  split
  · simp
  · split
    · simp
    · split
      · simp
      · split <;> simp [State.keeps_rangeOpAct]

@[simp] theorem State.anchor_uniformAccess (s : State) (i : Inst) (use : Use) (size : Nat) :
    (s.uniformAccess i use size).2.anchor = s.anchor := by
  unfold State.uniformAccess
  dsimp only
  split
  · rfl
  · split <;> next h => exact State.anchor_of_snd (s.anchor_compute _ _ _) h

@[simp] theorem State.anchor_dmaPlace (s : State) (c va : Nat) (write pinnedOnly : Bool) :
    (s.dmaPlace c va write pinnedOnly).2.anchor = s.anchor := by
  unfold State.dmaPlace
  dsimp only
  split
  all_goals
    next h =>
    have e := State.anchor_of_snd (s.anchor_lookup _ _ _ _) h
    simp [apply_ite Prod.snd, e]

@[simp] theorem State.anchor_dmaPlaces (s : State) (c : Nat) (write : Bool) (ls : List (Nat × Nat)) :
    (s.dmaPlaces c write ls).2.anchor = s.anchor := by
  induction ls generalizing s with
  | nil => rfl
  | cons x ls ih =>
    unfold State.dmaPlaces
    split
    · next h => exact State.anchor_of_snd (s.anchor_dmaPlace _ _ _ _) h
    · next h => exact State.anchor_of_snd (s.anchor_dmaPlace _ _ _ _) h
    · next h =>
      have e := State.anchor_of_snd (s.anchor_dmaPlace _ _ _ _) h
      split
      · next h2 => exact (State.anchor_of_snd (ih _) h2).trans e
      · exact (ih _).trans e

@[simp] theorem State.anchor_sendFlash (s : State) (r : Req) : (s.sendFlash r).anchor = s.anchor := by simp [State.sendFlash]

@[simp] theorem State.anchor_dmaWrites (s : State) (c : Nat) (e : DmaEntry) (d : DmaDesc) (bytes : List Byte) (ts : List (Target × Nat)) :
    (s.dmaWrites c e d bytes ts).anchor = s.anchor := by
  induction ts generalizing s bytes with
  | nil => rfl
  | cons t ts ih => simp [State.dmaWrites, ih]

@[simp] theorem State.anchor_dmaPut (s : State) (c : Nat) (e : DmaEntry) (d : DmaDesc) (k : Nat) (bytes : List Byte)
    (dst : List (Target × Nat)) :
    (s.dmaPut c e d k bytes dst).anchor = s.anchor := by
  unfold State.dmaPut
  split <;> simp

@[simp] theorem State.anchor_dmaReads (s : State) (c : Nat) (e : DmaEntry) (d : DmaDesc) (ndl : Bool) (dest : Nat → DmaDest) (done : Nat)
    (ts : List (Target × Nat)) : (s.dmaReads c e d ndl dest done ts).anchor = s.anchor := by
  induction ts generalizing s done with
  | nil => rfl
  | cons t ts ih => simp [State.dmaReads, ih]

@[simp] theorem State.anchor_dmaPiece (s : State) (c : Nat) (e : DmaEntry) (d : DmaDesc) (k : Nat) :
    (s.dmaPiece c e d k).2.2.anchor = s.anchor := by
  unfold State.dmaPiece
  extract_lets T sa da left hasSrc one
  have hone : ∀ s tile va write, (one s tile va write).2.anchor = s.anchor := by
    intro s tile va write
    unfold one
    split
    · rfl
    · split <;> next h => exact State.anchor_of_snd (s.anchor_dmaPlace _ _ _ _) h
  clear_value one
  split
  · next h => exact State.anchor_of_snd (hone _ _ _ _) h
  · next src s1 h =>
    have e1 := State.anchor_of_snd (hone _ _ _ _) h
    split
    · next h2 => exact (State.anchor_of_snd (hone _ _ _ _) h2).trans e1
    · next dst s2 h2 =>
      have e2 := (State.anchor_of_snd (hone _ _ _ _) h2).trans e1
      split
      · exact e2
      · extract_lets flash n
        clear_value flash n
        split
        · exact e2
        · split
          · exact e2
          · have places : ∀ (u : State) (b w : Bool) (l : List (Nat × Nat)),
                (if b then u.dmaPlaces c w l else (.inr [], u)).2.anchor = u.anchor :=
              fun u b w l => by cases b <;> simp
            split
            · next h3 => exact (State.anchor_of_snd (places _ _ _ _) h3).trans e2
            · next srcs s3 h3 =>
              have e3 := (State.anchor_of_snd (places _ _ _ _) h3).trans e2
              split
              · next h4 => exact (State.anchor_of_snd (places _ _ _ _) h4).trans e3
              · next dsts s4 h4 =>
                have e4 := (State.anchor_of_snd (places _ _ _ _) h4).trans e3
                dsimp only
                split
                · simpa using e4
                · split
                  · simpa using e4
                  · split_ifs <;> simpa using e4

@[simp] theorem State.anchor_dmaRangePiece (s : State) (c : Nat) (e : DmaEntry) (d : DmaDesc) (op : RangeOp) (k : Nat) :
    (s.dmaRangePiece c e d op k).2.2.anchor = s.anchor := by
  unfold State.dmaRangePiece
  dsimp only
  split
  all_goals
    next h =>
    have e := State.anchor_of_snd (s.anchor_dmaPlace _ _ _ _) h
    simp [apply_ite Prod.snd, e]

theorem State.anchor_dmaRun {piece : State → Nat → Nat × DmaStop × State} (h : ∀ s k, (piece s k).2.2.anchor = s.anchor) (total f : Nat)
    (s : State)
    (k : Nat) : (State.dmaRun piece total f s k).2.2.anchor = s.anchor := by
  induction f generalizing s k with
  | zero => rfl
  | succ f ih =>
    have hp := h s k
    unfold State.dmaRun
    split
    · rfl
    · split
      · next e => rw [e] at hp; exact (ih _ _).trans hp
      · next e => rw [e] at hp; exact hp

@[simp] theorem State.anchor_openRow (s : State) (c : Nat) (e : DmaEntry) (va : Nat) (write : Bool) :
    (s.openRow c e va write).anchor = s.anchor := by
  simp only [State.openRow]
  split <;> simp

@[simp] theorem State.anchor_dmaPerform {s : State} {c i op : Nat} {piece : State → DmaEntry → DmaDesc → Nat → Nat × DmaStop × State}
    (h : ∀ s e d k, (piece s e d k).2.2.anchor = s.anchor) : (s.dmaPerform c i op piece).anchor = s.anchor := by
  unfold State.dmaPerform
  dsimp only
  split
  · split
    · split
      · rfl
      · split <;> simp [State.anchor_dmaRun fun s b => h s _ _ b]
    · rfl
  · rfl

@[simp] theorem State.anchor_barriers (s : State) (c : Nat) : (s.barriers c).anchor = s.anchor := by simp [State.barriers]

@[simp] theorem State.keeps_mtxEnter (s : State) (i : Inst) (op : MtxOp) : (s.mtxEnter i op).keeps s.anchor := by
  unfold State.mtxEnter
  dsimp only
  split <;> simp

@[simp] theorem State.anchor_mtxIssue (s : State) (i : Inst) (f : Form) (sound : State → Bool) (op : State → MtxOp) :
    (s.mtxIssue i f sound op).anchor = s.anchor := by
  refine State.anchor_collective fun m => ?_
  simp

@[simp] theorem State.anchor_mtxFault (s : State) (c : Nat) (e : MtxEntry) (kind detail addr : Nat) :
    (s.mtxFault c e kind detail addr).anchor = s.anchor := by
  simp [State.mtxFault]

@[simp] theorem State.anchor_mtxReach (s : State) (c : Nat) (e : MtxEntry) (r : Reach) : (s.mtxReach c e r).anchor = s.anchor := by
  cases r <;> simp [State.mtxReach]

@[simp] theorem State.keeps_arriveAt (s : State) (i : Inst) (number : Option Nat) : (s.arriveAt i number).keeps s.anchor := by
  unfold State.arriveAt
  dsimp only
  split
  · simp
  · split <;> simp

@[simp] theorem State.keeps_queueToken (s : State) (i : Inst) (matrix isWait : Bool) (n : Nat) :
    (s.queueToken i matrix isWait n).keeps s.anchor := by
  unfold State.queueToken
  dsimp only
  split
  · simp
  · split <;> simp

@[simp] theorem State.anchor_meshFault (s : State) (c : Nat) (site : Site) (stream port cause : Nat) :
    (s.meshFault c site stream port cause).anchor = s.anchor := by
  simp [State.meshFault]

@[simp] theorem State.anchor_meshGo (s : State) (c slot : Nat) (w : MeshWait) : (s.meshGo c slot w).anchor = s.anchor := by
  simp [State.meshGo]

@[simp] theorem State.keeps_meshIssue (s : State) (i : Inst) (isSend : Bool) (m : Mask) : (s.meshIssue i isSend m).keeps s.anchor := by
  unfold State.meshIssue
  dsimp only
  repeat' split
  all_goals simp

theorem State.anchor_deliverFlit {s t : State} {c port stream : Nat} {f : Flit} (h : s.deliverFlit c port stream f = .inr t) :
    t.anchor = s.anchor := by
  unfold State.deliverFlit at h
  dsimp only at h
  repeat' split at h
  all_goals cases h
  all_goals simp

theorem State.anchor_slotOutputs {s t : State} {c j : Nat} {k0 : Core} {ps : List Nat} (h : s.slotOutputs c j k0 ps = .inr t) :
    t.anchor = s.anchor := by
  induction ps generalizing s with
  | nil => cases h; rfl
  | cons p ps ih =>
    unfold State.slotOutputs at h
    dsimp only at h
    split at h
    · exact ih h
    · split at h
      · cases h
      · simpa using ih h
      · split at h
        · cases h
        · next e => exact ((ih h).trans (by simp)).trans (State.anchor_deliverFlit e)

@[simp] theorem State.anchor_coreDone (s : State) (c : Nat) : (s.coreDone c).anchor = s.anchor := by
  simp only [State.coreDone]
  split <;> simp

@[simp] theorem State.anchor_startCore (s : State) (c : Nat) : (s.startCore c).anchor = s.anchor := by simp [State.startCore]

@[simp] theorem State.anchor_orphanStores (s : State) (c slot : Nat) : (s.orphanStores c slot).anchor = s.anchor := by
  simp [State.orphanStores]

@[simp] theorem State.anchor_coreCompletion (s : State) (c : Nat) : (s.coreCompletion c).anchor = s.anchor := by simp [State.coreCompletion]

@[simp] theorem State.anchor_coreCntClear (s : State) (c : CoreIdx) (v : Word) : (s.coreCntClear c v).anchor = s.anchor := by
  simp [State.coreCntClear]

@[simp] theorem State.anchor_mtxCntClear (s : State) (c : CoreIdx) (v : Word) : (s.mtxCntClear c v).anchor = s.anchor := by
  simp [State.mtxCntClear]

@[simp] theorem State.anchor_meshCntClear (s : State) (c : CoreIdx) (v : Word) : (s.meshCntClear c v).anchor = s.anchor := by
  simp [State.meshCntClear]

@[simp] theorem State.anchor_xlatCoreCntClear (s : State) (c : CoreIdx) (v : Word) : (s.xlatCoreCntClear c v).anchor = s.anchor := by
  simp [State.xlatCoreCntClear]

@[simp] theorem State.anchor_cacheCntClear (s : State) (h : HalfIdx) (v : Word) : (s.cacheCntClear h v).anchor = s.anchor := by
  simp [State.cacheCntClear]

@[simp] theorem State.anchor_memcCntClear (s : State) (m : CtrlIdx) (v : Word) : (s.memcCntClear m v).anchor = s.anchor := by
  simp [State.memcCntClear]

@[simp] theorem State.anchor_xlatCntClear (s : State) (d : DieIdx) (v : Word) : (s.xlatCntClear d v).anchor = s.anchor := by
  simp [State.xlatCntClear]

@[simp] theorem State.anchor_stewCntClear (s : State) (h : HalfIdx) (v : Word) : (s.stewCntClear h v).anchor = s.anchor := by
  simp [State.stewCntClear]

@[simp] theorem State.anchor_specCntClear (s : State) (v : Word) : (s.specCntClear v).anchor = s.anchor := by simp [State.specCntClear]

@[simp] theorem State.anchor_coreStackMaxRead (s : State) (c : CoreIdx) : (s.coreStackMaxRead c).anchor = s.anchor := by
  simp [State.coreStackMaxRead]

@[simp] theorem State.anchor_missregHwmRead (s : State) (h : HalfIdx) (b : BankIdx) : (s.missregHwmRead h b).anchor = s.anchor := by
  simp [State.missregHwmRead]

@[simp] theorem State.anchor_evrDroppedRead (s : State) (fn : FnIdx) : (s.evrDroppedRead fn).anchor = s.anchor := by
  simp [State.evrDroppedRead]

@[simp] theorem State.anchor_meshFaultClear (s : State) (c : CoreIdx) (v : Word) : (s.meshFaultClear c v).anchor = s.anchor := by
  simp [State.meshFaultClear]

@[simp] theorem State.anchor_hstRefusedClear (s : State) (v : Word) : (s.hstRefusedClear v).anchor = s.anchor := by
  simp [State.hstRefusedClear]

@[simp] theorem State.anchor_mbxOverrunClear (s : State) (m : MbxIdx) (v : Word) : (s.mbxOverrunClear m v).anchor = s.anchor := by
  simp [State.mbxOverrunClear]

@[simp] theorem State.anchor_meshCtrlWrite (s : State) (c : CoreIdx) (v : Word) : (s.meshCtrlWrite c v).anchor = s.anchor := by
  simp [State.meshCtrlWrite]

@[simp] theorem State.anchor_lcCheck (s : State) (b : Nat) : (s.lcCheck b).anchor = s.anchor := by simp [State.lcCheck]

@[simp] theorem State.anchor_laneTest (s : State) (b : Nat) (d : Bool) (found : List (Nat × Bool × Nat × Nat)) :
    (s.laneTest b d found).anchor = s.anchor := by
  simp [State.laneTest]

@[simp] theorem State.anchor_dropCrossings (s : State) (b : Nat) : (s.dropCrossings b).anchor = s.anchor := by simp [State.dropCrossings]

@[simp] theorem State.anchor_loseBundle (s : State) (b : Nat) : (s.loseBundle b).anchor = s.anchor := by simp [State.loseBundle]

@[simp] theorem State.anchor_arbCtrlClear (s : State) (p : ArbId) (v : Word) : (s.arbCtrlClear p v).anchor = s.anchor := by
  simp [State.arbCtrlClear]

@[simp] theorem State.anchor_bndCntClear (s : State) (p : BndPort) (v : Word) : (s.bndCntClear p v).anchor = s.anchor := by
  unfold State.bndCntClear
  split <;> simp

@[simp] theorem State.anchor_arbWaitLimitWrite (s : State) (p : ArbId) (v : Word) : (s.arbWaitLimitWrite p v).anchor = s.anchor := by
  simp [State.arbWaitLimitWrite]

@[simp] theorem State.anchor_arbHoldLimitWrite (s : State) (p : ArbId) (v : Word) : (s.arbHoldLimitWrite p v).anchor = s.anchor := by
  simp [State.arbHoldLimitWrite]

@[simp] theorem State.anchor_checkLine (s : State) (h key : Nat) (e : Ecc) : (s.checkLine h key e).anchor = s.anchor := by
  unfold State.checkLine
  split <;> simp

@[simp] theorem State.anchor_present (s : State) (rid : Nat) (kind : Req → Bool) : (s.present rid kind).anchor = s.anchor := by
  simp [State.present]

@[simp] theorem State.anchor_mergeIn (s : State) (h key : Nat) : (s.mergeIn h key).anchor = s.anchor := by simp [State.mergeIn]

@[simp] theorem State.anchor_fillDone (s : State) (h key : Nat) : (s.fillDone h key).1.anchor = s.anchor := by simp [State.fillDone]

@[simp] theorem State.anchor_askTwin (s : State) (base n : Nat) : (s.askTwin base n).anchor = s.anchor := by simp [State.askTwin]

@[simp] theorem State.anchor_refresh (s : State) (h key : Nat) : (s.refresh h key).anchor = s.anchor := by simp [State.refresh]

@[simp] theorem State.anchor_releaseStripe (s : State) (h stripe : Nat) : (s.releaseStripe h stripe).1.anchor = s.anchor :=
  State.anchor_serves (fun acc key => by simp) _ (s, [])

@[simp] theorem State.anchor_repairFails (s : State) (h : Nat) (r : Repair) : (s.repairFails h r).1.anchor = s.anchor := by
  simp [State.repairFails]

@[simp] theorem State.anchor_tryCopy (s : State) (h : Nat) (r : Repair) (n : Nat) : (s.tryCopy h r n).1.anchor = s.anchor := by
  induction n generalizing r with
  | zero => exact s.anchor_repairFails h r
  | succ n ih =>
    unfold State.tryCopy
    split
    · simp
    · split
      · simp
      · dsimp only
        split
        · simp
        · exact ih _
      · simp

@[simp] theorem State.anchor_nextRepair (s : State) (h n : Nat) : (s.nextRepair h n).1.anchor = s.anchor := by
  induction n generalizing s with
  | zero => rfl
  | succ n ih =>
    unfold State.nextRepair
    split
    · exact (ih _).trans (by simp)
    · rfl

@[simp] theorem State.anchor_startRepair (s : State) (h a src : Nat) : (s.startRepair h a src).1.anchor = s.anchor := by
  simp [State.startRepair, apply_ite Prod.fst]

@[simp] theorem State.anchor_repairNextCopy (s : State) (h : Nat) (r : Repair) : (s.repairNextCopy h r).1.anchor = s.anchor := by
  simp [State.repairNextCopy]

@[simp] theorem State.anchor_allocReplica (s : State) (hr : Nat) (r : Req) : (s.allocReplica hr r).anchor = s.anchor := by
  unfold State.allocReplica
  split <;> simp

@[simp] theorem State.anchor_replicaServe (s : State) (hr key : Nat) (r : Req) : (s.replicaServe hr key r).1.anchor = s.anchor := by
  simp [State.replicaServe, apply_ite Prod.fst]

@[simp] theorem State.anchor_cacheWaymaskWrite (s : State) (h : HalfIdx) (p : PartIdx) (v : Word) :
    (s.cacheWaymaskWrite h p v).anchor = s.anchor := by
  simp [State.cacheWaymaskWrite]

@[simp] theorem State.anchor_clearRoles (s : State) (h : Nat) : (s.clearRoles h).anchor = s.anchor := by simp [State.clearRoles]

@[simp] theorem State.anchor_setReplicaWays (s : State) (h n : Nat) : (s.setReplicaWays h n).anchor = s.anchor := by
  simp [State.setReplicaWays]

@[simp] theorem State.anchor_cacheCfgWrite (s : State) (h : HalfIdx) (v : Word) : (s.cacheCfgWrite h v).anchor = s.anchor := by
  simp [State.cacheCfgWrite]

@[simp] theorem State.anchor_replicaSetDone (s : State) : (s.replicaSetDone).anchor = s.anchor := by
  unfold State.replicaSetDone
  split <;> simp

@[simp] theorem State.anchor_runSweep (s : State) (h : Nat) : (s.runSweep h).anchor = s.anchor := by simp [State.runSweep]

@[simp] theorem State.anchor_cacheSweepStart (s : State) (h : HalfIdx) (v : DWord) : (s.cacheSweepStart h v).anchor = s.anchor := by
  simp [State.cacheSweepStart]

@[simp] theorem State.anchor_memCount (s : State) (m off n : Nat) : (s.memCount m off n).anchor = s.anchor := by simp [State.memCount]

@[simp] theorem State.anchor_activates (s : State) (m : Nat) : (s.activates m).anchor = s.anchor := by simp [State.activates]

@[simp] theorem State.anchor_checkSector (s : State) (m a : Nat) (e : MemErr) : (s.checkSector m a e).anchor = s.anchor := by
  unfold State.checkSector
  split <;> simp

@[simp] theorem State.anchor_readUncached (s : State) (r : Req) : (s.readUncached r).1.anchor = s.anchor := by
  unfold State.readUncached
  dsimp only
  split <;> simp [apply_ite Prod.fst]

@[simp] theorem State.anchor_cacheErrStatusClear (s : State) (h : HalfIdx) (v : Word) : (s.cacheErrStatusClear h v).anchor = s.anchor := by
  simp [State.cacheErrStatusClear]

@[simp] theorem State.anchor_memcErrStatusClear (s : State) (m : CtrlIdx) (v : Word) : (s.memcErrStatusClear m v).anchor = s.anchor := by
  simp [State.memcErrStatusClear]

@[simp] theorem State.anchor_moduleWrite (s : State) (a : Nat) (bytes : List Byte) : (s.moduleWrite a bytes).anchor = s.anchor := by
  simp [State.moduleWrite]

@[simp] theorem State.anchor_keepEntry (s : State) (d ctx l pre : Nat) (e : DWord) : (s.keepEntry d ctx l pre e).anchor = s.anchor := by
  simp [State.keepEntry]

@[simp] theorem State.anchor_updateLeaf (s : State) (j : WalkJob) (place : Option Nat) (ea : Nat) (e : DWord) :
    (s.updateLeaf j place ea e).2.2.anchor = s.anchor := by
  simp only [State.updateLeaf]
  repeat' split
  all_goals simp

@[simp] theorem State.anchor_walkFrom (j : WalkJob) (ls : List ((Nat × Nat) × Nat)) (table : Nat) (writable : Bool) (entries : List DWord)
    (s : State) :
    (State.walkFrom j ls table writable entries s).2.anchor = s.anchor := by
  induction ls generalizing table writable entries s with
  | nil => rfl
  | cons l ls ih =>
    unfold State.walkFrom
    extract_lets f ea pre cached place read left
    clear_value read
    split
    · rfl
    · next e =>
      split
      · rfl
      · split
        · rfl
        · split
          · rfl
          · dsimp only
            split
            · split
              · rfl
              · have hu := s.anchor_updateLeaf j place ea e
                split <;> next h => rw [h] at hu; exact hu
            · exact (ih _ _ _ _).trans (by simp)

@[simp] theorem State.anchor_walk (s : State) (x : Ctx) (j : WalkJob) (entries : List DWord) :
    (s.walk x j entries).2.anchor = s.anchor := by
  unfold State.walk
  split <;> simp

@[simp] theorem State.anchor_sendAts (s : State) (die : Nat) (r : XRow) : (s.sendAts die r).anchor = s.anchor := by
  unfold State.sendAts
  split <;> simp

@[simp] theorem State.anchor_failRow (s : State) (n : Nat) (r : XRow) (cause : Nat) : (s.failRow n r cause).anchor = s.anchor := by
  unfold State.failRow
  repeat' split
  all_goals simp

@[simp] theorem State.anchor_askRow (s : State) (n : Nat) (r : XRow) (cause : Nat) : (s.askRow n r cause).anchor = s.anchor := by
  simp [State.askRow]

@[simp] theorem State.anchor_leafRow (s : State) (n : Nat) (r : XRow) (e : TlbEntry) : (s.leafRow n r e).anchor = s.anchor := by
  unfold State.leafRow
  repeat' split
  all_goals simp

@[simp] theorem State.anchor_expireRow (s : State) (row : Nat) : (s.expireRow row).anchor = s.anchor := by
  unfold State.expireRow
  split <;> simp

@[simp] theorem State.anchor_staleWindows (s : State) (ctx lo len : Nat) : (s.staleWindows ctx lo len).anchor = s.anchor := by
  unfold State.staleWindows
  split <;> simp

@[simp] theorem State.anchor_invalidateCtx (s : State) (ctx lo len : Nat) : (s.invalidateCtx ctx lo len).anchor = s.anchor := by
  unfold State.invalidateCtx
  extract_lets hit cores l2 wc rows x s1
  have e1 : s1.anchor = s.anchor := by simp [s1]
  refine (State.anchor_foldl _ (fun s e => ?_) _ _).trans e1
  split
  · split <;> simp
  · rfl

@[simp] theorem State.anchor_countInval (s : State) : (s.countInval).anchor = s.anchor := by simp [State.countInval]

@[simp] theorem State.anchor_retire (s : State) (r : Req) : (s.retire r).anchor = s.anchor := by simp [State.retire]

@[simp] theorem State.anchor_retarget (s : State) (h : Nat) : (s.retarget h).anchor = s.anchor := by simp [State.retarget]

@[simp] theorem State.anchor_retargetAll (s : State) : (s.retargetAll).anchor = s.anchor := by simp [State.retargetAll]

@[simp] theorem State.anchor_withLimits (s : State) (p : Power) : (s.withLimits p).anchor = s.anchor := by simp [State.withLimits]

@[simp] theorem State.anchor_chooseUnits (s : State) (slow : Bool) (goal : Nat) (us : List (List Nat)) (sum : Nat)
    (acc : List (Nat × Bool)) :
    (s.chooseUnits slow goal us sum acc).2.anchor = s.anchor := by
  induction us generalizing s sum acc with
  | nil => rfl
  | cons u us ih => simp [State.chooseUnits, apply_ite Prod.snd, ih]

@[simp] theorem State.anchor_capEvents (s : State) : (s.capEvents).anchor = s.anchor := by simp [State.capEvents]

@[simp] theorem State.anchor_throttleHalf (s : State) (h : Nat) (on : Bool) : (s.throttleHalf h on).anchor = s.anchor := by
  simp [State.throttleHalf]

@[simp] theorem State.anchor_merMove (s : State) (st : MerState) (lost : Nat) : (s.merMove st lost).anchor = s.anchor := by
  simp [State.merMove]

@[simp] theorem State.anchor_merCorrect (s : State) (o : Int) : (s.merCorrect o).anchor = s.anchor := by simp [State.merCorrect]

@[simp] theorem State.anchor_measure (s : State) (o : Int) : (s.measure o).anchor = s.anchor := by
  simp only [State.measure]
  split <;> simp

@[simp] theorem State.anchor_offerWindow (s : State) (w : Nat) : (s.offerWindow w).anchor = s.anchor := by simp [State.offerWindow]

@[simp] theorem State.anchor_windowTry (s : State) (w : Nat) : (s.windowTry w).anchor = s.anchor := by simp [State.windowTry]

@[simp] theorem State.anchor_endPair (s : State) (status : Nat) : (s.endPair status).anchor = s.anchor := by simp [State.endPair]

@[simp] theorem State.anchor_startTraining (s : State) : (s.startTraining).anchor = s.anchor := by simp [State.startTraining]

@[simp] theorem State.anchor_failTwinRepairs (s : State) : s.failTwinRepairs.anchor = s.anchor := by
  refine State.anchor_foldl _ (fun s h => ?_) _ _
  split
  · split <;> simp
  · rfl

@[simp] theorem State.anchor_twinGone (s : State) (lost : Bool) (next : PairState) : (s.twinGone lost next).anchor = s.anchor := by
  simp [State.twinGone]

@[simp] theorem State.anchor_mirrorStray (s : State) (w line : Nat) : (s.mirrorStray w line).anchor = s.anchor := by
  simp [State.mirrorStray]

@[simp] theorem State.anchor_serveNow (s : State) (id : Nat) : (s.serveNow id).anchor = s.anchor := by
  unfold State.serveNow
  split <;> simp

@[simp] theorem State.anchor_mirrorWrite (s : State) (tag line : Nat) (data : List (Nat × Byte)) :
    (s.mirrorWrite tag line data).anchor = s.anchor := by
  simp [State.mirrorWrite]

@[simp] theorem State.anchor_hostIssue (s : State) (r : Req) : (s.hostIssue r).anchor = s.anchor := by simp [State.hostIssue]

@[simp] theorem State.anchor_setAperture (s : State) (v : DWord) : (s.setAperture v).anchor = s.anchor := by simp [State.setAperture]

@[simp] theorem State.anchor_hostData (s : State) (r : Req) (bytes : List Byte) (poisoned : Bool) :
    (s.hostData r bytes poisoned).1.anchor = s.anchor := by
  unfold State.hostData
  dsimp only
  split
  · simp [apply_ite Prod.fst]
  · split
    · simp
    · split <;> simp
  · simp [apply_ite Prod.fst]

@[simp] theorem State.anchor_transmit (s : State) (r : Req) (bytes : List (Nat × Byte)) : (s.transmit r bytes).anchor = s.anchor := by
  simp [State.transmit]

@[simp] theorem State.anchor_sendPending (s : State) (fn : Nat) : (s.sendPending fn).anchor = s.anchor := by simp [State.sendPending]

@[simp] theorem State.anchor_updHost (s : State) (f : HostIf → HostIf) : (s.updHost f).anchor = s.anchor := by simp [State.updHost]

@[simp] theorem State.anchor_setBar4Base (s : State) (fn addr : Nat) : (s.setBar4Base fn addr).anchor = s.anchor := by
  simp [State.setBar4Base]

@[simp] theorem State.anchor_drainVfs (s : State) : s.drainVfs.anchor = s.anchor := State.anchor_foldl _ (by simp) _ _

@[simp] theorem State.anchor_configWrite (s : State) (fn : Nat) (w : CfgWrite) : (s.configWrite fn w).anchor = s.anchor := by
  unfold State.configWrite
  split <;> simp

@[simp] theorem State.anchor_doorbell (s : State) (m : Nat) (v : Word) : (s.doorbell m v).anchor = s.anchor := by
  unfold State.doorbell
  split <;> simp

@[simp] theorem State.anchor_responseFrame (s : State) (body : List Byte) : (s.responseFrame body).anchor = s.anchor := by
  unfold State.responseFrame
  split <;> simp

@[simp] theorem State.anchor_respond (s : State) (c : Cmd) (status detail : Nat) (payload : List Byte) :
    (s.respond c status detail payload).anchor = s.anchor := by
  simp [State.respond]

@[simp] theorem State.anchor_accept (s : State) (m : Nat) : (s.accept m).anchor = s.anchor := by
  simp only [State.accept]
  repeat' split
  all_goals simp

@[simp] theorem State.anchor_run {s : State} {opcode : Nat} {f : Cmd → Reply} (h : ∀ c, (f c).keeps s.anchor) :
    (s.run opcode f).anchor = s.anchor := by
  unfold State.run
  split
  · rfl
  · next c _ =>
    have hf := h c
    split
    · rfl
    · split
      · simp
      · next e => rw [e] at hf; simpa using hf

@[simp] theorem State.anchor_startOp (s : State) (c : Cmd) (arg : Nat) : (s.startOp c arg).anchor = s.anchor := by simp [State.startOp]

@[simp] theorem State.anchor_readEffect (s : State) (off : Nat) : (s.readEffect off).anchor = s.anchor := by
  unfold State.readEffect
  split <;> simp

@[simp] theorem State.anchor_valacWrite (s : State) (ctx part va : Nat) (bytes : List Byte) (r : ReadResult) :
    (s.valacWrite ctx part va bytes r).2.anchor = s.anchor := by
  simp only [State.valacWrite]
  repeat' split
  all_goals simp

@[simp] theorem State.anchor_markEligible (s : State) : (s.markEligible).anchor = s.anchor := by simp [State.markEligible]

@[simp] theorem State.anchor_useVersion (s : State) (g : Nat × Nat) : (s.useVersion g).anchor = s.anchor := by
  unfold State.useVersion
  split <;> simp

@[simp] theorem State.anchor_consume (s : State) (q : Nat) (x : Queue) (d : List Byte) : (s.consume q x d).anchor = s.anchor := by
  simp only [State.consume]
  repeat' split
  all_goals simp

@[simp] theorem State.anchor_setNode (s : State) (l : Launch) (i : Nat) (f : Node → Node) : (s.setNode l i f).anchor = s.anchor := by
  simp [State.setNode]

@[simp] theorem State.anchor_refuse (s : State) (l : Launch) (reason : Nat) : (s.refuse l reason).anchor = s.anchor := by
  simp [State.refuse]

@[simp] theorem State.anchor_countRefused (s : State) (p : Nat) : (s.countRefused p).anchor = s.anchor := by
  unfold State.countRefused
  split <;> simp

@[simp] theorem State.anchor_admitOne (s : State) (l : Launch) : (s.admitOne l).anchor = s.anchor := by
  simp only [State.admitOne]
  repeat' split
  all_goals simp

@[simp] theorem State.anchor_admission (s : State) (p : Nat) : (s.admission p).anchor = s.anchor := by
  unfold State.admission
  split
  · rfl
  · split
    · rfl
    · exact State.anchor_foldl _ (fun _ _ => by split <;> simp) _ _

@[simp] theorem State.anchor_configure (s : State) (j : StartJob) (c : Nat) : (s.configure j c).anchor = s.anchor := by
  simp [State.configure]

@[simp] theorem State.anchor_meshTime (s : State) (l : Launch) (cores : List Nat) (transit : Option Nat) :
    (s.meshTime l cores transit).2.anchor = s.anchor := by
  unfold State.meshTime
  repeat' split
  all_goals simp

@[simp] theorem State.anchor_startCores (s : State) (l : Launch) (id : DWord) (d : List Byte) (transit : Option Nat) :
    (s.startCores l id d transit).anchor = s.anchor := by
  unfold State.startCores
  split <;> simp

@[simp] theorem State.anchor_markOverlap (s : State) (id : DWord) : (s.markOverlap id).anchor = s.anchor := by simp [State.markOverlap]

@[simp] theorem State.anchor_beginHold (s : State) (q : Nat) : (s.beginHold q).anchor = s.anchor := by
  unfold State.beginHold
  split <;> simp

@[simp] theorem State.anchor_takeTurn (s : State) (p q : Nat) : (s.takeTurn p q).anchor = s.anchor := by
  unfold State.takeTurn
  split <;> simp

@[simp] theorem State.anchor_beginRun (s : State) (l : Launch) (cores : List Nat) (late : Bool) :
    (s.beginRun l cores late).anchor = s.anchor := by
  simp [State.beginRun]

@[simp] theorem State.anchor_startPlain (s : State) (l : Launch) (late : Bool) (transit : Option Nat) :
    (s.startPlain l late transit).anchor = s.anchor := by
  simp [State.startPlain]

@[simp] theorem State.anchor_startNode (s : State) (l : Launch) (i : Nat) (late : Bool) (transit : Option Nat) :
    (s.startNode l i late transit).anchor = s.anchor := by
  unfold State.startNode
  split <;> simp

@[simp] theorem State.anchor_beginLaunch (s : State) (l : Launch) (late : Bool) (transit : Option Nat) :
    (s.beginLaunch l late transit).anchor = s.anchor := by
  unfold State.beginLaunch
  repeat' split
  all_goals simp

@[simp] theorem State.anchor_considerStart (s : State) (id : DWord) : (s.considerStart id).anchor = s.anchor := by
  simp only [State.considerStart]
  repeat' split
  all_goals simp

@[simp] theorem State.anchor_doSignal (s : State) (ctx part : Nat) (d : List Byte) (ok : Bool) (r : ReadResult) :
    (s.doSignal ctx part d ok r).2.anchor = s.anchor := by
  unfold State.doSignal
  repeat' split
  all_goals simp

@[simp] theorem State.anchor_putRecord (s : State) (ctx part ring : Nat) (bytes : List Byte) (r : ReadResult) :
    (s.putRecord ctx part ring bytes r).2.anchor = s.anchor := by
  simp only [State.putRecord]
  repeat' split
  all_goals simp

@[simp] theorem State.anchor_ringSignal (s : State) (ring : Nat) : (s.ringSignal ring).anchor = s.anchor := by
  unfold State.ringSignal
  split <;> simp

@[simp] theorem State.anchor_undeliverable (s : State) (l : Launch) (record : List Byte) :
    (s.undeliverable l record).anchor = s.anchor := by
  simp only [State.undeliverable]
  repeat' split
  all_goals simp

@[simp] theorem State.anchor_deliver (s : State) (id : DWord) (r : ReadResult) : (s.deliver id r).anchor = s.anchor := by
  unfold State.deliver
  split
  · rfl
  · next l _ =>
    split
    · rfl
    · split
      · simp
      · split
        · simp
        · split
          · rfl
          · dsimp only
            split
            all_goals
              next h =>
              have e := State.anchor_of_snd (s.anchor_putRecord _ _ _ _ _) h
              simp [e]

@[simp] theorem State.anchor_deliverNode (s : State) (l : Launch) (i : Nat) (d : List Byte) (r : ReadResult) :
    (s.deliverNode l i d r).anchor = s.anchor := by
  unfold State.deliverNode
  split
  · rfl
  · split
    · rfl
    · dsimp only
      split
      · simp
      · split
        · rfl
        · split
          all_goals
            next h =>
            have e := State.anchor_of_snd (s.anchor_putRecord _ _ _ _ _) h
            simp [e]

@[simp] theorem State.anchor_endActions (s : State) (l : Launch) (cores : List Nat) : (s.endActions l cores).anchor = s.anchor := by
  have e := s.anchor_dropResv fun c _ _ => cores.contains c
  unfold State.endActions
  dsimp only
  split
  · exact e
  · exact (State.anchor_warn _ _).trans e

@[simp] theorem State.anchor_keepRise (s : State) (g : Nat × Nat) (f : GraphVersion → GraphVersion) :
    (s.keepRise g f).anchor = s.anchor := by
  unfold State.keepRise
  split <;> simp

@[simp] theorem State.anchor_noteRise (s : State) (l : Launch) : (s.noteRise l).anchor = s.anchor := by
  unfold State.noteRise
  repeat' split
  all_goals simp

@[simp] theorem State.anchor_performSignal (s : State) (id : DWord) (r : ReadResult) : (s.performSignal id r).anchor = s.anchor := by
  unfold State.performSignal
  split <;> simp

@[simp] theorem State.anchor_endHalting (s : State) (q : Nat) : (s.endHalting q).anchor = s.anchor := by
  unfold State.endHalting
  split <;> simp

@[simp] theorem State.anchor_afterCommit (s : State) (part q : Nat) : (s.afterCommit part q).anchor = s.anchor := by
  simp [State.afterCommit]

@[simp] theorem State.anchor_commitRun (s : State) (l : Launch) : (s.commitRun l).anchor = s.anchor := by simp [State.commitRun]

@[simp] theorem State.anchor_commitNode (s : State) (l : Launch) (i : Nat) (d : List Byte) (first : Nat) (v : Verdict)
    (sig r : ReadResult) :
    (s.commitNode l i d first v sig r).anchor = s.anchor := by
  unfold State.commitNode
  split
  · rfl
  · extract_lets ran rise s1 s2 record s3 stamped s4 x
    have e2 : s2.anchor = s.anchor := by unfold s2; split <;> simp [s1]
    have e4 : s4.anchor = s3.anchor := rfl
    have ex : x.2.anchor = s.anchor := by simp [x, e4, s3, e2]
    split
    · exact ex
    · dsimp only
      split <;> simp [ex]

@[simp] theorem State.anchor_abortLaunch (s : State) (id : DWord) : (s.abortLaunch id).anchor = s.anchor := by simp [State.abortLaunch]

theorem State.anchor_pushEntry {s t : State} {i : Inst} {e : StackEntry} (h : s.pushEntry i e = some t) : t.anchor = s.anchor := by
  unfold State.pushEntry at h
  dsimp only at h
  split at h <;> cases h
  simp

@[simp] theorem State.anchor_goTo (s : State) (i : Inst) (g : Group) : (s.goTo i g).anchor = s.anchor := by simp [State.goTo]

@[simp] theorem State.keeps_branch (s : State) (i : Inst) : (s.branch i).keeps s.anchor := by
  unfold State.branch
  extract_lets g taken fall target reconv s1 exits
  have e1 : s1.anchor = s.anchor := by simp [s1]
  split
  · simp
  · split
    · simp
    · split
      · simpa using e1
      · split
        · simp
        · next h => simpa using (State.anchor_pushEntry h).trans e1

@[simp] theorem State.anchor_vecOp (s : State) (i : Inst) (f : Word → Word → Word) : (s.vecOp i f).anchor = s.anchor :=
  State.anchor_issue (by simp)

@[simp] theorem State.anchor_vecUnary (s : State) (i : Inst) (f : Word → Word) : (s.vecUnary i f).anchor = s.anchor :=
  State.anchor_issue (by simp)

@[simp] theorem State.anchor_tailWrite (s : State) (q : Nat) (v : Word) : (s.tailWrite q v).anchor = s.anchor := by
  unfold State.tailWrite
  split <;> simp

@[simp] theorem State.anchor_drainRing (s : State) (fn : Nat) : (s.drainRing fn).anchor = s.anchor := by simp [State.drainRing]

@[simp] theorem State.anchor_evrCtrlWrite (s : State) (fn : Nat) (v : Word) : (s.evrCtrlWrite fn v).anchor = s.anchor := by
  simp [State.evrCtrlWrite]

@[simp] theorem State.anchor_evrHeadWrite (s : State) (fn : Nat) (v : Word) : (s.evrHeadWrite fn v).anchor = s.anchor := by
  simp [State.evrHeadWrite]

@[simp] theorem State.anchor_runThen {s : State} {opcode : Nat} {f : Cmd → Reply} {after : Cmd → State → State}
    (h : ∀ c, (f c).keeps s.anchor)
    (ha : ∀ c t, (after c t).anchor = t.anchor) : (s.runThen opcode f after).anchor = s.anchor := by
  unfold State.runThen
  split
  · rfl
  · next c _ =>
    have hf := h c
    split
    · rfl
    · split
      · simp
      · next e => rw [e] at hf; simpa [ha] using hf

@[simp] theorem State.anchor_storeGraph (s : State) (o : Op) (b : List Byte) : (s.storeGraph o b).anchor = s.anchor := by
  unfold State.storeGraph
  split <;> simp

@[simp] theorem State.anchor_patchGraph (s : State) (o : Op) (b : List Byte) : (s.patchGraph o b).anchor = s.anchor := by
  unfold State.patchGraph
  split <;> simp

@[simp] theorem State.anchor_setShare (s : State) (g loader : Nat) (mask : BitVec 64) : (s.setShare g loader mask).anchor = s.anchor := by
  simp [State.setShare]

@[simp] theorem State.anchor_endPin (s : State) (o : Op) (r : XRow) (w : PinWalk) : (s.endPin o r w).anchor = s.anchor := by
  unfold State.endPin
  split <;> simp

@[simp] theorem State.anchor_dropPinned (s : State) (ctx lo len : Nat) : (s.dropPinned ctx lo len).anchor = s.anchor := by
  simp [State.dropPinned]

@[simp] theorem State.anchor_invalidateCmd (s : State) (c : Cmd) : (s.invalidateCmd c).anchor = s.anchor := by
  simp only [State.invalidateCmd]
  repeat' split
  all_goals simp

@[simp] theorem State.anchor_removeCtx (s : State) (id : Nat) : (s.removeCtx id).anchor = s.anchor := by simp [State.removeCtx]

@[simp] theorem State.anchor_writeMask (s : State) (p : Nat) (m : Half16) : (s.writeMask p m).anchor = s.anchor := by simp [State.writeMask]

@[simp] theorem State.anchor_postState (s : State) (p code : Nat) : (s.postState p code).anchor = s.anchor := by simp [State.postState]

@[simp] theorem State.anchor_clearCores (s : State) (cs : List Nat) : (s.clearCores cs).anchor = s.anchor := by simp [State.clearCores]

@[simp] theorem State.anchor_sweepWaysAll (s : State) (p : Nat) (ways : Half16) : (s.sweepWaysAll p ways).anchor = s.anchor := by
  simp [State.sweepWaysAll]

@[simp] theorem State.anchor_resizeSweep (s : State) (p : Nat) : (s.resizeSweep p).anchor = s.anchor := by
  unfold State.resizeSweep
  repeat' split
  all_goals simp

@[simp] theorem State.anchor_endPartOp (s : State) (p : Nat) : (s.endPartOp p).anchor = s.anchor := by
  unfold State.endPartOp
  repeat' split
  all_goals simp

@[simp] theorem State.anchor_cancelOp (s : State) (o : Op) : (s.cancelOp o).anchor = s.anchor := by simp [State.cancelOp]

@[simp] theorem State.anchor_cancelPartOps (s : State) (p : Nat) (keep : Option Nat) : (s.cancelPartOps p keep).anchor = s.anchor := by
  simp [State.cancelPartOps]

@[simp] theorem State.anchor_idleMbx (s : State) (m : Nat) : (s.idleMbx m).anchor = s.anchor := by simp [State.idleMbx]

@[simp] theorem State.anchor_beginReset (s : State) (p : Nat) (keep : Option Nat) : (s.beginReset p keep).anchor = s.anchor := by
  simp only [State.beginReset]
  split <;> simp

@[simp] theorem State.anchor_emptyPart (s : State) (p : Nat) : (s.emptyPart p).anchor = s.anchor := by
  simp only [State.emptyPart]
  split <;> simp

@[simp] theorem State.anchor_noteReset (s : State) (level part role : Nat) : (s.noteReset level part role).anchor = s.anchor := by
  simp [State.noteReset]

@[simp] theorem State.anchor_finishReset (s : State) (p : Nat) : (s.finishReset p).anchor = s.anchor := by
  simp only [State.finishReset]
  split <;> simp

@[simp] theorem State.anchor_releasePart (s : State) (p : Nat) (cores : List Nat) : (s.releasePart p cores).anchor = s.anchor := by
  simp [State.releasePart]

@[simp] theorem State.anchor_resetFn (s : State) (fn : Nat) (ring : EventRing) : (s.resetFn fn ring).anchor = s.anchor := by
  simp [State.resetFn]

@[simp] theorem State.anchor_resetMbx (s : State) (m : Nat) : (s.resetMbx m).anchor = s.anchor := by simp [State.resetMbx]

@[simp] theorem State.anchor_vfFlr (s : State) (v : Nat) : (s.vfFlr v).anchor = s.anchor := by
  unfold State.vfFlr
  repeat' split
  all_goals simp

@[simp] theorem State.anchor_flrVfs (s : State) : (s.flrVfs).anchor = s.anchor := by simp [State.flrVfs]

@[simp] theorem State.anchor_pfFlr (s : State) : (s.pfFlr).anchor = s.anchor := by simp [State.pfFlr]

@[simp] theorem State.anchor_stewardBeat (s : State) (rinse : Bool) (h : Nat) : (s.stewardBeat rinse h).anchor = s.anchor := by
  simp [State.stewardBeat]

@[simp] theorem State.anchor_countRinse (s : State) (h : Nat) : (s.countRinse h).anchor = s.anchor := by simp [State.countRinse]

@[simp] theorem State.anchor_rinseBeat (s : State) (work capacity : Nat) : (s.rinseBeat work capacity).anchor = s.anchor := by
  simp [State.rinseBeat]

@[simp] theorem State.anchor_setSource (s : State) (src domain : Nat) : (s.setSource src domain).anchor = s.anchor := by
  simp [State.setSource]

@[simp] theorem State.anchor_breakWindows (s : State) : (s.breakWindows).anchor = s.anchor := by simp [State.breakWindows]

@[simp] theorem State.anchor_releaseSyncs (s : State) (w : Nat) : (s.releaseSyncs w).anchor = s.anchor :=
  State.anchor_foldl _ (fun _ _ => by split <;> simp) _ _

@[simp] theorem State.anchor_mirrorSet (s : State) (w mode lag start len : Nat) : (s.mirrorSet w mode lag start len).anchor = s.anchor := by
  simp [State.mirrorSet]

@[simp] theorem State.anchor_audit (s : State) (opcode role setting status used version : Nat) (value : List Byte) :
    (s.audit opcode role setting status used version value).anchor = s.anchor := by
  simp [State.audit]

@[simp] theorem State.anchor_endClaim (s : State) : (s.endClaim).anchor = s.anchor := by simp [State.endClaim]

@[simp] theorem State.anchor_counted (s : State) (c : Cmd) (i : Nat) (value : List Byte) (fw : Firmware) :
    (s.counted c i value fw).anchor = s.anchor := by
  simp [State.counted]

@[simp] theorem State.keeps_boundCmd {s : State} {c : Cmd} {i : Nat} {same : Bool} {value : List Byte} {fw : Firmware}
    {after : State → State}
    (h : ∀ t, (after t).anchor = t.anchor) : (s.boundCmd c i same value fw after).keeps s.anchor := by
  simp [State.boundCmd, h]

@[simp] theorem State.anchor_closeSession (s : State) : (s.closeSession).anchor = s.anchor := by simp [State.closeSession]

@[simp] theorem State.anchor_portLink (s : State) (up : Bool) : (s.portLink up).anchor = s.anchor := by simp [State.portLink]

@[simp] theorem State.anchor_hello (s : State) (body : List Byte) : (s.hello body).anchor = s.anchor := by simp [State.hello]

@[simp] theorem State.anchor_onFrame {s : State} {f : MgmtFrame} {act : State → State} (h : ∀ t, (act t).anchor = t.anchor) :
    (s.onFrame f act).anchor = s.anchor := by
  unfold State.onFrame
  split
  · split
    · rw [h]; rfl
    · rfl
  · rfl

@[simp] theorem State.anchor_consoleCommand (s : State) (body : List Byte) : (s.consoleCommand body).anchor = s.anchor := by
  simp [State.consoleCommand]

@[simp] theorem State.anchor_resendEvent (s : State) (number : Nat) : (s.resendEvent number).anchor = s.anchor := by
  unfold State.resendEvent
  split <;> simp

@[simp] theorem State.anchor_measurement (s : State) (i : Nat) : (s.measurement i).2.anchor = s.anchor := by
  unfold State.measurement
  split <;> simp

@[simp] theorem State.anchor_measurements (s : State) (op : Nat) : (s.measurements op).2.anchor = s.anchor := by
  unfold State.measurements
  repeat' split
  all_goals simp

@[simp] theorem State.anchor_spdmBody (s : State) (code : Nat) (body : List Byte) : (s.spdmBody code body).2.anchor = s.anchor := by
  unfold State.spdmBody
  repeat' split
  all_goals simp

@[simp] theorem State.anchor_spdm (s : State) (t : SpdmPort) (code : Byte) (body : List Byte) : (s.spdm t code body).anchor = s.anchor := by
  unfold State.spdm
  repeat' split
  all_goals simp

@[simp] theorem State.anchor_resetBlocks (s : State) : (s.resetBlocks).anchor = s.anchor := by simp [State.resetBlocks]

@[simp] theorem State.anchor_cancelOffMain (s : State) : (s.cancelOffMain).anchor = s.anchor := by
  unfold State.cancelOffMain
  repeat' split
  all_goals simp

@[simp] theorem State.anchor_stepDone (s : State) (n : Nat) : (s.stepDone n).anchor = s.anchor := by simp [State.stepDone]

@[simp] theorem State.anchor_stepFail (s : State) (n cause unit : Nat) : (s.stepFail n cause unit).anchor = s.anchor := by
  simp [State.stepFail]

@[simp] theorem State.anchor_startStep {s : State} {fail : Option (Nat × Nat × Nat)} {n : Nat} {act : State → State}
    (h : ∀ t, (act t).anchor = t.anchor) : (s.startStep fail n act).anchor = s.anchor := by
  unfold State.startStep
  split
  · rfl
  · dsimp only
    split
    · simp
    · split <;> simp [h]

@[simp] theorem State.anchor_applyPatch (s : State) : (s.applyPatch).anchor = s.anchor := by simp [State.applyPatch]

@[simp] theorem State.anchor_testBundle (s : State) (found : List (Nat × Bool × Nat × Nat)) (b : Nat) :
    (s.testBundle found b).anchor = s.anchor := by
  simp [State.testBundle]

@[simp] theorem State.anchor_testLanes (s : State) (bad : List BadWire) : (s.testLanes bad).anchor = s.anchor := by simp [State.testLanes]

@[simp] theorem State.anchor_stepPatch (s : State) : (s.stepPatch).anchor = s.anchor := by simp [State.stepPatch]

@[simp] theorem State.anchor_stepBeats (s : State) : (s.stepBeats).anchor = s.anchor := by simp [State.stepBeats]

@[simp] theorem State.anchor_becomeReady (s : State) : (s.becomeReady).anchor = s.anchor := by
  simp only [State.becomeReady]
  split <;> simp

@[simp] theorem State.anchor_freeWire (s : State) : (s.freeWire).2.anchor = s.anchor := by simp [State.freeWire]

@[simp] theorem State.anchor_freeWires (s : State) (n : Nat) : (s.freeWires n).2.anchor = s.anchor := by
  induction n generalizing s with
  | zero => rfl
  | succ n ih => simp [State.freeWires, ih]

@[simp] theorem State.anchor_loader (s : State) (failing : Nat) : (s.loader failing).anchor = s.anchor := s.anchor_note _

@[simp] theorem State.anchor_stepTwo (s : State) (cold pufOk : Bool) (record : Option Nat) :
    (s.stepTwo cold pufOk record).anchor = s.anchor := by
  simp [State.stepTwo]
  split <;> simp

@[simp] theorem State.anchor_drainWay (s : State) (h key : Nat) : (s.drainWay h key).anchor = s.anchor := by simp [State.drainWay]

@[simp] theorem State.anchor_endCommit (s : State) (o : Op) (status : Nat) (value : List Byte) :
    (s.endCommit o status value).anchor = s.anchor := by
  simp [State.endCommit]

@[simp] theorem State.anchor_coreCtrlWrite (s : State) (c : Nat) (v : Word) : (s.coreCtrlWrite c v).anchor = s.anchor := by
  simp [State.coreCtrlWrite]

@[simp] theorem State.anchor_coreRegWrite (s : State) (c : CoreIdx) (w : Nat) (v : Word) : (s.coreRegWrite c w v).anchor = s.anchor := by
  simp [State.coreRegWrite]

@[simp] theorem State.anchor_halfRegWrite (s : State) (h : HalfIdx) (w : Nat) (v : Word) : (s.halfRegWrite h w v).anchor = s.anchor := by
  unfold State.halfRegWrite
  repeat' split
  all_goals simp

@[simp] theorem State.anchor_memcRegWrite (s : State) (m : CtrlIdx) (w : Nat) (v : Word) : (s.memcRegWrite m w v).anchor = s.anchor := by
  simp [State.memcRegWrite]

@[simp] theorem State.anchor_arbRegWrite (s : State) (p : ArbId) (w : Nat) (v : Word) : (s.arbRegWrite p w v).anchor = s.anchor := by
  simp [State.arbRegWrite]

@[simp] theorem State.anchor_icsWordWrite (s : State) (off : Nat) (v : Word) : (s.icsWordWrite off v).anchor = s.anchor := by
  unfold State.icsWordWrite
  split <;> simp

@[simp] theorem State.anchor_icsWrite (s : State) (off size value : Nat) : (s.icsWrite off size value).anchor = s.anchor := by
  simp [State.icsWrite]

@[simp] theorem State.anchor_readMany (s : State) (off size n : Nat) : (s.readMany off size n).2.anchor = s.anchor := by
  induction n generalizing s off with
  | zero => rfl
  | succ n ih => exact (ih _ _).trans (State.anchor_foldl _ (by simp) _ _)

@[simp] theorem State.anchor_bufferByte (s : State) (m off : Nat) (b : Byte) : (s.bufferByte m off b).anchor = s.anchor := by
  simp [State.bufferByte]

@[simp] theorem State.anchor_evrBaseWrite (s : State) (fn : Nat) (v : Nat) : (s.evrBaseWrite fn v).anchor = s.anchor := by
  simp [State.evrBaseWrite]

@[simp] theorem State.anchor_maskWrite (s : State) (fn v : Nat) (mask : Bool) : (s.maskWrite fn v mask).anchor = s.anchor := by
  simp [State.maskWrite]

@[simp] theorem State.anchor_msixWrite (s : State) (fn off : Nat) (v : Word) : (s.msixWrite fn off v).anchor = s.anchor := by
  simp [State.msixWrite]

@[simp] theorem State.anchor_bar0Word (s : State) (fn off : Nat) (v : Word) : (s.bar0Word fn off v).anchor = s.anchor := by
  simp [State.bar0Word, apply_dite State.anchor]

@[simp] theorem State.anchor_bar0Double (s : State) (fn off : Nat) (v : DWord) : (s.bar0Double fn off v).anchor = s.anchor := by
  simp [State.bar0Double]

@[simp] theorem State.anchor_bar0Write (s : State) (fn off : Nat) (data : List Byte) : (s.bar0Write fn off data).anchor = s.anchor := by
  unfold State.bar0Write
  extract_lets s1
  have e : s1.anchor = s.anchor := State.anchor_foldl _ (fun _ _ => by split <;> simp) _ _
  split_ifs <;> simp [e]

@[simp] theorem State.anchor_bar2Write (s : State) (fn off : Nat) (data : List Byte) : (s.bar2Write fn off data).anchor = s.anchor := by
  unfold State.bar2Write
  repeat' split
  all_goals simp

@[simp] theorem State.anchor_scalarOp (s : State) (i : Inst) (f : DWord → DWord → DWord) : (s.scalarOp i f).anchor = s.anchor :=
  State.anchor_onceIssue (by simp)

@[simp] theorem State.anchor_floatOp (s : State) (i : Inst) (kb kc : SrcKind) (rounds : Bool) (f : Bool → FVal → FVal → FVal → FVal) :
    (s.floatOp i kb kc rounds f).anchor = s.anchor := State.anchor_issue (by simp)

@[simp] theorem State.anchor_nearOp (s : State) (i : Inst) (f : Bool → Nat → Nat → Nat) : (s.nearOp i f).anchor = s.anchor :=
  State.anchor_issue rfl

@[simp] theorem State.anchor_packedOp (s : State) (i : Inst) (kc : SrcKind) (f : (Nat → FVal) → FVal) :
    (s.packedOp i kc f).anchor = s.anchor :=
  State.anchor_issue (by simp)

@[simp] theorem State.anchor_coreCycle (s : State) (c : Nat) : (s.coreCycle c).anchor = s.anchor := by simp [State.coreCycle]

@[simp] theorem State.anchor_tick (s : State) : (s.tick).anchor = s.anchor := by simp [State.tick]

end Sys2Proof.Machine

/-! Every command but the listed ones keeps the anchor. -/

namespace Sys2Proof.Machine
/-- Every state that a command answers has the anchor. -/
def Anchor.keptBy (x : Anchor) (o : Host.Outcome State Fault Refusal) : Prop := ∀ t, o = .next t → t.anchor = x

@[simp] theorem Anchor.keptBy_next (x : Anchor) (s : State) : x.keptBy (.next s) ↔ s.anchor = x :=
  ⟨fun h => h s rfl, fun h _ e => by cases e; exact h⟩
@[simp] theorem Anchor.keptBy_fault (x : Anchor) (m : Fault) : x.keptBy (.fault m) ↔ True :=
  ⟨fun _ => trivial, fun _ _ e => by cases e⟩
@[simp] theorem Anchor.keptBy_ite (x : Anchor) (c : Prop) [Decidable c] (a b : Host.Outcome State Fault Refusal) :
    x.keptBy (if c then a else b) ↔ if c then x.keptBy a else x.keptBy b := by split <;> rfl

/-! Control flow. -/

theorem exec_control_keeps (s : State) (g : GroupRef) (u : Fields) :
    ∀ op ∈ [
      execBra, execBri, execRet, execReconv, execExit, execNop],
      s.anchor.keptBy (op g u s) := by
  simp [
    execBra, execBri, execRet, execReconv, execExit, execNop]

theorem execCall_keeps (s : State) (g : GroupRef) (u : Fields) : s.anchor.keptBy (execCall g u s) := by
  simp only [execCall, Anchor.keptBy_next]
  refine State.anchor_issue ?_
  split
  · simp
  · next h => simpa using State.anchor_pushEntry h

theorem execReservedClassUnit_keeps (s : State) (g : GroupRef) (u : Fields) (unlisted : Bool) :
    s.anchor.keptBy (execReservedClassUnit g u unlisted s) := by
  simp [execReservedClassUnit]

/-! Scalar instructions. -/

theorem exec_scalar_keeps (s : State) (g : GroupRef) (u : Fields) :
    ∀ op ∈ [
      execAdd, execSub, execMul, execMulhiU, execMulhiS, execAnd, execOr, execXor, execShl, execShr, execSar, execMinS, execMaxS, execMinU,
      execMaxU, execScmp, execMov, execMovi, execT2u],
      s.anchor.keptBy (op g u s) := by
  simp [
    execAdd, execSub, execMul, execMulhiU, execMulhiS, execAnd, execOr, execXor, execShl, execShr, execSar, execMinS, execMaxS, execMinU,
    execMaxU, execScmp, execMov, execMovi, execT2u]

/-! Loads, stores, atomics, reductions and line operations. -/

theorem exec_lsu_keeps (s : State) (g : GroupRef) (u : Fields) :
    ∀ op ∈ [
      execAtom, execAtomCas, execCpref, execCflush, execCinv, execCdisc, execRedAdd, execRedMax, execRedMin],
      s.anchor.keptBy (op g u s) := by
  simp [
    execAtom, execAtomCas, execCpref, execCflush, execCinv, execCdisc, execRedAdd, execRedMax, execRedMin]

theorem execLdk_keeps (s : State) (g : GroupRef) (u : Fields) : s.anchor.keptBy (execLdk g u s) := by
  simp only [execLdk, Anchor.keptBy_next]
  refine State.anchor_onceIssue ?_
  split
  · simp
  · split
    · simp
    · split <;> simp

theorem execLd_keeps (s : State) (g : GroupRef) (u : Fields) : s.anchor.keptBy (execLd g u s) := by
  simp only [execLd, Anchor.keptBy_next]
  refine State.anchor_issue ?_
  split <;> next h => simp [State.anchor_of_snd (s.anchor_accesses _ _ _ _) h]

theorem execLdt_keeps (s : State) (g : GroupRef) (u : Fields) : s.anchor.keptBy (execLdt g u s) := by
  simp only [execLdt, Anchor.keptBy_next]
  refine State.anchor_issue ?_
  split <;> simp

theorem execSt_keeps (s : State) (g : GroupRef) (u : Fields) : s.anchor.keptBy (execSt g u s) := by
  simp only [execSt, Anchor.keptBy_next]
  refine State.anchor_issue ?_
  split <;> next h => simp [State.anchor_of_snd (s.anchor_accesses _ _ _ _) h]

theorem execStt_keeps (s : State) (g : GroupRef) (u : Fields) : s.anchor.keptBy (execStt g u s) := by
  simp only [execStt, Anchor.keptBy_next]
  refine State.anchor_issue ?_
  split <;> simp

theorem execLdres_keeps (s : State) (g : GroupRef) (u : Fields) : s.anchor.keptBy (execLdres g u s) := by
  simp only [execLdres, Anchor.keptBy_next]
  refine State.anchor_onceIssue ?_
  split <;> next h => simp [State.anchor_of_snd (s.anchor_uniformAccess _ _ _) h]

theorem execStcond_keeps (s : State) (g : GroupRef) (u : Fields) : s.anchor.keptBy (execStcond g u s) := by
  simp only [execStcond, Anchor.keptBy_next]
  refine State.anchor_onceIssue ?_
  split <;> next h => simp [State.anchor_of_snd (s.anchor_uniformAccess _ _ _) h]

/-! Vector integer instructions. -/

theorem exec_vectorInt_keeps (s : State) (g : GroupRef) (u : Fields) :
    ∀ op ∈ [
      execIadd, execIsub, execImul, execImulhiU, execImulhiS, execImula, execVAnd, execVOr, execVXor, execVShl, execVShr, execVSar,
      execIminS, execImaxS, execIminU, execImaxU, execIcmp, execPick, execIaddP16, execIsubP16, execBitcnt, execClz, execVMov, execXlane,
      execBcast, execTally, execGred],
      s.anchor.keptBy (op g u s) := by
  simp [
    execIadd, execIsub, execImul, execImulhiU, execImulhiS, execImula, execVAnd, execVOr, execVXor, execVShl, execVShr, execVSar,
    execIminS, execImaxS, execIminU, execImaxU, execIcmp, execPick, execIaddP16, execIsubP16, execBitcnt, execClz, execVMov, execXlane,
    execBcast, execTally, execGred]

/-! Vector floating point. -/

theorem exec_vectorFloat_keeps (s : State) (g : GroupRef) (u : Fields) :
    ∀ op ∈ [
      execFadd, execFsub, execFmul, execFmula, execFmin, execFmax, execFcmp, execFabs, execFneg, execFrcp, execFsqrt, execFrsq, execFexp2,
      execFlog2, execPmula2, execPadd2, execPmul2, execGredf],
      s.anchor.keptBy (op g u s) := by
  simp [
    execFadd, execFsub, execFmul, execFmula, execFmin, execFmax, execFcmp, execFabs, execFneg, execFrcp, execFsqrt, execFrsq, execFexp2,
    execFlog2, execPmula2, execPadd2, execPmul2, execGredf]

/-! Conversions. -/

theorem exec_convert_keeps (s : State) (g : GroupRef) (u : Fields) :
    ∀ op ∈ [
      execCvt, execCvtPk2, execCvtIns, execUnpk],
      s.anchor.keptBy (op g u s) := by
  simp [
    execCvt, execCvtPk2, execCvtIns, execUnpk]

/-! The matrix engine. -/

theorem exec_matrix_keeps (s : State) (g : GroupRef) (u : Fields) :
    ∀ op ∈ [
      execMloadp, execMstream, execMdrain],
      s.anchor.keptBy (op g u s) := by
  simp [
    execMloadp, execMstream, execMdrain]

theorem execMatrixLoadStart_keeps (s : State) (c : CoreIdx) :
    s.anchor.keptBy (execMatrixLoadStart c s) := by
  simp only [execMatrixLoadStart, Anchor.keptBy_next]
  repeat' split
  all_goals simp

theorem execMatrixLoadComplete_keeps (s : State) (c : CoreIdx) :
    s.anchor.keptBy (execMatrixLoadComplete c s) := by
  simp only [execMatrixLoadComplete, Anchor.keptBy_next]
  repeat' split
  all_goals simp

theorem execMatrixStreamStart_keeps (s : State) (c : CoreIdx) :
    s.anchor.keptBy (execMatrixStreamStart c s) := by
  simp only [execMatrixStreamStart, Anchor.keptBy_next]
  repeat' split
  all_goals simp

theorem execMatrixStreamComplete_keeps (s : State) (c : CoreIdx) :
    s.anchor.keptBy (execMatrixStreamComplete c s) := by
  simp only [execMatrixStreamComplete, Anchor.keptBy_next]
  repeat' split
  all_goals simp

theorem execMatrixDrainComplete_keeps (s : State) (c : CoreIdx) :
    s.anchor.keptBy (execMatrixDrainComplete c s) := by
  simp only [execMatrixDrainComplete, Anchor.keptBy_next]
  repeat' split
  all_goals simp

/-! The DMA engine. -/

theorem execDmaIssue_keeps (s : State) (g : GroupRef) (u : Fields) : s.anchor.keptBy (execDmaIssue g u s) := by
  simp only [execDmaIssue, Anchor.keptBy_next]
  refine State.anchor_onceIssue ?_
  split
  · simp
  · split
    · simp
    · split <;> simp

theorem exec_dma_keeps (s : State) (c : CoreIdx) (i0 : Fin 16) :
    ∀ op ∈ [
      execDmaCopy, execDmaFill, execDmaPrefetch, execDmaFlush, execDmaInvalidate, execDmaDiscard],
      s.anchor.keptBy (op c i0 s) := by
  simp [
    execDmaCopy, execDmaFill, execDmaPrefetch, execDmaFlush, execDmaInvalidate, execDmaDiscard]

theorem execDmaDescriptorComplete_keeps (s : State) (c : CoreIdx) (i0 : Fin 16) :
    s.anchor.keptBy (execDmaDescriptorComplete c i0 s) := by
  simp only [execDmaDescriptorComplete, Anchor.keptBy_next]
  repeat' split
  all_goals simp

/-! Tokens, fences and barriers. -/

theorem exec_sync_keeps (s : State) (g : GroupRef) (u : Fields) :
    ∀ op ∈ [
      execFence, execBarGroup, execBarCore, execCntr, execMerr, execRinseSet, execRinseClr],
      s.anchor.keptBy (op g u s) := by
  simp [
    execFence, execBarGroup, execBarCore, execCntr, execMerr, execRinseSet, execRinseClr]

theorem execTokSet_keeps (s : State) (g : GroupRef) (u : Fields) :
    s.anchor.keptBy (execTokSet g u s) := by
  simp only [execTokSet, Anchor.keptBy_next]
  split <;> simp

theorem execTokWait_keeps (s : State) (g : GroupRef) (u : Fields) :
    s.anchor.keptBy (execTokWait g u s) := by
  simp only [execTokWait, Anchor.keptBy_next]
  split <;> simp

theorem execFenceComplete_keeps (s : State) (g : GroupRef) :
    s.anchor.keptBy (execFenceComplete g s) := by
  simp only [execFenceComplete, Anchor.keptBy_next]
  split <;> simp

theorem execTokSetTakesEffect_keeps (s : State) (g : GroupRef) (e : Engine) :
    s.anchor.keptBy (execTokSetTakesEffect g e s) := by
  simp only [execTokSetTakesEffect, Anchor.keptBy_next]
  repeat' split
  all_goals simp

theorem execTokWaitRelease_keeps (s : State) (g : GroupRef) (e : Engine) :
    s.anchor.keptBy (execTokWaitRelease g e s) := by
  simp only [execTokWaitRelease, Anchor.keptBy_next]
  repeat' split
  all_goals simp

theorem execBarrierDeadlock_keeps (s : State) (g : GroupRef) (w : WaitKind) :
    s.anchor.keptBy (execBarrierDeadlock g w s) := by
  simp only [execBarrierDeadlock, Anchor.keptBy_next]
  split <;> simp

/-! The mesh. -/

theorem exec_mesh_keeps (s : State) (g : GroupRef) (u : Fields) :
    ∀ op ∈ [
      execMsend, execMrecv],
      s.anchor.keptBy (op g u s) := by
  simp [
    execMsend, execMrecv]

theorem execMeshQueueWaitDone_keeps (s : State) (g : GroupRef) :
    s.anchor.keptBy (execMeshQueueWaitDone g s) := by
  simp only [execMeshQueueWaitDone, Anchor.keptBy_next]
  split <;> simp

theorem execMeshWaitLimit_keeps (s : State) (g : GroupRef) :
    s.anchor.keptBy (execMeshWaitLimit g s) := by
  simp only [execMeshWaitLimit, Anchor.keptBy_next]
  split <;> simp

theorem execMeshRouterSlot_keeps (s : State) (c : CoreIdx) : s.anchor.keptBy (execMeshRouterSlot c s) := by
  simp only [execMeshRouterSlot, Anchor.keptBy_next]
  split
  · rfl
  · split
    · simp
    · next h => split <;> simpa using State.anchor_slotOutputs h

theorem execMeshStart_keeps (s : State) (d : DieIdx) :
    s.anchor.keptBy (execMeshStart d s) := by
  simp [execMeshStart]

theorem execCrossingFlitArrive_keeps (s : State) (c : CoreIdx) (p : Port) (vc : Fin 4) :
    s.anchor.keptBy (execCrossingFlitArrive c p vc s) := by
  simp only [execCrossingFlitArrive, Anchor.keptBy_next]
  repeat' split
  all_goals simp

/-! Cores and groups. -/

theorem execGroupEnd_keeps (s : State) (g : GroupRef) :
    s.anchor.keptBy (execGroupEnd g s) := by
  simp [execGroupEnd]

theorem exec_cores_keeps (s : State) (c : CoreIdx) :
    ∀ op ∈ [
      execCoreStart, execCoreStop, execCoreTeardown, execCoreClearComplete, execCoreDrainComplete],
      s.anchor.keptBy (op c s) := by
  simp [
    execCoreStart, execCoreStop, execCoreTeardown, execCoreClearComplete, execCoreDrainComplete]

/-! Clearing accesses. -/

theorem exec_counters_cv_keeps (s : State) (c : CoreIdx) (v : Word) :
    ∀ op ∈ [
      execCoreCntClear, execMtxCntClear, execMeshCntClear, execXlatCoreCntClear, execMeshFaultClear, execMeshCtrlWrite],
      s.anchor.keptBy (op c v s) := by
  simp [
    execCoreCntClear, execMtxCntClear, execMeshCntClear, execXlatCoreCntClear, execMeshFaultClear, execMeshCtrlWrite]

theorem exec_counters_hv_keeps (s : State) (h : HalfIdx) (v : Word) :
    ∀ op ∈ [
      execCacheCntClear, execStewCntClear],
      s.anchor.keptBy (op h v s) := by
  simp [
    execCacheCntClear, execStewCntClear]

theorem execMemcCntClear_keeps (s : State) (m : CtrlIdx) (v : Word) :
    s.anchor.keptBy (execMemcCntClear m v s) := by
  simp [execMemcCntClear]

theorem execXlatCntClear_keeps (s : State) (d : DieIdx) (v : Word) :
    s.anchor.keptBy (execXlatCntClear d v s) := by
  simp [execXlatCntClear]

theorem exec_counters_v_keeps (s : State) (v : Word) :
    ∀ op ∈ [
      execSpecCntClear, execHstRefusedClear],
      s.anchor.keptBy (op v s) := by
  simp [
    execSpecCntClear, execHstRefusedClear]

theorem execCoreStackMaxRead_keeps (s : State) (c : CoreIdx) :
    s.anchor.keptBy (execCoreStackMaxRead c s) := by
  simp [execCoreStackMaxRead]

theorem execMissregHwmRead_keeps (s : State) (h : HalfIdx) (b : BankIdx) :
    s.anchor.keptBy (execMissregHwmRead h b s) := by
  simp [execMissregHwmRead]

theorem execEvrDroppedRead_keeps (s : State) (fn : FnIdx) :
    s.anchor.keptBy (execEvrDroppedRead fn s) := by
  simp [execEvrDroppedRead]

theorem execMbxOverrunClear_keeps (s : State) (m : MbxIdx) (v : Word) :
    s.anchor.keptBy (execMbxOverrunClear m v s) := by
  simp [execMbxOverrunClear]

/-! Links and arbiters. -/

theorem execBndCntClear_keeps (s : State) (p : BndPort) (v : Word) :
    s.anchor.keptBy (execBndCntClear p v s) := by
  simp [execBndCntClear]

theorem exec_links_pv_keeps (s : State) (p : ArbId) (v : Word) :
    ∀ op ∈ [
      execArbCtrlClear, execArbWaitLimitWrite, execArbHoldLimitWrite],
      s.anchor.keptBy (op p v s) := by
  simp [
    execArbCtrlClear, execArbWaitLimitWrite, execArbHoldLimitWrite]

theorem exec_links_pr_keeps (s : State) (p : ArbId) (r : Fin 64) :
    ∀ op ∈ [
      execArbCutoffClear, execPortCutoff],
      s.anchor.keptBy (op p r s) := by
  simp [
    execArbCutoffClear, execPortCutoff]

theorem execBundleFlitReceive_keeps (s : State) (b : BundleIdx) (dir : Bool) (seq : BitVec 9) (crcOk : Bool) (ack : Option (BitVec 9)) :
    s.anchor.keptBy (execBundleFlitReceive b dir seq crcOk ack s) := by
  simp [execBundleFlitReceive]

theorem execBundleNak_keeps (s : State) (b : BundleIdx) (dir : Bool) (seq : BitVec 9) :
    s.anchor.keptBy (execBundleNak b dir seq s) := by
  simp [execBundleNak]

theorem execBundleCredit_keeps (s : State) (b : BundleIdx) (dir : Bool) (counts : List Byte) :
    s.anchor.keptBy (execBundleCredit b dir counts s) := by
  simp [execBundleCredit]

theorem execBundleReplayTimeout_keeps (s : State) (b : BundleIdx) (dir : Bool) :
    s.anchor.keptBy (execBundleReplayTimeout b dir s) := by
  simp [execBundleReplayTimeout]

theorem exec_links_b_keeps (s : State) (b : BundleIdx) :
    ∀ op ∈ [
      execBundleRetrain, execBundleLost],
      s.anchor.keptBy (op b s) := by
  simp [
    execBundleRetrain, execBundleLost]

theorem execBundleRetrainDone_keeps (s : State) (b : BundleIdx) (bad : List BadWire) :
    s.anchor.keptBy (execBundleRetrainDone b bad s) := by
  simp [execBundleRetrainDone]

theorem execSeamUe_keeps (s : State) (d : DieIdx) :
    s.anchor.keptBy (execSeamUe d s) := by
  simp [execSeamUe]

/-! Memory and flash controllers. -/

theorem execCacheErrStatusClear_keeps (s : State) (h : HalfIdx) (v : Word) :
    s.anchor.keptBy (execCacheErrStatusClear h v s) := by
  simp [execCacheErrStatusClear]

theorem execMemcErrStatusClear_keeps (s : State) (m : CtrlIdx) (v : Word) :
    s.anchor.keptBy (execMemcErrStatusClear m v s) := by
  simp [execMemcErrStatusClear]

theorem execNeedleRead_keeps (s : State) (rid : Nat) :
    s.anchor.keptBy (execNeedleRead rid s) := by
  simp only [execNeedleRead, Anchor.keptBy_next]
  repeat' split
  all_goals simp

theorem execNeedleBucketIssue_keeps (s : State) (m : CtrlIdx) (bucket : Nat) : s.anchor.keptBy (execNeedleBucketIssue m bucket s) := by
  rw [execNeedleBucketIssue, Anchor.keptBy_next]
  dsimp only
  split
  · rfl
  · rw [State.anchor_settle]
    exact (State.anchor_serves (fun acc r => by simp) _ _).trans (by simp)

theorem execFlashReadComplete_keeps (s : State) (rid : Nat) (badCodewords : BitVec 4) :
    s.anchor.keptBy (execFlashReadComplete rid badCodewords s) := by
  simp only [execFlashReadComplete, Anchor.keptBy_next]
  repeat' split
  all_goals simp

theorem execWasherSector_keeps (s : State) (h : HalfIdx) (sector : Nat) (e : MemErr) :
    s.anchor.keptBy (execWasherSector h sector e s) := by
  simp only [execWasherSector, Anchor.keptBy_next]
  repeat' split
  all_goals simp

/-! Registers. -/

theorem execRegisterWrite_keeps (s : State) (sp : RegSpace) (off : Nat) (data : List Byte) :
    s.anchor.keptBy (execRegisterWrite sp off data s) := by
  simp only [execRegisterWrite]
  repeat' split
  all_goals simp

theorem exec_regs_keeps (s : State) :
    ∀ op ∈ [
      execRegRead, execRegWrite],
      s.anchor.keptBy (op s) := by
  simp [
    execRegRead, execRegWrite]

/-! Homes and replicas. -/

theorem execCacheWaymaskWrite_keeps (s : State) (h : HalfIdx) (p : PartIdx) (v : Word) :
    s.anchor.keptBy (execCacheWaymaskWrite h p v s) := by
  simp [execCacheWaymaskWrite]

theorem execCacheCfgWrite_keeps (s : State) (h : HalfIdx) (v : Word) :
    s.anchor.keptBy (execCacheCfgWrite h v s) := by
  simp [execCacheCfgWrite]

theorem exec_homes_h_keeps (s : State) (h : HalfIdx) :
    ∀ op ∈ [
      execCacheReplicaChangeDone, execSweepComplete],
      s.anchor.keptBy (op h s) := by
  simp [
    execCacheReplicaChangeDone, execSweepComplete]

theorem execCacheSweepStart_keeps (s : State) (h : HalfIdx) (v : DWord) :
    s.anchor.keptBy (execCacheSweepStart h v s) := by
  simp [execCacheSweepStart]

theorem execWriteBufferEntryRelease_keeps (s : State) (c : CoreIdx) (i0 : Fin 32) :
    s.anchor.keptBy (execWriteBufferEntryRelease c i0 s) := by
  simp only [execWriteBufferEntryRelease, Anchor.keptBy_next]
  split <;> simp

theorem execReservationTimeout_keeps (s : State) (g : GroupRef) :
    s.anchor.keptBy (execReservationTimeout g s) := by
  simp only [execReservationTimeout, Anchor.keptBy_next]
  split <;> simp

theorem execHomeLoad_keeps (s : State) (rid : Nat) (e : Ecc) :
    s.anchor.keptBy (execHomeLoad rid e s) := by
  simp only [execHomeLoad, Anchor.keptBy_next]
  repeat' split
  all_goals simp

theorem exec_homes_rid_keeps (s : State) (rid : Nat) :
    ∀ op ∈ [
      execHomeWrite, execHomeAtomic, execHomeReduction, execHomeLdres, execHomeStcond, execHomeDeviceAccess, execHomeRangeLineOp],
      s.anchor.keptBy (op rid s) := by
  simp [
    execHomeWrite, execHomeAtomic, execHomeReduction, execHomeLdres, execHomeStcond, execHomeDeviceAccess, execHomeRangeLineOp]

theorem execReplicaLookup_keeps (s : State) (rid : Nat) :
    s.anchor.keptBy (execReplicaLookup rid s) := by
  simp only [execReplicaLookup, Anchor.keptBy_next]
  repeat' split
  all_goals simp

theorem execForwardReceive_keeps (s : State) (rid : Nat) :
    s.anchor.keptBy (execForwardReceive rid s) := by
  simp only [execForwardReceive, Anchor.keptBy_next]
  repeat' split
  all_goals simp

theorem execForwardMiss_keeps (s : State) (rid : Nat) :
    s.anchor.keptBy (execForwardMiss rid s) := by
  simp only [execForwardMiss, Anchor.keptBy_next]
  repeat' split
  all_goals simp

theorem execSectorsArrive_keeps (s : State) (line : Nat) (e : Ecc) :
    s.anchor.keptBy (execSectorsArrive line e s) := by
  simp only [execSectorsArrive, Anchor.keptBy_next]
  repeat' split
  all_goals simp

theorem execReplicaFillArrive_keeps (s : State) (d : DieIdx) (line : Nat) : s.anchor.keptBy (execReplicaFillArrive d line s) := by
  simp only [execReplicaFillArrive, Anchor.keptBy_next]
  split
  · rfl
  · split
    · rfl
    · refine (State.anchor_settle _).trans ((State.anchor_serves (fun acc n => ?_) _ _).trans ?_)
      · split
        · split <;> simp
        · rfl
      · simp

theorem execReplicaFillAck_keeps (s : State) (d : DieIdx) (line : Nat) :
    s.anchor.keptBy (execReplicaFillAck d line s) := by
  simp only [execReplicaFillAck, Anchor.keptBy_next]
  split <;> simp

theorem execReplicaInvalidate_keeps (s : State) (d : DieIdx) (line : Nat) :
    s.anchor.keptBy (execReplicaInvalidate d line s) := by
  simp only [execReplicaInvalidate, Anchor.keptBy_next]
  repeat' split
  all_goals simp

theorem execInvalidationAck_keeps (s : State) (d : DieIdx) (line : Nat) :
    s.anchor.keptBy (execInvalidationAck d line s) := by
  simp only [execInvalidationAck, Anchor.keptBy_next]
  repeat' split
  all_goals simp

theorem execEvictionNotice_keeps (s : State) (d : DieIdx) (line : Nat) :
    s.anchor.keptBy (execEvictionNotice d line s) := by
  simp only [execEvictionNotice, Anchor.keptBy_next]
  split <;> simp

/-! Translation. -/

theorem execWalkComplete_keeps (s : State) (row : Nat) (entries : List DWord) (casOk : Bool) :
    s.anchor.keptBy (execWalkComplete row entries casOk s) := by
  simp only [execWalkComplete]
  repeat' split
  all_goals simp

theorem execAtsCompletion_keeps (s : State) (row : Nat) (ok r w u : Bool) (size : Nat) (addr : DWord) :
    s.anchor.keptBy (execAtsCompletion row ok r w u size addr s) := by
  simp only [execAtsCompletion, Anchor.keptBy_next]
  repeat' split
  all_goals simp

theorem execPageRequestSend_keeps (s : State) (row : Nat) :
    s.anchor.keptBy (execPageRequestSend row s) := by
  simp only [execPageRequestSend, Anchor.keptBy_next]
  repeat' split
  all_goals simp

theorem execPriTimeout_keeps (s : State) (row : Nat) :
    s.anchor.keptBy (execPriTimeout row s) := by
  simp [execPriTimeout]

theorem execPriResponse_keeps (s : State) (fn : FnIdx) (prgi : Nat) (code : PrgCode) :
    s.anchor.keptBy (execPriResponse fn prgi code s) := by
  simp only [execPriResponse, Anchor.keptBy_next]
  repeat' split
  all_goals simp

theorem execAtsInvalidateRequest_keeps (s : State) (fn : FnIdx) (pasid : BitVec 20) (global : Bool) (addr : DWord) (size : Nat) :
    s.anchor.keptBy (execAtsInvalidateRequest fn pasid global addr size s) := by
  simp [execAtsInvalidateRequest]

theorem execAtsInvalidateComplete_keeps (s : State) (fn : FnIdx) :
    s.anchor.keptBy (execAtsInvalidateComplete fn s) := by
  simp only [execAtsInvalidateComplete, Anchor.keptBy_next]
  split <;> simp

theorem execTargetTimeout_keeps (s : State) (t : TimeoutRef) :
    s.anchor.keptBy (execTargetTimeout t s) := by
  simp only [execTargetTimeout, Anchor.keptBy_next]
  repeat' split
  all_goals simp

/-! Mailboxes. -/

theorem execMbxDoorbell_keeps (s : State) (m : MbxIdx) (v : Word) :
    s.anchor.keptBy (execMbxDoorbell m v s) := by
  simp [execMbxDoorbell]

theorem execCommandAccept_keeps (s : State) :
    s.anchor.keptBy (execCommandAccept s) := by
  simp only [execCommandAccept, Anchor.keptBy_next]
  repeat' split
  all_goals simp

/-! Settings and queries. -/

theorem exec_settings_keeps (s : State) :
    ∀ op ∈ [
      execIdentify, execGetStatus, execEcho, execMeridianSource, execMeridianRead, execPowerLimit, execRinseRamp, execPstepRange,
      execPowerQuery, execUnpair, execMirrorSet, execEpochClose, execTakeoverStatus],
      s.anchor.keptBy (op s) := by
  simp [
    execIdentify, execGetStatus, execEcho, execMeridianSource, execMeridianRead, execPowerLimit, execRinseRamp, execPstepRange,
    execPowerQuery, execUnpair, execMirrorSet, execEpochClose, execTakeoverStatus]

theorem execAlmanacQuery_keeps (s : State) :
    s.anchor.keptBy (execAlmanacQuery s) := by
  simp only [execAlmanacQuery, Anchor.keptBy_next]
  refine State.anchor_run fun c => Cmd.check_keeps ?_
  repeat' split
  all_goals simp

theorem execPair_keeps (s : State) : s.anchor.keptBy (execPair s) := by
  simp only [execPair, Anchor.keptBy_next]
  exact State.anchor_runThen (by simp) fun c t => by split <;> simp

theorem execRinseEnvelope_keeps (s : State) (work capacity : Nat) :
    s.anchor.keptBy (execRinseEnvelope work capacity s) := by
  simp [execRinseEnvelope]

/-! Partitions. -/

theorem exec_parts_keeps (s : State) :
    ∀ op ∈ [
      execPartReset, execPartDestroy, execPfFlr, execHotReset, execVfEnableClear],
      s.anchor.keptBy (op s) := by
  simp [
    execPartReset, execPartDestroy, execPfFlr, execHotReset, execVfEnableClear]

theorem execPartQuiesce_keeps (s : State) : s.anchor.keptBy (execPartQuiesce s) := by
  simp only [execPartQuiesce, Anchor.keptBy_next]
  exact State.anchor_runThen (by simp) fun c t => by split <;> simp

theorem execPartResume_keeps (s : State) :
    s.anchor.keptBy (execPartResume s) := by
  simp only [execPartResume, Anchor.keptBy_next]
  refine State.anchor_run fun c => Cmd.check_keeps ?_
  repeat' split
  all_goals simp

theorem execPartQuery_keeps (s : State) :
    s.anchor.keptBy (execPartQuery s) := by
  simp only [execPartQuery, Anchor.keptBy_next]
  refine State.anchor_run fun c => Cmd.check_keeps ?_
  repeat' split
  all_goals simp

theorem execPartQuiesceComplete_keeps (s : State) (p : PartIdx) :
    s.anchor.keptBy (execPartQuiesceComplete p s) := by
  simp only [execPartQuiesceComplete, Anchor.keptBy_next]
  split <;> simp

theorem execPartResetComplete_keeps (s : State) (p : PartIdx) :
    s.anchor.keptBy (execPartResetComplete p s) := by
  simp only [execPartResetComplete, Anchor.keptBy_next]
  split <;> simp

theorem execVfFlr_keeps (s : State) (v : Fin 64) :
    s.anchor.keptBy (execVfFlr v s) := by
  simp [execVfFlr]

/-! Memory commands. -/

theorem exec_memCmds_keeps (s : State) :
    ∀ op ∈ [
      execCtxCreate, execCtxDestroy, execCtxSetWatchdog, execRegionSet, execGranuleTag, execShareGroupSet, execFormatSet, execPin,
      execUnpin, execReloadAdd, execReloadRemove, execFlashTrim, execSetTimeouts, execCacheReplicaSet, execWashPeriodSet],
      s.anchor.keptBy (op s) := by
  simp [
    execCtxCreate, execCtxDestroy, execCtxSetWatchdog, execRegionSet, execGranuleTag, execShareGroupSet, execFormatSet, execPin, execUnpin,
    execReloadAdd, execReloadRemove, execFlashTrim, execSetTimeouts, execCacheReplicaSet, execWashPeriodSet]

theorem execPinComplete_keeps (s : State) :
    s.anchor.keptBy (execPinComplete s) := by
  simp only [execPinComplete, Anchor.keptBy_next]
  split <;> simp

theorem execInvalidate_keeps (s : State) :
    s.anchor.keptBy (execInvalidate s) := by
  simp only [execInvalidate, Anchor.keptBy_next]
  split <;> simp

theorem execRegionSetComplete_keeps (s : State) :
    s.anchor.keptBy (execRegionSetComplete s) := by
  simp only [execRegionSetComplete, Anchor.keptBy_next]
  split <;> simp

/-! Queues. -/

theorem exec_queueOps_keeps (s : State) :
    ∀ op ∈ [
      execQueueCreate, execQueueDestroy, execQueueQuery, execCringCreate],
      s.anchor.keptBy (op s) := by
  simp [
    execQueueCreate, execQueueDestroy, execQueueQuery, execCringCreate]

theorem execQueueHalt_keeps (s : State) : s.anchor.keptBy (execQueueHalt s) := by
  simp only [execQueueHalt, Anchor.keptBy_next]
  exact State.anchor_runThen (by simp) fun c t => by split <;> simp

theorem execQueueResume_keeps (s : State) :
    s.anchor.keptBy (execQueueResume s) := by
  simp only [execQueueResume, Anchor.keptBy_next]
  refine State.anchor_run fun c => Cmd.check_keeps ?_
  repeat' split
  all_goals simp

theorem execUndeliverableDrain_keeps (s : State) :
    s.anchor.keptBy (execUndeliverableDrain s) := by
  simp only [execUndeliverableDrain, Anchor.keptBy_next]
  refine State.anchor_run fun c => Cmd.check_keeps ?_
  repeat' split
  all_goals simp

theorem execAbort_keeps (s : State) : s.anchor.keptBy (execAbort s) := by
  simp only [execAbort, Anchor.keptBy_next]
  refine State.anchor_run fun c => ?_
  split <;> simp

theorem exec_queues_fnv_keeps (s : State) (fn : FnIdx) (v : Word) :
    ∀ op ∈ [
      execEvrCtrlWrite, execEvrHeadWrite],
      s.anchor.keptBy (op fn v s) := by
  simp [
    execEvrCtrlWrite, execEvrHeadWrite]

theorem execQdbTailWrite_keeps (s : State) (q : QueueIdx) (v : Word) :
    s.anchor.keptBy (execQdbTailWrite q v s) := by
  simp [execQdbTailWrite]

/-! Kernels and graphs. -/

theorem exec_kernels_keeps (s : State) :
    ∀ op ∈ [
      execKernelRegister, execKernelRelease, execGraphStore, execGraphPatch],
      s.anchor.keptBy (op s) := by
  simp [
    execKernelRegister, execKernelRelease, execGraphStore, execGraphPatch]

theorem execGraphRelease_keeps (s : State) :
    s.anchor.keptBy (execGraphRelease s) := by
  simp only [execGraphRelease, Anchor.keptBy_next]
  refine State.anchor_run fun c => Cmd.check_keeps ?_
  repeat' split
  all_goals simp

theorem execKernelRegisterComplete_keeps (s : State) (p : ImagePlace) :
    s.anchor.keptBy (execKernelRegisterComplete p s) := by
  simp only [execKernelRegisterComplete, Anchor.keptBy_next]
  repeat' split
  all_goals simp

theorem execGraphCheckComplete_keeps (s : State) (image : ReadResult) :
    s.anchor.keptBy (execGraphCheckComplete image s) := by
  simp only [execGraphCheckComplete, Anchor.keptBy_next]
  repeat' split
  all_goals simp

/-! Ends of launches. -/

theorem execAbortStopTimeout_keeps (s : State) (launch : DWord) :
    s.anchor.keptBy (execAbortStopTimeout launch s) := by
  simp only [execAbortStopTimeout, Anchor.keptBy_next]
  repeat' split
  all_goals simp

theorem execTimeLimitExpiry_keeps (s : State) (launch : DWord) :
    s.anchor.keptBy (execTimeLimitExpiry launch s) := by
  simp only [execTimeLimitExpiry, Anchor.keptBy_next]
  split <;> simp

theorem execLaunchCommit_keeps (s : State) (launch : DWord) (signal record : ReadResult) :
    s.anchor.keptBy (execLaunchCommit launch signal record s) := by
  simp only [execLaunchCommit]
  repeat' split
  all_goals simp

theorem execCompletionRingRecheck_keeps (s : State) (q : QueueIdx) (headWord : ReadResult) :
    s.anchor.keptBy (execCompletionRingRecheck q headWord s) := by
  simp only [execCompletionRingRecheck]
  repeat' split
  all_goals simp

/-! Firmware and records. -/

theorem exec_firmware_keeps (s : State) :
    ∀ op ∈ [
      execFwStage, execFwStageClaimTimeout, execFwCommit, execBoundQuery, execAuditRead, execLogRead, execTelemetryRead, execArrayTest],
      s.anchor.keptBy (op s) := by
  simp [
    execFwStage, execFwStageClaimTimeout, execFwCommit, execBoundQuery, execAuditRead, execLogRead, execTelemetryRead, execArrayTest]

theorem execSecFloorRaise_keeps (s : State) :
    s.anchor.keptBy (execSecFloorRaise s) := by
  simp only [execSecFloorRaise, Anchor.keptBy_next]
  exact State.anchor_run fun c => by simp [Cmd.check_keeps]

theorem execPairIdSet_keeps (s : State) :
    s.anchor.keptBy (execPairIdSet s) := by
  simp only [execPairIdSet, Anchor.keptBy_next]
  exact State.anchor_run fun c => by simp [Cmd.check_keeps]

theorem execDarnAmend_keeps (s : State) :
    s.anchor.keptBy (execDarnAmend s) := by
  simp only [execDarnAmend, Anchor.keptBy_next]
  exact State.anchor_run fun c => by simp [Cmd.check_keeps]

theorem execPatchAmend_keeps (s : State) :
    s.anchor.keptBy (execPatchAmend s) := by
  simp only [execPatchAmend, Anchor.keptBy_next]
  exact State.anchor_run fun c => by simp [Cmd.check_keeps]

theorem execMgmtIdLock_keeps (s : State) : s.anchor.keptBy (execMgmtIdLock s) := by
  simp only [execMgmtIdLock, Anchor.keptBy_next]
  exact State.anchor_runThen (by simp) fun c t => by split <;> simp

theorem execLogFlush_keeps (s : State) : s.anchor.keptBy (execLogFlush s) := by
  have flushed : ∀ l, ({ s with log := l } : State).anchor = s.anchor := fun _ => rfl
  rw [execLogFlush, Anchor.keptBy_next]
  split
  · rfl
  · simp only []
    rw [State.anchor_ite, State.anchor_warn, flushed, ite_self]

theorem execArrayTestComplete_keeps (s : State) (failing : List (Nat × Nat)) :
    s.anchor.keptBy (execArrayTestComplete failing s) := by
  simp only [execArrayTestComplete, Anchor.keptBy_next]
  split <;> simp

/-! Consumed launches. -/

theorem execLaunchConsume_keeps (s : State) (q : QueueIdx) (desc : ReadResult) :
    s.anchor.keptBy (execLaunchConsume q desc s) := by
  simp only [execLaunchConsume]
  repeat' split
  all_goals simp

theorem execSemaphorePoll_keeps (s : State) (launch : DWord) (word : ReadResult) :
    s.anchor.keptBy (execSemaphorePoll launch word s) := by
  simp only [execSemaphorePoll]
  repeat' split
  all_goals simp

/-! Starts of launches. -/

theorem execLaunchStart_keeps (s : State) (launch : DWord) :
    s.anchor.keptBy (execLaunchStart launch s) := by
  simp only [execLaunchStart, Anchor.keptBy_next]
  split <;> simp

theorem execGraphLayerStart_keeps (s : State) (launch : DWord) :
    s.anchor.keptBy (execGraphLayerStart launch s) := by
  simp only [execGraphLayerStart, Anchor.keptBy_next]
  split <;> simp

theorem execTransitGuard_keeps (s : State) (launch : DWord) :
    s.anchor.keptBy (execTransitGuard launch s) := by
  simp only [execTransitGuard, Anchor.keptBy_next]
  split <;> simp

theorem execTransitStart_keeps (s : State) (launch : DWord) :
    s.anchor.keptBy (execTransitStart launch s) := by
  simp only [execTransitStart, Anchor.keptBy_next]
  split <;> simp

theorem execPrerampLaunchStart_keeps (s : State) (launch : DWord) :
    s.anchor.keptBy (execPrerampLaunchStart launch s) := by
  simp only [execPrerampLaunchStart, Anchor.keptBy_next]
  split <;> simp

theorem execBeTurnExpiry_keeps (s : State) (p : PartIdx) :
    s.anchor.keptBy (execBeTurnExpiry p s) := by
  simp only [execBeTurnExpiry, Anchor.keptBy_next]
  repeat' split
  all_goals simp

/-! Meridian time. -/

theorem exec_time_keeps (s : State) :
    ∀ op ∈ [
      execMeridianBeat, execMeridianMeasurementLoss],
      s.anchor.keptBy (op s) := by
  simp [
    execMeridianBeat, execMeridianMeasurementLoss]

theorem execPtpMeasurement_keeps (s : State) (offset : Int) (arb : Bool) :
    s.anchor.keptBy (execPtpMeasurement offset arb s) := by
  simp [execPtpMeasurement]

theorem execMeridianBeatLoss_keeps (s : State) (d : DieIdx) :
    s.anchor.keptBy (execMeridianBeatLoss d s) := by
  simp [execMeridianBeatLoss]

/-! Power. -/

theorem execRegulatorSample_keeps (s : State) (watts vinMv iinMa : Nat) :
    s.anchor.keptBy (execRegulatorSample watts vinMv iinMa s) := by
  simp [execRegulatorSample]

theorem execCapLoop_keeps (s : State) :
    s.anchor.keptBy (execCapLoop s) := by
  simp [execCapLoop]

theorem execCapUnitChange_keeps (s : State) :
    s.anchor.keptBy (execCapUnitChange s) := by
  simp only [execCapUnitChange, Anchor.keptBy_next]
  split <;> simp

theorem exec_power_keeps (s : State) (h : HalfIdx) :
    ∀ op ∈ [
      execPstepVoltageArrived, execDroopDeassert, execThrottleStep],
      s.anchor.keptBy (op h s) := by
  simp [
    execPstepVoltageArrived, execDroopDeassert, execThrottleStep]

theorem execDroopAssert_keeps (s : State) (h : HalfIdx) (overBudget : Bool) :
    s.anchor.keptBy (execDroopAssert h overBudget s) := by
  simp [execDroopAssert]

theorem execPstepResume_keeps (s : State) (h : HalfIdx) (delayNs : Nat) :
    s.anchor.keptBy (execPstepResume h delayNs s) := by
  simp [execPstepResume]

theorem execThermalSample_keeps (s : State) (l : SensorLoc) (temps : List (BitVec 16)) :
    s.anchor.keptBy (execThermalSample l temps s) := by
  simp only [execThermalSample]
  split <;> simp

/-! The twin. -/

theorem execSpecFlitReceive_keeps (s : State) (seq : BitVec 16) (crcOk : Bool) (ack : Option (BitVec 16)) :
    s.anchor.keptBy (execSpecFlitReceive seq crcOk ack s) := by
  simp [execSpecFlitReceive]

theorem execSpecNak_keeps (s : State) (seq : BitVec 16) :
    s.anchor.keptBy (execSpecNak seq s) := by
  simp [execSpecNak]

theorem exec_speculum_keeps (s : State) :
    ∀ op ∈ [
      execSpecReplayTimeout, execHeartbeatSend, execTwinLost, execUnpairNotice],
      s.anchor.keptBy (op s) := by
  simp [
    execSpecReplayTimeout, execHeartbeatSend, execTwinLost, execUnpairNotice]

theorem execSpecLaneFail_keeps (s : State) (lane : Fin 18) :
    s.anchor.keptBy (execSpecLaneFail lane s) := by
  simp [execSpecLaneFail]

theorem execHeartbeatReceive_keeps (s : State) (peerState : Fin 5) (peerSource : Fin 3) (offset : Int) :
    s.anchor.keptBy (execHeartbeatReceive peerState peerSource offset s) := by
  simp [execHeartbeatReceive]

theorem execPairTrainingDone_keeps (s : State) (rate : Fin 3) :
    s.anchor.keptBy (execPairTrainingDone rate s) := by
  simp [execPairTrainingDone]

theorem execPairTrainingRetry_keeps (s : State) (tenSeconds : Bool) :
    s.anchor.keptBy (execPairTrainingRetry tenSeconds s) := by
  simp [execPairTrainingRetry]

theorem execPairingMessage_keeps (s : State) (chainOk keyOk versionOk signatureOk peerAccepts : Bool) (secver : Byte) (serial : List Byte) :
    s.anchor.keptBy (execPairingMessage chainOk keyOk versionOk signatureOk peerAccepts secver serial s) := by
  rw [execPairingMessage, Anchor.keptBy_next]
  split
  · rfl
  · extract_lets failing paired u s1 ws f v w
    split
    · simp [ws, s1]
    · have e : w.anchor = s.anchor := by simp [w, v, f]
      exact (State.anchor_endPair _ _).trans e

theorem execWindowOffer_keeps (s : State) (w : WinIdx) (mode : Fin 3) (lag start len : Nat) :
    s.anchor.keptBy (execWindowOffer w mode lag start len s) := by
  simp [execWindowOffer]

theorem execEpochWriteRecord_keeps (s : State) (w : WinIdx) (line : Nat) (data : List (Nat × Byte)) :
    s.anchor.keptBy (execEpochWriteRecord w line data s) := by
  simp [execEpochWriteRecord]

theorem execSyncWriteRecord_keeps (s : State) (w : WinIdx) (tag : Word) (line : Nat) (data : List (Nat × Byte)) :
    s.anchor.keptBy (execSyncWriteRecord w tag line data s) := by
  simp [execSyncWriteRecord]

theorem execSyncAck_keeps (s : State) (tag : Word) :
    s.anchor.keptBy (execSyncAck tag s) := by
  simp only [execSyncAck, Anchor.keptBy_next]
  repeat' split
  all_goals simp

theorem execEpochCloseRecord_keeps (s : State) (w : WinIdx) (epoch : Nat) :
    s.anchor.keptBy (execEpochCloseRecord w epoch s) := by
  simp [execEpochCloseRecord]

theorem execEpochApplied_keeps (s : State) (w : WinIdx) (epoch : Nat) (withinLag : Bool) :
    s.anchor.keptBy (execEpochApplied w epoch withinLag s) := by
  simp only [execEpochApplied, Anchor.keptBy_next]
  split <;> simp

theorem execReloadRequest_keeps (s : State) (tag : Word) (addr : Nat) :
    s.anchor.keptBy (execReloadRequest tag addr s) := by
  simp [execReloadRequest]

/-! The host attachment. -/

theorem execHostConfigRequest_keeps (s : State) (fn : FnIdx) (w : Option CfgWrite) :
    s.anchor.keptBy (execHostConfigRequest fn w s) := by
  simp only [execHostConfigRequest, Anchor.keptBy_next]
  repeat' split
  all_goals simp

theorem execBar4Read_keeps (s : State) (fn : FnIdx) (off len : Nat) :
    s.anchor.keptBy (execBar4Read fn off len s) := by
  simp only [execBar4Read]
  repeat' split
  all_goals simp

theorem execBar4Write_keeps (s : State) (fn : FnIdx) (off : Nat) (data : List Byte) (poisoned relaxed : Bool) :
    s.anchor.keptBy (execBar4Write fn off data poisoned relaxed s) := by
  simp only [execBar4Write]
  repeat' split
  all_goals simp

theorem execBar4AtomicOp_keeps (s : State) (fn : FnIdx) (off : Nat) :
    s.anchor.keptBy (execBar4AtomicOp fn off s) := by
  simp [execBar4AtomicOp]

theorem execHstApertureBaseWrite_keeps (s : State) (v : DWord) :
    s.anchor.keptBy (execHstApertureBaseWrite v s) := by
  simp [execHstApertureBaseWrite]

theorem execHostCompletion_keeps (s : State) (rid : Nat) (r : CplStatus) :
    s.anchor.keptBy (execHostCompletion rid r s) := by
  simp only [execHostCompletion]
  repeat' split
  all_goals simp

theorem execHostLinkTrain_keeps (s : State) (rate : Fin 8) (lanes : BitVec 16) (retries : Nat) :
    s.anchor.keptBy (execHostLinkTrain rate lanes retries s) := by
  simp [execHostLinkTrain]

theorem execMsixUnmask_keeps (s : State) (fn : FnIdx) (vector : Nat) :
    s.anchor.keptBy (execMsixUnmask fn vector s) := by
  simp [execMsixUnmask]

/-! The management port. -/

theorem execSpdmRequest_keeps (s : State) (t : SpdmPort) (code : Byte) (body : List Byte) :
    s.anchor.keptBy (execSpdmRequest t code body s) := by
  simp [execSpdmRequest]

theorem execHello_keeps (s : State) (body : List Byte) :
    s.anchor.keptBy (execHello body s) := by
  simp [execHello]

theorem exec_mgmt_keeps (s : State) (f : MgmtFrame) :
    ∀ op ∈ [
      execCommand, execClose],
      s.anchor.keptBy (op f s) := by
  simp [
    execCommand, execClose]

theorem execProve_keeps (s : State) (f : MgmtFrame) :
    s.anchor.keptBy (execProve f s) := by
  simp only [execProve, Anchor.keptBy_next]
  split <;> simp

theorem execEventAck_keeps (s : State) (f : MgmtFrame) : s.anchor.keptBy (execEventAck f s) := by
  simp only [execEventAck, Anchor.keptBy_next]
  exact State.anchor_onFrame fun _ => rfl

theorem execEventResend_keeps (s : State) (number : Nat) :
    s.anchor.keptBy (execEventResend number s) := by
  simp [execEventResend]

theorem execMgmtSessionIdle_keeps (s : State) :
    s.anchor.keptBy (execMgmtSessionIdle s) := by
  simp only [execMgmtSessionIdle, Anchor.keptBy_next]
  split <;> simp

theorem execManagementPortLink_keeps (s : State) (up : Bool) :
    s.anchor.keptBy (execManagementPortLink up s) := by
  simp [execManagementPortLink]

/-! Flash wear. -/

theorem execBadBlockRetired_keeps (s : State) (k : HubIdx) (channel : Fin 16) (sparePct wearPct : Byte) (exhausted : Bool) :
    s.anchor.keptBy (execBadBlockRetired k channel sparePct wearPct exhausted s) := by
  simp [execBadBlockRetired]

/-! Every command. -/

/-- The commands that may move the anchor: they change rectangles, write memory or flash behind the homes, or act on power. -/
def movesAnchor : Instr → Bool
  | .memcRequest _ _ | .menderApply _ | .flashWriteAccept _ | .repairComplete _ _ | .partCreate | .partResize | .partResizeTakesEffect _
  | .partDestroyComplete _ | .fwCommitComplete _ | .warmReset _ _ | .granuleTagComplete | .flashTrimComplete | .thermalTrip _ _ _
  | .reloadData _ _ | .standbyPowerGood _ _ | .pwrEnAssert _ _ | .pwrEnDeassert | .standbyPowerLost | .inputUndervoltage _
  | .inputOvervoltage | .mainRegulatorFault | .inputWithinRange | .mainPowerOff | .thermTripRearm => true
  | _ => false

/-- Every other command keeps the anchor. -/
theorem exec_keeps_anchor {i : Instr} (hi : movesAnchor i = false) (s : State) : s.anchor.keptBy (exec i s) := by
  cases i with
  | bra g u => exact exec_control_keeps s g u execBra (by simp)
  | bri g u => exact exec_control_keeps s g u execBri (by simp)
  | ret g u => exact exec_control_keeps s g u execRet (by simp)
  | reconv g u => exact exec_control_keeps s g u execReconv (by simp)
  | exit g u => exact exec_control_keeps s g u execExit (by simp)
  | nop g u => exact exec_control_keeps s g u execNop (by simp)
  | call g u => exact execCall_keeps s g u
  | reservedClassUnit g u unlisted => exact execReservedClassUnit_keeps s g u unlisted
  | add g u => exact exec_scalar_keeps s g u execAdd (by simp)
  | sub g u => exact exec_scalar_keeps s g u execSub (by simp)
  | mul g u => exact exec_scalar_keeps s g u execMul (by simp)
  | mulhiU g u => exact exec_scalar_keeps s g u execMulhiU (by simp)
  | mulhiS g u => exact exec_scalar_keeps s g u execMulhiS (by simp)
  | and g u => exact exec_scalar_keeps s g u execAnd (by simp)
  | or g u => exact exec_scalar_keeps s g u execOr (by simp)
  | xor g u => exact exec_scalar_keeps s g u execXor (by simp)
  | shl g u => exact exec_scalar_keeps s g u execShl (by simp)
  | shr g u => exact exec_scalar_keeps s g u execShr (by simp)
  | sar g u => exact exec_scalar_keeps s g u execSar (by simp)
  | minS g u => exact exec_scalar_keeps s g u execMinS (by simp)
  | maxS g u => exact exec_scalar_keeps s g u execMaxS (by simp)
  | minU g u => exact exec_scalar_keeps s g u execMinU (by simp)
  | maxU g u => exact exec_scalar_keeps s g u execMaxU (by simp)
  | scmp g u => exact exec_scalar_keeps s g u execScmp (by simp)
  | mov g u => exact exec_scalar_keeps s g u execMov (by simp)
  | movi g u => exact exec_scalar_keeps s g u execMovi (by simp)
  | t2u g u => exact exec_scalar_keeps s g u execT2u (by simp)
  | atom g u => exact exec_lsu_keeps s g u execAtom (by simp)
  | atomCas g u => exact exec_lsu_keeps s g u execAtomCas (by simp)
  | cpref g u => exact exec_lsu_keeps s g u execCpref (by simp)
  | cflush g u => exact exec_lsu_keeps s g u execCflush (by simp)
  | cinv g u => exact exec_lsu_keeps s g u execCinv (by simp)
  | cdisc g u => exact exec_lsu_keeps s g u execCdisc (by simp)
  | redAdd g u => exact exec_lsu_keeps s g u execRedAdd (by simp)
  | redMax g u => exact exec_lsu_keeps s g u execRedMax (by simp)
  | redMin g u => exact exec_lsu_keeps s g u execRedMin (by simp)
  | ldk g u => exact execLdk_keeps s g u
  | ld g u => exact execLd_keeps s g u
  | ldt g u => exact execLdt_keeps s g u
  | st g u => exact execSt_keeps s g u
  | stt g u => exact execStt_keeps s g u
  | ldres g u => exact execLdres_keeps s g u
  | stcond g u => exact execStcond_keeps s g u
  | iadd g u => exact exec_vectorInt_keeps s g u execIadd (by simp)
  | isub g u => exact exec_vectorInt_keeps s g u execIsub (by simp)
  | imul g u => exact exec_vectorInt_keeps s g u execImul (by simp)
  | imulhiU g u => exact exec_vectorInt_keeps s g u execImulhiU (by simp)
  | imulhiS g u => exact exec_vectorInt_keeps s g u execImulhiS (by simp)
  | imula g u => exact exec_vectorInt_keeps s g u execImula (by simp)
  | vAnd g u => exact exec_vectorInt_keeps s g u execVAnd (by simp)
  | vOr g u => exact exec_vectorInt_keeps s g u execVOr (by simp)
  | vXor g u => exact exec_vectorInt_keeps s g u execVXor (by simp)
  | vShl g u => exact exec_vectorInt_keeps s g u execVShl (by simp)
  | vShr g u => exact exec_vectorInt_keeps s g u execVShr (by simp)
  | vSar g u => exact exec_vectorInt_keeps s g u execVSar (by simp)
  | iminS g u => exact exec_vectorInt_keeps s g u execIminS (by simp)
  | imaxS g u => exact exec_vectorInt_keeps s g u execImaxS (by simp)
  | iminU g u => exact exec_vectorInt_keeps s g u execIminU (by simp)
  | imaxU g u => exact exec_vectorInt_keeps s g u execImaxU (by simp)
  | icmp g u => exact exec_vectorInt_keeps s g u execIcmp (by simp)
  | pick g u => exact exec_vectorInt_keeps s g u execPick (by simp)
  | iaddP16 g u => exact exec_vectorInt_keeps s g u execIaddP16 (by simp)
  | isubP16 g u => exact exec_vectorInt_keeps s g u execIsubP16 (by simp)
  | bitcnt g u => exact exec_vectorInt_keeps s g u execBitcnt (by simp)
  | clz g u => exact exec_vectorInt_keeps s g u execClz (by simp)
  | vMov g u => exact exec_vectorInt_keeps s g u execVMov (by simp)
  | xlane g u => exact exec_vectorInt_keeps s g u execXlane (by simp)
  | bcast g u => exact exec_vectorInt_keeps s g u execBcast (by simp)
  | tally g u => exact exec_vectorInt_keeps s g u execTally (by simp)
  | gred g u => exact exec_vectorInt_keeps s g u execGred (by simp)
  | fadd g u => exact exec_vectorFloat_keeps s g u execFadd (by simp)
  | fsub g u => exact exec_vectorFloat_keeps s g u execFsub (by simp)
  | fmul g u => exact exec_vectorFloat_keeps s g u execFmul (by simp)
  | fmula g u => exact exec_vectorFloat_keeps s g u execFmula (by simp)
  | fmin g u => exact exec_vectorFloat_keeps s g u execFmin (by simp)
  | fmax g u => exact exec_vectorFloat_keeps s g u execFmax (by simp)
  | fcmp g u => exact exec_vectorFloat_keeps s g u execFcmp (by simp)
  | fabs g u => exact exec_vectorFloat_keeps s g u execFabs (by simp)
  | fneg g u => exact exec_vectorFloat_keeps s g u execFneg (by simp)
  | frcp g u => exact exec_vectorFloat_keeps s g u execFrcp (by simp)
  | fsqrt g u => exact exec_vectorFloat_keeps s g u execFsqrt (by simp)
  | frsq g u => exact exec_vectorFloat_keeps s g u execFrsq (by simp)
  | fexp2 g u => exact exec_vectorFloat_keeps s g u execFexp2 (by simp)
  | flog2 g u => exact exec_vectorFloat_keeps s g u execFlog2 (by simp)
  | pmula2 g u => exact exec_vectorFloat_keeps s g u execPmula2 (by simp)
  | padd2 g u => exact exec_vectorFloat_keeps s g u execPadd2 (by simp)
  | pmul2 g u => exact exec_vectorFloat_keeps s g u execPmul2 (by simp)
  | gredf g u => exact exec_vectorFloat_keeps s g u execGredf (by simp)
  | cvt g u => exact exec_convert_keeps s g u execCvt (by simp)
  | cvtPk2 g u => exact exec_convert_keeps s g u execCvtPk2 (by simp)
  | cvtIns g u => exact exec_convert_keeps s g u execCvtIns (by simp)
  | unpk g u => exact exec_convert_keeps s g u execUnpk (by simp)
  | mloadp g u => exact exec_matrix_keeps s g u execMloadp (by simp)
  | mstream g u => exact exec_matrix_keeps s g u execMstream (by simp)
  | mdrain g u => exact exec_matrix_keeps s g u execMdrain (by simp)
  | matrixLoadStart c => exact execMatrixLoadStart_keeps s c
  | matrixLoadComplete c => exact execMatrixLoadComplete_keeps s c
  | matrixStreamStart c => exact execMatrixStreamStart_keeps s c
  | matrixStreamComplete c => exact execMatrixStreamComplete_keeps s c
  | matrixDrainComplete c => exact execMatrixDrainComplete_keeps s c
  | dmaIssue g u => exact execDmaIssue_keeps s g u
  | dmaCopy c i0 => exact exec_dma_keeps s c i0 execDmaCopy (by simp)
  | dmaFill c i0 => exact exec_dma_keeps s c i0 execDmaFill (by simp)
  | dmaPrefetch c i0 => exact exec_dma_keeps s c i0 execDmaPrefetch (by simp)
  | dmaFlush c i0 => exact exec_dma_keeps s c i0 execDmaFlush (by simp)
  | dmaInvalidate c i0 => exact exec_dma_keeps s c i0 execDmaInvalidate (by simp)
  | dmaDiscard c i0 => exact exec_dma_keeps s c i0 execDmaDiscard (by simp)
  | dmaDescriptorComplete c i0 => exact execDmaDescriptorComplete_keeps s c i0
  | fence g u => exact exec_sync_keeps s g u execFence (by simp)
  | barGroup g u => exact exec_sync_keeps s g u execBarGroup (by simp)
  | barCore g u => exact exec_sync_keeps s g u execBarCore (by simp)
  | cntr g u => exact exec_sync_keeps s g u execCntr (by simp)
  | merr g u => exact exec_sync_keeps s g u execMerr (by simp)
  | rinseSet g u => exact exec_sync_keeps s g u execRinseSet (by simp)
  | rinseClr g u => exact exec_sync_keeps s g u execRinseClr (by simp)
  | tokSet g u => exact execTokSet_keeps s g u
  | tokWait g u => exact execTokWait_keeps s g u
  | fenceComplete g => exact execFenceComplete_keeps s g
  | tokSetTakesEffect g e => exact execTokSetTakesEffect_keeps s g e
  | tokWaitRelease g e => exact execTokWaitRelease_keeps s g e
  | barrierDeadlock g w => exact execBarrierDeadlock_keeps s g w
  | msend g u => exact exec_mesh_keeps s g u execMsend (by simp)
  | mrecv g u => exact exec_mesh_keeps s g u execMrecv (by simp)
  | meshQueueWaitDone g => exact execMeshQueueWaitDone_keeps s g
  | meshWaitLimit g => exact execMeshWaitLimit_keeps s g
  | meshRouterSlot c => exact execMeshRouterSlot_keeps s c
  | meshStart d => exact execMeshStart_keeps s d
  | crossingFlitArrive c p vc => exact execCrossingFlitArrive_keeps s c p vc
  | groupEnd g => exact execGroupEnd_keeps s g
  | coreStart c => exact exec_cores_keeps s c execCoreStart (by simp)
  | coreStop c => exact exec_cores_keeps s c execCoreStop (by simp)
  | coreTeardown c => exact exec_cores_keeps s c execCoreTeardown (by simp)
  | coreClearComplete c => exact exec_cores_keeps s c execCoreClearComplete (by simp)
  | coreDrainComplete c => exact exec_cores_keeps s c execCoreDrainComplete (by simp)
  | coreCntClear c v => exact exec_counters_cv_keeps s c v execCoreCntClear (by simp)
  | mtxCntClear c v => exact exec_counters_cv_keeps s c v execMtxCntClear (by simp)
  | meshCntClear c v => exact exec_counters_cv_keeps s c v execMeshCntClear (by simp)
  | xlatCoreCntClear c v => exact exec_counters_cv_keeps s c v execXlatCoreCntClear (by simp)
  | meshFaultClear c v => exact exec_counters_cv_keeps s c v execMeshFaultClear (by simp)
  | meshCtrlWrite c v => exact exec_counters_cv_keeps s c v execMeshCtrlWrite (by simp)
  | cacheCntClear h v => exact exec_counters_hv_keeps s h v execCacheCntClear (by simp)
  | stewCntClear h v => exact exec_counters_hv_keeps s h v execStewCntClear (by simp)
  | memcCntClear m v => exact execMemcCntClear_keeps s m v
  | xlatCntClear d v => exact execXlatCntClear_keeps s d v
  | specCntClear v => exact exec_counters_v_keeps s v execSpecCntClear (by simp)
  | hstRefusedClear v => exact exec_counters_v_keeps s v execHstRefusedClear (by simp)
  | coreStackMaxRead c => exact execCoreStackMaxRead_keeps s c
  | missregHwmRead h b => exact execMissregHwmRead_keeps s h b
  | evrDroppedRead fn => exact execEvrDroppedRead_keeps s fn
  | mbxOverrunClear m v => exact execMbxOverrunClear_keeps s m v
  | bndCntClear p v => exact execBndCntClear_keeps s p v
  | arbCtrlClear p v => exact exec_links_pv_keeps s p v execArbCtrlClear (by simp)
  | arbWaitLimitWrite p v => exact exec_links_pv_keeps s p v execArbWaitLimitWrite (by simp)
  | arbHoldLimitWrite p v => exact exec_links_pv_keeps s p v execArbHoldLimitWrite (by simp)
  | arbCutoffClear p r => exact exec_links_pr_keeps s p r execArbCutoffClear (by simp)
  | portCutoff p r => exact exec_links_pr_keeps s p r execPortCutoff (by simp)
  | bundleFlitReceive b dir seq crcOk ack => exact execBundleFlitReceive_keeps s b dir seq crcOk ack
  | bundleNak b dir seq => exact execBundleNak_keeps s b dir seq
  | bundleCredit b dir counts => exact execBundleCredit_keeps s b dir counts
  | bundleReplayTimeout b dir => exact execBundleReplayTimeout_keeps s b dir
  | bundleRetrain b => exact exec_links_b_keeps s b execBundleRetrain (by simp)
  | bundleLost b => exact exec_links_b_keeps s b execBundleLost (by simp)
  | bundleRetrainDone b bad => exact execBundleRetrainDone_keeps s b bad
  | seamUe d => exact execSeamUe_keeps s d
  | cacheErrStatusClear h v => exact execCacheErrStatusClear_keeps s h v
  | memcErrStatusClear m v => exact execMemcErrStatusClear_keeps s m v
  | needleRead rid => exact execNeedleRead_keeps s rid
  | needleBucketIssue m bucket => exact execNeedleBucketIssue_keeps s m bucket
  | flashReadComplete rid badCodewords => exact execFlashReadComplete_keeps s rid badCodewords
  | washerSector h sector e => exact execWasherSector_keeps s h sector e
  | registerWrite sp off data => exact execRegisterWrite_keeps s sp off data
  | regRead => exact exec_regs_keeps s execRegRead (by simp)
  | regWrite => exact exec_regs_keeps s execRegWrite (by simp)
  | cacheWaymaskWrite h p v => exact execCacheWaymaskWrite_keeps s h p v
  | cacheCfgWrite h v => exact execCacheCfgWrite_keeps s h v
  | cacheReplicaChangeDone h => exact exec_homes_h_keeps s h execCacheReplicaChangeDone (by simp)
  | sweepComplete h => exact exec_homes_h_keeps s h execSweepComplete (by simp)
  | cacheSweepStart h v => exact execCacheSweepStart_keeps s h v
  | writeBufferEntryRelease c i0 => exact execWriteBufferEntryRelease_keeps s c i0
  | reservationTimeout g => exact execReservationTimeout_keeps s g
  | homeLoad rid e => exact execHomeLoad_keeps s rid e
  | homeWrite rid => exact exec_homes_rid_keeps s rid execHomeWrite (by simp)
  | homeAtomic rid => exact exec_homes_rid_keeps s rid execHomeAtomic (by simp)
  | homeReduction rid => exact exec_homes_rid_keeps s rid execHomeReduction (by simp)
  | homeLdres rid => exact exec_homes_rid_keeps s rid execHomeLdres (by simp)
  | homeStcond rid => exact exec_homes_rid_keeps s rid execHomeStcond (by simp)
  | homeDeviceAccess rid => exact exec_homes_rid_keeps s rid execHomeDeviceAccess (by simp)
  | homeRangeLineOp rid => exact exec_homes_rid_keeps s rid execHomeRangeLineOp (by simp)
  | replicaLookup rid => exact execReplicaLookup_keeps s rid
  | forwardReceive rid => exact execForwardReceive_keeps s rid
  | forwardMiss rid => exact execForwardMiss_keeps s rid
  | sectorsArrive line e => exact execSectorsArrive_keeps s line e
  | replicaFillArrive d line => exact execReplicaFillArrive_keeps s d line
  | replicaFillAck d line => exact execReplicaFillAck_keeps s d line
  | replicaInvalidate d line => exact execReplicaInvalidate_keeps s d line
  | invalidationAck d line => exact execInvalidationAck_keeps s d line
  | evictionNotice d line => exact execEvictionNotice_keeps s d line
  | walkComplete row entries casOk => exact execWalkComplete_keeps s row entries casOk
  | atsCompletion row ok r w u size addr => exact execAtsCompletion_keeps s row ok r w u size addr
  | pageRequestSend row => exact execPageRequestSend_keeps s row
  | priTimeout row => exact execPriTimeout_keeps s row
  | priResponse fn prgi code => exact execPriResponse_keeps s fn prgi code
  | atsInvalidateRequest fn pasid global addr size => exact execAtsInvalidateRequest_keeps s fn pasid global addr size
  | atsInvalidateComplete fn => exact execAtsInvalidateComplete_keeps s fn
  | targetTimeout t => exact execTargetTimeout_keeps s t
  | mbxDoorbell m v => exact execMbxDoorbell_keeps s m v
  | commandAccept => exact execCommandAccept_keeps s
  | identify => exact exec_settings_keeps s execIdentify (by simp)
  | getStatus => exact exec_settings_keeps s execGetStatus (by simp)
  | echo => exact exec_settings_keeps s execEcho (by simp)
  | meridianSource => exact exec_settings_keeps s execMeridianSource (by simp)
  | meridianRead => exact exec_settings_keeps s execMeridianRead (by simp)
  | powerLimit => exact exec_settings_keeps s execPowerLimit (by simp)
  | rinseRamp => exact exec_settings_keeps s execRinseRamp (by simp)
  | pstepRange => exact exec_settings_keeps s execPstepRange (by simp)
  | powerQuery => exact exec_settings_keeps s execPowerQuery (by simp)
  | unpair => exact exec_settings_keeps s execUnpair (by simp)
  | mirrorSet => exact exec_settings_keeps s execMirrorSet (by simp)
  | epochClose => exact exec_settings_keeps s execEpochClose (by simp)
  | takeoverStatus => exact exec_settings_keeps s execTakeoverStatus (by simp)
  | almanacQuery => exact execAlmanacQuery_keeps s
  | pair => exact execPair_keeps s
  | rinseEnvelope work capacity => exact execRinseEnvelope_keeps s work capacity
  | partReset => exact exec_parts_keeps s execPartReset (by simp)
  | partDestroy => exact exec_parts_keeps s execPartDestroy (by simp)
  | pfFlr => exact exec_parts_keeps s execPfFlr (by simp)
  | hotReset => exact exec_parts_keeps s execHotReset (by simp)
  | vfEnableClear => exact exec_parts_keeps s execVfEnableClear (by simp)
  | partQuiesce => exact execPartQuiesce_keeps s
  | partResume => exact execPartResume_keeps s
  | partQuery => exact execPartQuery_keeps s
  | partQuiesceComplete p => exact execPartQuiesceComplete_keeps s p
  | partResetComplete p => exact execPartResetComplete_keeps s p
  | vfFlr v => exact execVfFlr_keeps s v
  | ctxCreate => exact exec_memCmds_keeps s execCtxCreate (by simp)
  | ctxDestroy => exact exec_memCmds_keeps s execCtxDestroy (by simp)
  | ctxSetWatchdog => exact exec_memCmds_keeps s execCtxSetWatchdog (by simp)
  | regionSet => exact exec_memCmds_keeps s execRegionSet (by simp)
  | granuleTag => exact exec_memCmds_keeps s execGranuleTag (by simp)
  | shareGroupSet => exact exec_memCmds_keeps s execShareGroupSet (by simp)
  | formatSet => exact exec_memCmds_keeps s execFormatSet (by simp)
  | pin => exact exec_memCmds_keeps s execPin (by simp)
  | unpin => exact exec_memCmds_keeps s execUnpin (by simp)
  | reloadAdd => exact exec_memCmds_keeps s execReloadAdd (by simp)
  | reloadRemove => exact exec_memCmds_keeps s execReloadRemove (by simp)
  | flashTrim => exact exec_memCmds_keeps s execFlashTrim (by simp)
  | setTimeouts => exact exec_memCmds_keeps s execSetTimeouts (by simp)
  | cacheReplicaSet => exact exec_memCmds_keeps s execCacheReplicaSet (by simp)
  | washPeriodSet => exact exec_memCmds_keeps s execWashPeriodSet (by simp)
  | pinComplete => exact execPinComplete_keeps s
  | invalidate => exact execInvalidate_keeps s
  | regionSetComplete => exact execRegionSetComplete_keeps s
  | queueCreate => exact exec_queueOps_keeps s execQueueCreate (by simp)
  | queueDestroy => exact exec_queueOps_keeps s execQueueDestroy (by simp)
  | queueQuery => exact exec_queueOps_keeps s execQueueQuery (by simp)
  | cringCreate => exact exec_queueOps_keeps s execCringCreate (by simp)
  | queueHalt => exact execQueueHalt_keeps s
  | queueResume => exact execQueueResume_keeps s
  | undeliverableDrain => exact execUndeliverableDrain_keeps s
  | abort => exact execAbort_keeps s
  | evrCtrlWrite fn v => exact exec_queues_fnv_keeps s fn v execEvrCtrlWrite (by simp)
  | evrHeadWrite fn v => exact exec_queues_fnv_keeps s fn v execEvrHeadWrite (by simp)
  | qdbTailWrite q v => exact execQdbTailWrite_keeps s q v
  | kernelRegister => exact exec_kernels_keeps s execKernelRegister (by simp)
  | kernelRelease => exact exec_kernels_keeps s execKernelRelease (by simp)
  | graphStore => exact exec_kernels_keeps s execGraphStore (by simp)
  | graphPatch => exact exec_kernels_keeps s execGraphPatch (by simp)
  | graphRelease => exact execGraphRelease_keeps s
  | kernelRegisterComplete p => exact execKernelRegisterComplete_keeps s p
  | graphCheckComplete image => exact execGraphCheckComplete_keeps s image
  | abortStopTimeout launch => exact execAbortStopTimeout_keeps s launch
  | timeLimitExpiry launch => exact execTimeLimitExpiry_keeps s launch
  | launchCommit launch signal record => exact execLaunchCommit_keeps s launch signal record
  | completionRingRecheck q headWord => exact execCompletionRingRecheck_keeps s q headWord
  | fwStage => exact exec_firmware_keeps s execFwStage (by simp)
  | fwStageClaimTimeout => exact exec_firmware_keeps s execFwStageClaimTimeout (by simp)
  | fwCommit => exact exec_firmware_keeps s execFwCommit (by simp)
  | boundQuery => exact exec_firmware_keeps s execBoundQuery (by simp)
  | auditRead => exact exec_firmware_keeps s execAuditRead (by simp)
  | logRead => exact exec_firmware_keeps s execLogRead (by simp)
  | telemetryRead => exact exec_firmware_keeps s execTelemetryRead (by simp)
  | arrayTest => exact exec_firmware_keeps s execArrayTest (by simp)
  | secFloorRaise => exact execSecFloorRaise_keeps s
  | pairIdSet => exact execPairIdSet_keeps s
  | darnAmend => exact execDarnAmend_keeps s
  | patchAmend => exact execPatchAmend_keeps s
  | mgmtIdLock => exact execMgmtIdLock_keeps s
  | logFlush => exact execLogFlush_keeps s
  | arrayTestComplete failing => exact execArrayTestComplete_keeps s failing
  | launchConsume q desc => exact execLaunchConsume_keeps s q desc
  | semaphorePoll launch word => exact execSemaphorePoll_keeps s launch word
  | launchStart launch => exact execLaunchStart_keeps s launch
  | graphLayerStart launch => exact execGraphLayerStart_keeps s launch
  | transitGuard launch => exact execTransitGuard_keeps s launch
  | transitStart launch => exact execTransitStart_keeps s launch
  | prerampLaunchStart launch => exact execPrerampLaunchStart_keeps s launch
  | beTurnExpiry p => exact execBeTurnExpiry_keeps s p
  | meridianBeat => exact exec_time_keeps s execMeridianBeat (by simp)
  | meridianMeasurementLoss => exact exec_time_keeps s execMeridianMeasurementLoss (by simp)
  | ptpMeasurement offset arb => exact execPtpMeasurement_keeps s offset arb
  | meridianBeatLoss d => exact execMeridianBeatLoss_keeps s d
  | regulatorSample watts vinMv iinMa => exact execRegulatorSample_keeps s watts vinMv iinMa
  | capLoop => exact execCapLoop_keeps s
  | capUnitChange => exact execCapUnitChange_keeps s
  | pstepVoltageArrived h => exact exec_power_keeps s h execPstepVoltageArrived (by simp)
  | droopDeassert h => exact exec_power_keeps s h execDroopDeassert (by simp)
  | throttleStep h => exact exec_power_keeps s h execThrottleStep (by simp)
  | droopAssert h overBudget => exact execDroopAssert_keeps s h overBudget
  | pstepResume h delayNs => exact execPstepResume_keeps s h delayNs
  | thermalSample l temps => exact execThermalSample_keeps s l temps
  | specFlitReceive seq crcOk ack => exact execSpecFlitReceive_keeps s seq crcOk ack
  | specNak seq => exact execSpecNak_keeps s seq
  | specReplayTimeout => exact exec_speculum_keeps s execSpecReplayTimeout (by simp)
  | heartbeatSend => exact exec_speculum_keeps s execHeartbeatSend (by simp)
  | twinLost => exact exec_speculum_keeps s execTwinLost (by simp)
  | unpairNotice => exact exec_speculum_keeps s execUnpairNotice (by simp)
  | specLaneFail lane => exact execSpecLaneFail_keeps s lane
  | heartbeatReceive peerState peerSource offset => exact execHeartbeatReceive_keeps s peerState peerSource offset
  | pairTrainingDone rate => exact execPairTrainingDone_keeps s rate
  | pairTrainingRetry tenSeconds => exact execPairTrainingRetry_keeps s tenSeconds
  | pairingMessage chainOk keyOk versionOk signatureOk peerAccepts secver serial =>
    exact execPairingMessage_keeps s chainOk keyOk versionOk signatureOk peerAccepts secver serial
  | windowOffer w mode lag start len => exact execWindowOffer_keeps s w mode lag start len
  | epochWriteRecord w line data => exact execEpochWriteRecord_keeps s w line data
  | syncWriteRecord w tag line data => exact execSyncWriteRecord_keeps s w tag line data
  | syncAck tag => exact execSyncAck_keeps s tag
  | epochCloseRecord w epoch => exact execEpochCloseRecord_keeps s w epoch
  | epochApplied w epoch withinLag => exact execEpochApplied_keeps s w epoch withinLag
  | reloadRequest tag addr => exact execReloadRequest_keeps s tag addr
  | hostConfigRequest fn w => exact execHostConfigRequest_keeps s fn w
  | bar4Read fn off len => exact execBar4Read_keeps s fn off len
  | bar4Write fn off data poisoned relaxed => exact execBar4Write_keeps s fn off data poisoned relaxed
  | bar4AtomicOp fn off => exact execBar4AtomicOp_keeps s fn off
  | hstApertureBaseWrite v => exact execHstApertureBaseWrite_keeps s v
  | hostCompletion rid r => exact execHostCompletion_keeps s rid r
  | hostLinkTrain rate lanes retries => exact execHostLinkTrain_keeps s rate lanes retries
  | msixUnmask fn vector => exact execMsixUnmask_keeps s fn vector
  | spdmRequest t code body => exact execSpdmRequest_keeps s t code body
  | hello body => exact execHello_keeps s body
  | command f => exact exec_mgmt_keeps s f execCommand (by simp)
  | close f => exact exec_mgmt_keeps s f execClose (by simp)
  | prove f => exact execProve_keeps s f
  | eventAck f => exact execEventAck_keeps s f
  | eventResend number => exact execEventResend_keeps s number
  | mgmtSessionIdle => exact execMgmtSessionIdle_keeps s
  | managementPortLink up => exact execManagementPortLink_keeps s up
  | badBlockRetired k channel sparePct wearPct exhausted => exact execBadBlockRetired_keeps s k channel sparePct wearPct exhausted
  | memcRequest | menderApply | flashWriteAccept | repairComplete | partCreate | partResize | partResizeTakesEffect | partDestroyComplete
  | fwCommitComplete | warmReset | granuleTagComplete | flashTrimComplete | thermalTrip | reloadData | standbyPowerGood | pwrEnAssert
  | pwrEnDeassert | standbyPowerLost | inputUndervoltage | inputOvervoltage | mainRegulatorFault | inputWithinRange | mainPowerOff
  | thermTripRearm => exact Bool.noConfusion hi

end Sys2Proof.Machine

/-! Commands that write memory keep its canonical form. -/

namespace Sys2Proof.Machine

/-! What writes memory or flash, and nothing else of the anchor. -/

/-- THERM_TRIP and what decides on main power: tripped, ignored, PWR_EN, main power. -/
def State.switches (s : State) : Bool × Bool × Bool × Bool := (s.sys.tripped, s.sys.ignored, s.sys.pwrEn, s.sys.mainOn)

/-- The rectangles and the switches stand, and memory keeps its canonical form. -/
structure State.rewrites (s t : State) : Prop where
  rects    : t.rects = s.rects
  switches : t.switches = s.switches
  memory   : Memory.wf s.store = true → Memory.wf t.store = true

theorem State.rewrites.trans {s t u : State} (h : s.rewrites t) (g : t.rewrites u) : s.rewrites u :=
  ⟨g.rects.trans h.rects, g.switches.trans h.switches, g.memory ∘ h.memory⟩

theorem State.rewrites.of_anchor {s t : State} (h : t.anchor = s.anchor) : s.rewrites t := by
  injection h with hr hm hf h1 h2 h3 h4
  refine ⟨hr, by simp only [State.switches, h1, h2, h3, h4], fun w => ?_⟩
  unfold Memory.wf
  rw [hm, hf]
  exact w

theorem State.rewrites.refl (s : State) : s.rewrites s := State.rewrites.of_anchor rfl

theorem State.rewrites.keeps {s t u : State} (h : s.rewrites t) (g : u.anchor = t.anchor) : s.rewrites u :=
  h.trans (State.rewrites.of_anchor g)

theorem State.rewrites_store {s : State} {x : Store} (h : Memory.wf s.store = true → Memory.wf x = true) : s.rewrites { s with store :=
  x } :=
  ⟨rfl, rfl, h⟩

theorem State.rewrites_foldl {α : Type} {f : State → α → State} (h : ∀ (s : State) (a : α), s.rewrites (f s a)) (l : List α) (s : State) :
    s.rewrites (l.foldl f s) := by
  induction l generalizing s with
  | nil => exact .refl s
  | cons a l ih => exact (h s a).trans (ih _)

theorem State.putMemByte_rewrites (s : State) (a : Nat) (b : Byte) : s.rewrites (s.putMemByte a b) := by
  unfold State.putMemByte
  split
  · refine State.rewrites_store fun h => ?_
    rw [Memory.wf_iff] at h ⊢
    exact ⟨SMap.wf_set 0 _ _ h.1, h.2⟩
  · exact .refl s

theorem State.putMem_rewrites (s : State) (a : Nat) (bs : List Byte) : s.rewrites (s.putMem a bs) := by
  induction bs generalizing s a with
  | nil => exact .refl s
  | cons b bs ih => exact (s.putMemByte_rewrites a b).trans (ih _ _)

theorem State.writeSome_rewrites (s : State) (a : Nat) (bytes : List (Nat × Byte)) : s.rewrites (s.writeSome a bytes) := by
  have h := State.rewrites_foldl (f := fun (t : State) (e : Nat × Byte) => t.putMemByte (lineOf a + e.1) e.2)
    (fun t e => t.putMemByte_rewrites _ _) bytes s
  exact h.keeps (State.anchor_foldl _ (by simp) _ _)

theorem State.serveMem_rewrites (s : State) (m : Nat) (op : MemOp) (e : MemErr) : s.rewrites (s.serveMem m op e).1 := by
  unfold State.serveMem
  cases op with
  | write a bytes poison => exact (s.putMem_rewrites a bytes).keeps (by simp)
  | writePart a bytes rid poison =>
    refine (s.writeSome_rewrites a bytes).keeps ?_
    dsimp only
    split <;> simp
  | fetch => exact .of_anchor (by simp)
  | readFor => exact .of_anchor (by dsimp only; split <;> simp)
  | mend => exact .refl s

theorem State.mend_rewrites (s : State) (m : Nat) (op : MemOp) : s.rewrites (s.mend m op) := by
  unfold State.mend
  split
  · refine State.rewrites_foldl (fun t k => ?_) _ _
    exact (t.putMem_rewrites _ _).keeps
      ((State.anchor_memCount _ _ _ _).trans ((State.anchor_memCount _ _ _ _).trans (State.anchor_memCount _ _ _ _)))
  · exact .refl s

theorem State.drainCtrl_rewrites (s : State) (m : Nat) : s.rewrites (s.drainCtrl m) := by
  have h : s.rewrites (s.setCtrl m { s.ctrl m with queue := [] }) := .of_anchor (s.anchor_setCtrl _ _)
  refine h.trans (State.rewrites_foldl (fun t op => ?_) _ _)
  split
  · exact t.mend_rewrites m op
  · exact (t.serveMem_rewrites m op .good).keeps (State.anchor_settle _)

theorem State.drainCaches_rewrites (s : State) : s.rewrites s.drainCaches := by
  unfold State.drainCaches
  extract_lets s1
  have e1 : s.rewrites s1 := .of_anchor (State.anchor_foldl _ (by simp) _ _)
  exact e1.trans (State.rewrites_foldl State.drainCtrl_rewrites _ _)

theorem State.repairDone_rewrites (s : State) (h : Nat) (r : Repair) (bytes : Nat → List Byte) : s.rewrites (s.repairDone h r bytes).1 := by
  unfold State.repairDone
  extract_lets bad s1 half s2 m k
  have e1 : s.rewrites s1 := by
    refine State.rewrites_foldl (fun t i => ?_) bad s
    exact (t.putMem_rewrites _ _).keeps ((State.anchor_setCtrl _ _ _).trans (State.anchor_setPoison _ _ _))
  have em : m.1.anchor = s1.anchor := (State.anchor_releaseStripe _ _ _).trans ((State.anchor_note _ _).trans (State.anchor_setHalf _ _ _))
  exact e1.keeps ((State.anchor_nextRepair _ _ _).trans em)

theorem State.scrubGranule_rewrites (s : State) (g : Nat) : s.rewrites (s.scrubGranule g) := by
  refine ⟨rfl, rfl, fun h => ?_⟩
  rw [Memory.wf_iff] at h ⊢
  exact ⟨SMap.wf_keep 0 _ h.1, SMap.wf_keep 0 _ h.2⟩

theorem State.tagGranule_rewrites (s : State) (t : Half16) (g : Nat) : s.rewrites (s.tagGranule t g) := by
  unfold State.tagGranule
  extract_lets old s1
  have e1 : s.rewrites s1 := by
    unfold s1
    split
    · exact .refl s
    · exact s.scrubGranule_rewrites g
  exact e1.keeps rfl

/-- The commands that write memory or flash behind the homes. -/
def writesMemory : Instr → Bool
  | .memcRequest _ _ | .menderApply _ | .flashWriteAccept _ | .repairComplete _ _ | .reloadData _ _ | .granuleTagComplete | .flashTrimComplete => true
  | _ => false

theorem execMemcRequest_rewrites {s t : State} {m : CtrlIdx} {e : MemErr} (h : execMemcRequest m e s = .next t) : s.rewrites t := by
  cases h
  split
  · exact ((State.rewrites.of_anchor (s.anchor_setCtrl _ _)).trans (State.serveMem_rewrites _ _ _ _)).keeps (State.anchor_settle _)
  · exact .refl s

theorem execMenderApply_rewrites {s t : State} {m : CtrlIdx} (h : execMenderApply m s = .next t) : s.rewrites t := by
  cases h
  split
  · exact ((State.rewrites.of_anchor (s.anchor_setCtrl _ _)).trans (State.mend_rewrites _ _ _)).keeps (State.anchor_activates _ _)
  · exact .refl s

theorem execFlashWriteAccept_rewrites {s t : State} {rid : Nat} (h : execFlashWriteAccept rid s = .next t) : s.rewrites t := by
  cases h
  split
  · exact .refl s
  · split
    · split
      · exact .refl s
      · split
        · exact .of_anchor (by simp)
        · refine (State.rewrites_foldl (fun t e => ?_) _ s).keeps (State.anchor_dropReq _ _)
          refine State.rewrites_store fun w => ?_
          rw [Memory.wf_iff] at w ⊢
          exact ⟨w.1, SMap.wf_set 0 _ _ w.2⟩
    · exact .refl s

theorem execRepairComplete_rewrites {s t : State} {h : HalfIdx} {ok : Bool} (e : execRepairComplete h ok s = .next t) : s.rewrites t := by
  cases e
  split
  · exact .refl s
  · split
    · split
      · exact (s.repairDone_rewrites _ _ _).keeps (State.anchor_settle _)
      · exact .of_anchor (by simp)
    · exact .refl s
    · exact .of_anchor (by simp)

theorem execReloadData_rewrites {s t : State} {tag : Word} {data : Option (List Byte)} (e : execReloadData tag data s = .next t) :
    s.rewrites t := by
  unfold execReloadData at e
  extract_lets hit at e
  split_ifs at e
  · obtain rfl := Host.Outcome.next.inj e
    split
    · exact .refl s
    · next h r i _ =>
      cases data with
      | none => exact .of_anchor (by simp)
      | some b =>
        dsimp only
        split
        · have e1 : s.rewrites (s.setHalf h { s.half h with
              repair := some { r with left := r.left.erase i, data := SMap.putBytes r.data (32 * i) b } }) :=
            .of_anchor (s.anchor_setHalf _ _)
          exact (e1.trans (State.repairDone_rewrites _ _ _ _)).keeps (State.anchor_settle _)
        · exact .of_anchor (s.anchor_setHalf _ _)

theorem execGranuleTagComplete_rewrites {s t : State} (e : execGranuleTagComplete s = .next t) : s.rewrites t := by
  cases e
  split
  · exact .refl s
  · dsimp only
    split
    · exact .of_anchor (by simp)
    · split
      · exact .of_anchor (by simp)
      · exact (State.rewrites_foldl (fun t g => t.tagGranule_rewrites _ g) _ s).keeps (State.anchor_opDone _ _ _ _ _)

theorem execFlashTrimComplete_rewrites {s t : State} (e : execFlashTrimComplete s = .next t) : s.rewrites t := by
  cases e
  split
  · exact .refl s
  · refine State.rewrites.keeps (State.rewrites_store fun w => ?_) (State.anchor_opDone _ _ _ _ _)
    rw [Memory.wf_iff] at w ⊢
    exact ⟨w.1, SMap.wf_keep 0 _ w.2⟩

theorem exec_rewrites {i : Instr} (hi : writesMemory i = true) {s t : State} (e : exec i s = .next t) : s.rewrites t := by
  cases i with
  | memcRequest => exact execMemcRequest_rewrites e
  | menderApply => exact execMenderApply_rewrites e
  | flashWriteAccept => exact execFlashWriteAccept_rewrites e
  | repairComplete => exact execRepairComplete_rewrites e
  | reloadData => exact execReloadData_rewrites e
  | granuleTagComplete => exact execGranuleTagComplete_rewrites e
  | flashTrimComplete => exact execFlashTrimComplete_rewrites e
  | _ => exact Bool.noConfusion hi

end Sys2Proof.Machine

/-! Commands that move rectangles keep them apart. -/

namespace Sys2Proof.Machine

/-! Rectangles. -/

/-- What every step keeps of a state: rectangles apart and memory canonical. -/
structure State.sound (s t : State) : Prop where
  rects  : s.rectsApart → t.rectsApart
  memory : Memory.wf s.store = true → Memory.wf t.store = true

theorem State.sound.trans {s t u : State} (h : s.sound t) (g : t.sound u) : s.sound u := ⟨g.rects ∘ h.rects, g.memory ∘ h.memory⟩

theorem State.rectsApart_of_rects {s t : State} (h : t.rects = s.rects) (g : s.rectsApart) : t.rectsApart := by
  unfold State.rectsApart State.rect at g ⊢
  rw [h]
  exact g

theorem State.rewrites.sound {s t : State} (h : s.rewrites t) : s.sound t := ⟨State.rectsApart_of_rects h.rects, h.memory⟩

theorem State.sound.of_anchor {s t : State} (h : t.anchor = s.anchor) : s.sound t := (State.rewrites.of_anchor h).sound

theorem State.sound.refl (s : State) : s.sound s := .of_anchor rfl

theorem Rect.overlaps_comm (a b : Rect) : a.overlaps b = b.overlaps a := by
  simp only [Rect.overlaps]
  ac_rfl

/-- A new rectangle that meets no other partition's leaves all of them apart. -/
theorem State.rectsApart_setRect {s : State} {p : Nat} {x : Option Rect} (h : s.rectsApart)
    (hx : ∀ a, x = some a → ∀ q b, q ≠ p → s.rect q = some b → b.overlaps a = false) : (s.setRect p x).rectsApart := by
  intro q r a b hqr ha hb
  rw [State.rect_setRect] at ha hb
  split at ha
  · next hq =>
    rw [if_neg (hq ▸ hqr)] at hb
    rw [Rect.overlaps_comm]
    exact hx a ha r b (hq ▸ hqr.symm) hb
  · split at hb
    · next hq hr => exact hx b hb q a (Ne.symm hq) ha
    · exact h q r a b hqr ha hb

/-- No listed rectangle but that of `p` meets `a`. -/
theorem State.apart_of_rects_any {s : State} {p q : Nat} {a b : Rect}
    (h : (s.rects.any fun e => e.1 != p && (match e.2 with | some y => y.overlaps a | none => false)) = false)
    (hq : q ≠ p) (hb : s.rect q = some b) : b.overlaps a = false := by
  have hm : (q, some b) ∈ s.rects := SMap.mem_of_get hb (by simp)
  simpa [hq] using List.any_eq_false.1 h _ hm

theorem State.switches_of_anchor {s t : State} (h : t.anchor = s.anchor) : t.switches = s.switches := (State.rewrites.of_anchor h).switches

theorem State.stands_of_anchor {s t : State} (h : t.anchor = s.anchor) : s.sound t ∧ t.switches = s.switches :=
  ⟨.of_anchor h, State.switches_of_anchor h⟩

theorem State.stands_setRect {s t : State} {p : Nat} {x : Option Rect} (h : t.anchor = (s.setRect p x).anchor)
    (hx : ∀ a, x = some a → ∀ q b, q ≠ p → s.rect q = some b → b.overlaps a = false) : s.sound t ∧ t.switches = s.switches :=
  ⟨State.sound.trans ⟨fun g => State.rectsApart_setRect g hx, id⟩ (.of_anchor h), State.switches_of_anchor (s := s.setRect p x) h⟩

@[simp] theorem State.anchor_setRect (s : State) (p : Nat) (x : Option Rect) :
    (s.setRect p x).anchor = { s.anchor with rects := SMap.set none s.anchor.rects p x } := rfl

theorem State.anchor_resizeForce (s : State) (p : Nat) (x : Part) (z : Resize) (old : Rect) :
    (s.resizeForce p x z old).anchor = (s.setRect p (some z.rect)).anchor := by
  simp [State.resizeForce]

/-- A step of a resize keeps the switches, and the rectangles apart: the new one is checked when it comes into force (R418). -/
theorem State.resizeStep_sound (s : State) (p : Nat) : s.sound (s.resizeStep p) ∧ (s.resizeStep p).switches = s.switches := by
  unfold State.resizeStep
  split
  · next x old _ _ =>
    split
    · exact ⟨.refl s, rfl⟩
    · next z _ =>
      split
      · exact ⟨.of_anchor (s.anchor_resizeSweep p), s.switches_of_anchor (s.anchor_resizeSweep p)⟩
      · dsimp only
        split
        · exact ⟨.refl s, rfl⟩
        · next h =>
          have hf := (State.anchor_resizeSweep _ p).trans (s.anchor_resizeForce p x z old)
          refine State.stands_setRect hf ?_
          rintro a ⟨⟩ q b hq hb
          simp only [Bool.or_eq_true, not_or, Bool.not_eq_true] at h
          exact State.apart_of_rects_any h.1 hq hb
  · exact ⟨.refl s, rfl⟩

/-- A command that passes its checks met every rule. -/
theorem Cmd.rules_of_check {c : Cmd} {len : Nat} {bad rules : List (Bool × Nat)} {b payload : List Byte} {u s1 : State}
    (h : c.check len bad rules (.ok b u) = .ok payload s1) : s1 = u ∧ ∀ r ∈ rules, r.1 = false := by
  unfold Cmd.check at h
  split at h
  · cases h
  · split at h
    · cases h
    · split at h
      · cases h
      · next hr =>
        cases h
        exact ⟨rfl, fun r hm => by simpa using List.find?_eq_none.1 hr r hm⟩

/-- What a command in progress comes to: an answer with the anchor as it was, or its effect and then `after`. -/
theorem State.runThen_cases (s : State) (opcode : Nat) (f : Cmd → Reply) (after : Cmd → State → State) :
    (s.runThen opcode f after).anchor = s.anchor ∨
    ∃ c payload s1, f c = .ok payload s1 ∧ s.runThen opcode f after = after c (s1.respond c stSuccess 0 payload) := by
  unfold State.runThen
  split
  · exact .inl rfl
  · next c _ =>
    split
    · exact .inl rfl
    · split
      · exact .inl (by simp)
      · next payload s1 hf => exact .inr ⟨c, payload, s1, hf, rfl⟩

/-- The commands that change rectangles. -/
def changesRects : Instr → Bool
  | .partCreate | .partResize | .partResizeTakesEffect _ | .partDestroyComplete _ => true
  | _ => false

theorem execPartCreate_sound {s t : State} (e : execPartCreate s = .next t) : s.sound t ∧ t.switches = s.switches := by
  obtain rfl := Host.Outcome.next.inj e
  rw [State.run_eq_runThen]
  obtain h | ⟨c, payload, s1, hf, h⟩ := s.runThen_cases 0x0100 _ fun _ t => t
  · exact State.stands_of_anchor h
  · dsimp only at hf
    obtain ⟨hs, hr⟩ := Cmd.rules_of_check hf
    simp only [List.mem_cons, forall_eq_or_imp, Bool.or_eq_false_iff] at hr
    obtain ⟨⟨⟨-, ht⟩, -⟩, -⟩ := hr
    rw [h, hs]
    refine State.stands_setRect (p := c.arg 0 1) (x := some c.rect) (by simp) ?_
    rintro a ⟨⟩ q b hq hb
    rw [State.rectTaken, Bool.or_eq_false_iff] at ht
    exact State.apart_of_rects_any ht.1 hq hb

theorem execPartResize_sound {s t : State} (e : execPartResize s = .next t) : s.sound t ∧ t.switches = s.switches := by
  obtain rfl := Host.Outcome.next.inj e
  obtain h | ⟨c, payload, s1, hf, h⟩ := s.runThen_cases 0x0101 _ fun c s1 => s1.resizeStep (c.arg 0 1)
  · exact State.stands_of_anchor h
  · dsimp only at hf
    obtain ⟨hs, -⟩ := Cmd.rules_of_check hf
    rw [h]
    obtain ⟨h1, h2⟩ := (s1.respond c stSuccess 0 payload).resizeStep_sound (c.arg 0 1)
    have ha : (s1.respond c stSuccess 0 payload).anchor = s.anchor := by simp [hs]
    exact ⟨(State.sound.of_anchor ha).trans h1, h2.trans (State.switches_of_anchor ha)⟩

theorem execPartDestroyComplete_sound {s t : State} {p : PartIdx} (e : execPartDestroyComplete p s = .next t) :
    s.sound t ∧ t.switches = s.switches := by
  obtain rfl := Host.Outcome.next.inj e
  split
  · exact State.stands_of_anchor rfl
  · split
    · exact State.stands_of_anchor rfl
    · dsimp only
      split
      · exact State.stands_of_anchor (by simp)
      · refine State.stands_setRect (p := p) (x := none) ?_ nofun
        simp

theorem exec_changesRects_sound {i : Instr} (hi : changesRects i = true) {s t : State} (e : exec i s = .next t) :
    s.sound t ∧ t.switches = s.switches := by
  cases i with
  | partCreate => exact execPartCreate_sound e
  | partResize => exact execPartResize_sound e
  | partResizeTakesEffect p =>
    obtain rfl := Host.Outcome.next.inj e
    exact s.resizeStep_sound p
  | partDestroyComplete => exact execPartDestroyComplete_sound e
  | _ => exact Bool.noConfusion hi

end Sys2Proof.Machine

/-! What a start and the loss of main power keep. -/

namespace Sys2Proof.Machine

/-! Power: what a start and the loss of main power keep. -/

/-- Main power is on and step 3 begins. -/
def State.enabled (s : State) : State :=
  { s with sys := { s.sys with state := 1, step := 3, mainOn := true, pwrGood := true, powerLost := false } }

theorem State.startStep_rewrites {s : State} {fail : Option (Nat × Nat × Nat)} {n : Nat} {act : State → State}
    (h : ∀ t : State, t.rewrites (act t)) : s.rewrites (s.startStep fail n act) := by
  unfold State.startStep
  split
  · exact .refl s
  · extract_lets sys s1 s2
    have e1 : s.rewrites s1 := .of_anchor rfl
    split
    · exact e1.keeps (State.anchor_stepFail _ _ _ _)
    · have e2 : s.rewrites s2 := e1.trans (h s1)
      split
      · exact e2
      · exact e2.keeps (State.anchor_stepDone _ _)

theorem State.seedTier_rewrites (s : State) (tier : Nat) : s.rewrites (s.seedTier tier) := by
  refine State.rewrites.keeps (State.rewrites_store fun h => ?_) (State.anchor_warn _ _)
  rw [Memory.wf_iff] at h ⊢
  exact ⟨SMap.wfFrom_filter 0 _ _ none h.1, h.2⟩

theorem State.stepSeed_rewrites (s : State) : s.rewrites s.stepSeed :=
  State.rewrites_store fun h => by
    rw [Memory.wf_iff] at h ⊢
    exact ⟨rfl, h.2⟩

/-- The steps 3 to 10 keep the rectangles and the switches as they are with main power on. -/
theorem State.startSteps_rewrites (s : State) (warm : Bool) (fail : Option (Nat × Nat × Nat)) (bad : List BadWire) :
    s.enabled.rewrites (s.startSteps warm fail bad) := by
  unfold State.startSteps
  extract_lets tier fail1 sys s0 s4 s6 s7 s10
  have h4 : s0.rewrites s4 :=
    (State.startStep_rewrites State.rewrites.refl).trans (State.startStep_rewrites fun t => .of_anchor (t.anchor_testLanes bad))
  have h6 : s4.rewrites s6 := by
    have seeds : ∀ (o : Option Nat) (t : State), t.rewrites (match o with | some k => t.seedTier k | none => t) := fun o t => by
      cases o with
      | some k => exact t.seedTier_rewrites k
      | none => exact .refl t
    exact (State.startStep_rewrites (seeds tier)).trans (State.startStep_rewrites fun t => .of_anchor t.anchor_stepPatch)
  have h7 : s6.rewrites s7 := by
    unfold s7
    split
    · exact .refl s6
    · exact State.startStep_rewrites State.stepSeed_rewrites
  have h10 : s7.rewrites s10 :=
    ((State.startStep_rewrites fun t => .of_anchor t.anchor_stepBeats).trans
      (State.startStep_rewrites fun t => .of_anchor t.anchor_startTraining)).trans (State.startStep_rewrites State.rewrites.refl)
  have h : s0.rewrites s10 := h4.trans (h6.trans (h7.trans h10))
  split
  · exact h
  · exact h.keeps (by simp)

/-- Main power comes on only when nothing holds the regulators off; then the start keeps the rectangles. -/
theorem State.powerUp_cases (s : State) (fail : Option (Nat × Nat × Nat)) (bad : List BadWire) :
    (s.powerUp fail bad = s ∧ s.mayPower = false) ∨ (s.enabled.rewrites (s.powerUp fail bad) ∧ s.mayPower = true) := by
  unfold State.powerUp
  split
  · next h => exact .inl ⟨rfl, by simpa using h⟩
  · next h =>
    extract_lets s1
    refine .inr ⟨?_, by simpa using h⟩
    have e1 : s1.anchor = s.anchor := by simp [s1]
    have e2 : s1.enabled.anchor = s.enabled.anchor := by
      injection e1 with hr hm hf h1 h2 h3 h4
      simp only [State.anchor, State.enabled, hr, hm, hf, h1, h2, h3]
    exact (State.rewrites.of_anchor e2).trans (s1.startSteps_rewrites false fail bad)

theorem State.freeWires_free (s : State) (n : Nat) : (s.freeWires n).2 = { s with free := (s.freeWires n).2.free } := by
  induction n generalizing s with
  | zero => rfl
  | succ n ih => exact (ih s.freeWire.2).trans rfl

theorem State.powerUpFree_cases (s : State) :
    (s.powerUpFree = s ∧ s.mayPower = false) ∨ (s.enabled.rewrites s.powerUpFree ∧ s.mayPower = true) := by
  unfold State.powerUpFree
  split
  · next h => exact .inl ⟨rfl, by simpa using h⟩
  · next h =>
    have hm : s.mayPower = true := by simpa using h
    extract_lets k c u n ws
    have hw : ws.2 = { s with free := ws.2.free } := State.freeWires_free _ _
    obtain ⟨-, h⟩ | ⟨h, -⟩ := ws.2.powerUp_cases (some (k.1.toNat, c.1.toNat, u.1.toNat)) ws.1
    · rw [hw] at h
      exact absurd (h.symm.trans hm) Bool.false_ne_true
    · exact .inr ⟨State.rewrites.trans (.of_anchor (by rw [hw]; rfl)) h, hm⟩

/-- When main power goes, the rectangles and memory go with it; flash stands, and only the main power switch moves (R535). -/
theorem State.dropMain_leaves (s : State) : s.dropMain.rects = [] ∧ s.dropMain.store = { flash := s.store.flash } ∧
    s.dropMain.switches = (s.sys.tripped, s.sys.ignored, s.sys.pwrEn, false) := by
  unfold State.dropMain
  extract_lets s1 s2 s3 halted
  have e1 : s1.anchor = s.anchor := by simp [s1]
  have e2 : s2.anchor = s.anchor := by
    unfold s2
    split
    · simp [e1]
    · exact e1
  have e3 : s3.anchor = s.anchor := by
    unfold s3
    split
    · exact e2
    · simp [e2]
  injection e3 with hr hm hf h1 h2 h3 h4
  refine ⟨rfl, ?_, ?_⟩
  · rw [← hf]
  · rw [← h1, ← h2, ← h3]
    rfl

theorem State.rectsApart_of_nil {s : State} (h : s.rects = []) : s.rectsApart := by
  intro p q a b _ ha
  rw [State.rect, h] at ha
  cases ha

theorem State.dropMain_sound (s : State) : s.sound s.dropMain := by
  obtain ⟨hr, hs, -⟩ := s.dropMain_leaves
  refine ⟨fun _ => State.rectsApart_of_nil hr, fun h => ?_⟩
  rw [Memory.wf_iff] at h ⊢
  rw [hs]
  exact ⟨rfl, h.2⟩

theorem State.unpowered_sound (s : State) : s.sound s.unpowered := by
  refine ⟨fun _ => State.rectsApart_of_nil rfl, fun h => ?_⟩
  rw [Memory.wf_iff] at h ⊢
  exact ⟨rfl, h.2⟩

theorem State.enabled_sound (s : State) : s.sound s.enabled := ⟨State.rectsApart_of_rects rfl, id⟩

theorem State.powerUp_sound (s : State) (fail : Option (Nat × Nat × Nat)) (bad : List BadWire) : s.sound (s.powerUp fail bad) := by
  obtain ⟨h, -⟩ | ⟨h, -⟩ := s.powerUp_cases fail bad
  · rw [h]
    exact .refl s
  · exact s.enabled_sound.trans h.sound

theorem State.powerUpFree_sound (s : State) : s.sound s.powerUpFree := by
  obtain ⟨h, -⟩ | ⟨h, -⟩ := s.powerUpFree_cases
  · rw [h]
    exact .refl s
  · exact s.enabled_sound.trans h.sound

theorem State.warmDrop_rewrites (s : State) : s.rewrites s.warmDrop := by
  have h1 : s.rewrites s.drainCaches.resetBlocks.endClaim := s.drainCaches_rewrites.keeps (by simp)
  unfold State.warmDrop
  generalize s.drainCaches.resetBlocks.endClaim = s1 at h1
  dsimp only
  refine State.rewrites.keeps ?_ (State.anchor_foldl _ (fun t e => by split <;> simp) _ _)
  refine State.rewrites.keeps ?_ (State.anchor_updHost _ _)
  exact h1.trans ⟨rfl, rfl, id⟩

theorem State.warmReset_cases (s : State) (role : Nat) (fail : Option (Nat × Nat × Nat)) (bad : List BadWire) :
    ∃ u : State, s.rewrites u ∧ (s.warmReset role fail bad = u ∨ s.warmReset role fail bad = u.powerUpFree ∨
      u.sys.mainOn = true ∧ s.warmReset role fail bad = u.startSteps true fail bad) := by
  unfold State.warmReset
  extract_lets r s1
  have h1 : s.rewrites s1 := by
    refine State.rewrites.keeps ?_ (State.anchor_stepTwo _ _ _ _)
    exact State.rewrites.trans (.of_anchor (s.anchor_note _)) (State.warmDrop_rewrites _)
  refine ⟨s1, h1, ?_⟩
  split
  · exact .inl rfl
  · split
    · next h => exact .inr (.inr ⟨h, rfl⟩)
    · exact .inr (.inl rfl)

end Sys2Proof.Machine

/-! The commands of power. -/

namespace Sys2Proof.Machine

/-! The safety of every command. -/

/-- A PWR_EN assertion that is ignored holds the main regulators off (R551). -/
def State.held (s : State) : Prop := s.sys.ignored = true ∧ s.sys.pwrEn = true ∧ s.sys.mainOn = false

/-- What every command but three keeps: rectangles apart, memory canonical, THERM_TRIP released, an ignored PWR_EN ignored. -/
structure State.safe (s t : State) : Prop where
  sound : s.sound t
  trip  : s.sys.tripped = true → t.sys.tripped = true
  held  : s.held → t.held

theorem State.safe.trans {s t u : State} (h : s.safe t) (g : t.safe u) : s.safe u :=
  ⟨h.sound.trans g.sound, g.trip ∘ h.trip, g.held ∘ h.held⟩

theorem State.safe.of_switches {s t : State} (h : s.sound t ∧ t.switches = s.switches) : s.safe t := by
  obtain ⟨hs, hw⟩ := h
  simp only [State.switches, Prod.mk.injEq] at hw
  obtain ⟨h1, h2, h3, h4⟩ := hw
  exact ⟨hs, fun g => h1.trans g, fun ⟨g2, g3, g4⟩ => ⟨h2.trans g2, h3.trans g3, h4.trans g4⟩⟩

theorem State.rewrites.safe {s t : State} (h : s.rewrites t) : s.safe t := .of_switches ⟨h.sound, h.switches⟩
theorem State.safe.of_anchor {s t : State} (h : t.anchor = s.anchor) : s.safe t := .of_switches (State.stands_of_anchor h)
theorem State.safe.refl (s : State) : s.safe s := .of_anchor rfl
theorem State.safe.keeps {s t u : State} (h : s.safe t) (g : u.anchor = t.anchor) : s.safe u := h.trans (.of_anchor g)

/-- A start when nothing holds the regulators off. -/
theorem State.safe.of_start {s t : State} (h : s.enabled.rewrites t) (hh : ¬ s.held) : s.safe t := by
  have hw := h.switches
  simp only [State.switches, Prod.mk.injEq] at hw
  exact ⟨s.enabled_sound.trans h.sound, fun g => hw.1.trans g, fun g => absurd g hh⟩

theorem State.mayPower_not_held {s : State} (h : s.mayPower = true) : ¬ s.held := by
  rintro ⟨hi, -, -⟩
  simp [State.mayPower, hi] at h

theorem State.powerUp_safe (s : State) (fail : Option (Nat × Nat × Nat)) (bad : List BadWire) : s.safe (s.powerUp fail bad) := by
  obtain ⟨h, -⟩ | ⟨h, hm⟩ := s.powerUp_cases fail bad
  · rw [h]
    exact .refl s
  · exact .of_start h (State.mayPower_not_held hm)

theorem State.powerUpFree_safe (s : State) : s.safe s.powerUpFree := by
  obtain ⟨h, -⟩ | ⟨h, hm⟩ := s.powerUpFree_cases
  · rw [h]
    exact .refl s
  · exact .of_start h (State.mayPower_not_held hm)

theorem State.dropMain_safe (s : State) : s.safe s.dropMain := by
  obtain ⟨-, -, hw⟩ := s.dropMain_leaves
  simp only [State.switches, Prod.mk.injEq] at hw
  obtain ⟨h1, h2, h3, h4⟩ := hw
  exact ⟨s.dropMain_sound, fun g => h1.trans g, fun ⟨g2, g3, _⟩ => ⟨h2.trans g2, h3.trans g3, h4⟩⟩

theorem State.mainPowerOff_safe (s : State) : s.safe s.mainPowerOff :=
  (State.safe.of_anchor (s.anchor_note _)).trans (State.dropMain_safe _)

theorem State.cutOff_safe (s : State) : s.safe s.cutOff := by
  unfold State.cutOff
  extract_lets sys s1
  have h : s.safe s1 := .of_anchor rfl
  split
  · exact h
  · split
    · exact h.trans s1.mainPowerOff_safe
    · exact h.trans s1.dropMain_safe

theorem State.coldStart_safe (s : State) (pufOk : Bool) (record : Option Nat) : s.safe (s.coldStart pufOk record) := by
  unfold State.coldStart
  extract_lets last time sys s1
  have h : s1.safe ((s1.stepDone 1).stepTwo true pufOk record) := .of_anchor (by simp)
  exact (State.safe.of_anchor rfl : s.safe s1).trans (h.trans (State.powerUpFree_safe _))

theorem State.warmReset_safe (s : State) (role : Nat) (fail : Option (Nat × Nat × Nat)) (bad : List BadWire) :
    s.safe (s.warmReset role fail bad) := by
  obtain ⟨u, h, e | e | ⟨hu, e⟩⟩ := s.warmReset_cases role fail bad
  all_goals rw [e]
  · exact h.safe
  · exact h.safe.trans u.powerUpFree_safe
  · refine h.safe.trans (.of_start (u.startSteps_rewrites true fail bad) ?_)
    rintro ⟨-, -, hm⟩
    exact absurd (hm.symm.trans hu) Bool.false_ne_true

theorem State.commitDone_safe (s : State) (o : Op) (programmed : Bool) : s.safe (s.commitDone o programmed) := by
  unfold State.commitDone
  extract_lets failing s1 fw s2 p r st off c s3 fw3
  split
  · exact .of_anchor (by simp)
  · split
    · have hr : r.2.anchor = s.anchor := s.anchor_endCommit _ _ _
      split
      · exact ((State.safe.of_anchor hr).keeps (State.anchor_stepTwo _ _ _ _)).trans (State.powerUpFree_safe _)
      · exact .of_anchor hr
    · have h3 : s3.anchor = s.anchor := (State.anchor_endCommit _ _ _ _).trans rfl
      exact .of_anchor ((State.anchor_deviceError _ _).trans h3)

theorem State.trip_safe (s : State) (l : SensorLoc) (sensor : Nat) (reading : Half16) : s.safe (s.trip l sensor reading) := by
  unfold State.trip
  extract_lets power s1 s2 s3 sys
  have h2 : s2.anchor = s.anchor := by
    unfold s2
    cases l with
    | half => exact (State.anchor_setSteward _ _ _).trans (s.anchor_note _)
    | hub => exact s.anchor_note _
  have h3 : s.safe s3 := by
    unfold s3
    split
    · exact (State.safe.of_anchor h2).trans s2.dropMain_safe
    · exact .of_anchor h2
  exact ⟨⟨h3.sound.rects, h3.sound.memory⟩, fun _ => rfl, fun g => ⟨(h3.held g).2.1, (h3.held g).2⟩⟩

theorem State.quiesceAll_sys (s : State) : s.quiesceAll.sys = s.sys := rfl

/-- PWR_EN reads deasserted. -/
def State.disabled (s : State) : State := { s with sys := { s.sys with pwrEn := false, ignored := false } }

/-- The loss of main power waits for the quiesce. -/
def State.waning (s : State) : State := { s with sys := { s.sys with quiescing := true } }

theorem execPwrEnDeassert_eq (s : State) : execPwrEnDeassert s =
    .next (if !s.sys.pwrEn then s else if !s.sys.mainOn then s.disabled else s.disabled.waning.quiesceAll) := rfl

theorem execPwrEnDeassert_sound {s t : State} (e : execPwrEnDeassert s = .next t) :
    s.sound t ∧ (s.sys.tripped = true → t.sys.tripped = true) := by
  rw [execPwrEnDeassert_eq] at e
  obtain rfl := Host.Outcome.next.inj e
  have h1 : s.sound s.disabled := ⟨State.rectsApart_of_rects rfl, id⟩
  have h2 : s.disabled.sound s.disabled.waning := ⟨State.rectsApart_of_rects rfl, id⟩
  split
  · exact ⟨.refl s, id⟩
  · split
    · exact ⟨h1, id⟩
    · exact ⟨(h1.trans h2).trans (.of_anchor (State.anchor_quiesceAll _)), id⟩

theorem execThermTripRearm_sound {s t : State} (e : execThermTripRearm s = .next t) : s.sound t ∧ (s.held → t.held) := by
  obtain rfl := Host.Outcome.next.inj e
  split
  · exact ⟨⟨State.rectsApart_of_rects rfl, id⟩, id⟩
  · exact ⟨.refl s, id⟩

theorem execStandbyPowerLost_sound {s t : State} (e : execStandbyPowerLost s = .next t) : s.sound t := by
  obtain rfl := Host.Outcome.next.inj e
  split
  · exact s.unpowered_sound
  · exact .refl s

/-- The commands of power that are safe. -/
def actsOnPower : Instr → Bool
  | .fwCommitComplete _ | .warmReset _ _ | .thermalTrip _ _ _ | .standbyPowerGood _ _ | .pwrEnAssert _ _ | .inputUndervoltage _ | .inputOvervoltage
  | .mainRegulatorFault | .inputWithinRange | .mainPowerOff => true
  | _ => false

theorem execStandbyPowerGood_safe {s t : State} {pufOk recordsOk : Bool} (e : execStandbyPowerGood pufOk recordsOk s = .next t) :
    s.safe t := by
  obtain rfl := Host.Outcome.next.inj e
  split
  · exact .refl s
  · split
    · exact s.coldStart_safe _ _
    · exact (State.safe.of_anchor (s.anchor_draw 3)).trans ((s.draw 3).2.coldStart_safe _ _)

/-- PWR_EN reads asserted, and is ignored while THERM_TRIP is released or a sensor reads 90 °C (R551). -/
def State.asserted (s : State) : State := { s with sys := { s.sys with pwrEn := true, ignored := s.sys.tripped || !s.allCool } }

theorem execPwrEnAssert_eq (fail : Option (Nat × Nat × Nat)) (bad : List BadWire) (s : State) : execPwrEnAssert fail bad s =
    .next (if s.sys.pwrEn then s else if s.asserted.sys.quiescing then s.asserted else s.asserted.powerUp fail bad) := rfl

theorem execPwrEnAssert_safe {s t : State} {fail : Option (Nat × Nat × Nat)} {bad : List BadWire}
    (e : execPwrEnAssert fail bad s = .next t) :
    s.safe t := by
  rw [execPwrEnAssert_eq] at e
  obtain rfl := Host.Outcome.next.inj e
  split
  · exact .refl s
  · next hp =>
    have h : s.safe s.asserted := ⟨⟨State.rectsApart_of_rects rfl, id⟩, id, fun g => absurd g.2.1 hp⟩
    split
    · exact h
    · exact h.trans (s.asserted.powerUp_safe fail bad)

theorem execInputUndervoltage_safe {s t : State} {mv : Nat} (e : execInputUndervoltage mv s = .next t) : s.safe t := by
  unfold execInputUndervoltage at e
  extract_lets sys s1 power s2 at e
  obtain rfl := Host.Outcome.next.inj e
  have h1 : s.safe s1 := .of_anchor rfl
  split
  · exact .refl s
  · split
    · exact h1.trans s1.cutOff_safe
    · exact h1.keeps (by simp [s2])

theorem execMainRegulatorFault_safe {s t : State} (e : execMainRegulatorFault s = .next t) : s.safe t := by
  obtain rfl := Host.Outcome.next.inj e
  have h := s.dropMain_safe
  split
  · next hm =>
    refine ⟨⟨h.sound.rects, h.sound.memory⟩, h.trip, ?_⟩
    rintro ⟨-, -, g⟩
    exact absurd (g.symm.trans hm) Bool.false_ne_true
  · exact .refl s

/-- The input's limit is lifted and the input is back in range. -/
def State.inRange (s : State) : State :=
  let s1 := s.withLimits { s.power with inputCap := none }
  { s1 with sys := { s1.sys with cutOff := false, inputMv := 54000 } }

theorem execInputWithinRange_eq (s : State) :
    execInputWithinRange s = .next (if s.sys.standby then s.inRange.powerUpFree else s) := rfl

theorem execInputWithinRange_safe {s t : State} (e : execInputWithinRange s = .next t) : s.safe t := by
  rw [execInputWithinRange_eq] at e
  obtain rfl := Host.Outcome.next.inj e
  have h1 : s.safe s.inRange := .of_anchor (s.anchor_withLimits { s.power with inputCap := none })
  split
  · exact h1.trans s.inRange.powerUpFree_safe
  · exact .refl s

theorem execWarmReset_safe {s t : State} {fail : Option (Nat × Nat × Nat)} {bad : List BadWire} (e : execWarmReset fail bad s = .next t) :
    s.safe t := by
  obtain rfl := Host.Outcome.next.inj e
  obtain h | ⟨c, payload, s1, hf, h⟩ := s.runThen_cases 0x0A01 _ fun c s1 => s1.warmReset c.role fail bad
  · exact .of_anchor h
  · obtain ⟨hs, -⟩ := Cmd.rules_of_check hf
    rw [h, hs]
    exact (State.safe.of_anchor (State.anchor_respond _ _ _ _ _)).trans (State.warmReset_safe _ _ _ _)

theorem exec_actsOnPower_safe {i : Instr} (hi : actsOnPower i = true) {s t : State} (e : exec i s = .next t) : s.safe t := by
  cases i with
  | standbyPowerGood => exact execStandbyPowerGood_safe e
  | pwrEnAssert => exact execPwrEnAssert_safe e
  | inputUndervoltage => exact execInputUndervoltage_safe e
  | mainRegulatorFault => exact execMainRegulatorFault_safe e
  | inputWithinRange => exact execInputWithinRange_safe e
  | warmReset => exact execWarmReset_safe e
  | inputOvervoltage =>
    obtain rfl := Host.Outcome.next.inj e
    split
    · exact s.cutOff_safe
    · exact .refl s
  | mainPowerOff =>
    obtain rfl := Host.Outcome.next.inj e
    split
    · exact s.mainPowerOff_safe.trans (State.powerUpFree_safe _)
    · exact .refl s
  | thermalTrip l n v =>
    obtain rfl := Host.Outcome.next.inj e
    split
    · exact s.trip_safe _ _ _
    · exact .refl s
  | fwCommitComplete programmed =>
    obtain rfl := Host.Outcome.next.inj e
    split
    · exact s.commitDone_safe _ _
    · exact .refl s
  | _ => exact Bool.noConfusion hi

/-- The commands after which THERM_TRIP or an ignored PWR_EN may stand otherwise. -/
def resetsPower : Instr → Bool
  | .pwrEnDeassert | .standbyPowerLost | .thermTripRearm => true
  | _ => false

/-- Every command is of one of the kinds above. -/
theorem instr_kinds (i : Instr) :
    (!movesAnchor i || (writesMemory i || (changesRects i || (actsOnPower i || resetsPower i)))) = true := by
  cases i <;> rfl

theorem exec_safe {i : Instr} (hi : resetsPower i = false) {s t : State} (e : exec i s = .next t) : s.safe t := by
  have hk := instr_kinds i
  simp only [Bool.or_eq_true, Bool.not_eq_true'] at hk
  obtain h | h | h | h | h := hk
  · exact .of_anchor (exec_keeps_anchor h s t e)
  · exact (exec_rewrites h e).safe
  · exact .of_switches (exec_changesRects_sound h e)
  · exact exec_actsOnPower_safe h e
  · exact absurd (h.symm.trans hi) Bool.noConfusion

end Sys2Proof.Machine

/-! A step: O1, O5, O6 and O7. -/

namespace Sys2Proof.Machine

/-! A cycle. -/

theorem State.leaveWb_sys (s : State) (c : Nat) (e : WbEntry) : (s.leaveWb c e).sys = s.sys := by
  obtain ⟨place, out, h⟩ := (s.updCore c fun k => { k with wb := k.wb.filter (· != e) }).send_shape (e.request c)
  rw [State.leaveWb, h]
  rfl

theorem State.leaveWbs_sys (c : Nat) (l : List WbEntry) (s : State) : (l.foldl (fun (s : State) e => s.leaveWb c e) s).sys = s.sys := by
  induction l generalizing s with
  | nil => rfl
  | cons e l ih => exact (ih _).trans (s.leaveWb_sys c e)

theorem State.coreCycle_sys (s : State) (c : Nat) : (s.coreCycle c).sys = s.sys := by
  obtain ⟨cores, free, k, h, -, -⟩ := s.coreCycle_shape c
  rw [h]
  exact State.leaveWbs_sys c _ _

theorem State.coreCycles_sys (l : List Nat) (s : State) : (l.foldl (fun (s : State) c => s.coreCycle c) s).sys = s.sys := by
  induction l generalizing s with
  | nil => rfl
  | cons c l ih => exact (ih _).trans (s.coreCycle_sys c)

theorem State.tick_sys (s : State) : s.tick.sys = s.sys := State.coreCycles_sys _ s

/-! A step. -/

/-- What any command keeps: rectangles apart and memory canonical. -/
theorem exec_sound {i : Instr} {s t : State} (e : exec i s = .next t) : s.sound t := by
  by_cases hi : resetsPower i = false
  · exact (exec_safe hi e).sound
  · cases i with
    | pwrEnDeassert => exact (execPwrEnDeassert_sound e).1
    | standbyPowerLost => exact execStandbyPowerLost_sound e
    | thermTripRearm => exact (execThermTripRearm_sound e).1
    | _ => exact absurd rfl hi

theorem step_sound {s t : State} (e : step s = .next t) : s.sound t := by
  unfold step at e
  split at e
  · obtain rfl := Host.Outcome.next.inj e
    exact .of_anchor s.anchor_tick
  · next c rest _ =>
    have h : s.sound { s with pending := rest } := .of_anchor rfl
    exact h.trans (exec_sound e)

/-- Settles O1: `step` is this match on the queue. -/
theorem stepRunsFront : Obligations.StepRunsFront := by
  unfold Obligations.StepRunsFront
  exact fun _ _ _ => rfl

/-- Settles O5: a rectangle is set only by a command that has checked it against those of the other partitions. -/
theorem rectanglesStayApart : Obligations.RectanglesStayApart := by
  unfold Obligations.RectanglesStayApart
  exact fun _ _ h e => (step_sound e).rects h

/-- Settles O6: every write of the store goes through the operations that keep the canonical form. -/
theorem memoryStaysCanonical : Obligations.MemoryStaysCanonical := by
  unfold Obligations.MemoryStaysCanonical
  exact fun _ _ h e => (step_sound e).memory h

/-! THERM_TRIP. -/

theorem exec_trip {c : Instr} {s t : State} (h : s.sys.tripped = true) (e : exec c s = .next t) (hc : c ≠ .standbyPowerLost)
    (hr : c = .thermTripRearm → s.sys.pwrEn = true ∨ s.allCool = false) : t.sys.tripped = true := by
  by_cases hi : resetsPower c = false
  · exact (exec_safe hi e).trip h
  · cases c with
    | pwrEnDeassert => exact (execPwrEnDeassert_sound e).2 h
    | standbyPowerLost => exact absurd rfl hc
    | thermTripRearm =>
      obtain rfl := Host.Outcome.next.inj e
      have hn : ¬ (s.sys.tripped && !s.sys.pwrEn && s.allCool) = true := by
        obtain g | g := hr rfl <;> simp [g]
      rw [if_neg hn]
      exact h
    | _ => exact absurd rfl hi

theorem exec_held {c : Instr} {s t : State} (h : s.held) (e : exec c s = .next t) (hd : c ≠ .pwrEnDeassert) (hl : c ≠ .standbyPowerLost) :
    t.held := by
  by_cases hi : resetsPower c = false
  · exact (exec_safe hi e).held h
  · cases c with
    | pwrEnDeassert => exact absurd rfl hd
    | standbyPowerLost => exact absurd rfl hl
    | thermTripRearm => exact (execThermTripRearm_sound e).2 h
    | _ => exact absurd rfl hi

/-- An assertion that is ignored starts nothing. -/
theorem execPwrEnAssert_of_hot {s : State} (fail : Option (Nat × Nat × Nat)) (bad : List BadWire) (hp : s.sys.pwrEn = false)
    (h : s.sys.tripped = true ∨ s.allCool = false) : execPwrEnAssert fail bad s = .next s.asserted := by
  have hi : s.asserted.sys.ignored = true := by
    obtain g | g := h <;> simp [State.asserted, g]
  have hm : s.asserted.mayPower = false := by simp [State.mayPower, hi]
  have hu : s.asserted.powerUp fail bad = s.asserted := by simp [State.powerUp, hm]
  rw [execPwrEnAssert_eq, hu, hp]
  simp only [Bool.false_eq_true, if_false, ite_self]

/-- Settles O7: only three commands touch the released trip or an ignored PWR_EN, and an assertion that is ignored starts nothing. -/
theorem thermTripHolds : Obligations.ThermTripHolds := by
  unfold Obligations.ThermTripHolds
  refine ⟨fun c s t h e hc hr => exec_trip h e hc hr, State.tick_sys, fun s h => ⟨fun hs => ⟨_, rfl, ?_⟩, fun hp hc => ⟨_, rfl, ?_⟩⟩,
    fun s fail bad hp h => ⟨_, execPwrEnAssert_of_hot fail bad hp h, ?_⟩, fun c s t hi hp hm e hd hl => exec_held ⟨hi, hp, hm⟩ e hd hl⟩
  · rw [if_pos hs]
    rfl
  · simp [h, hp, hc]
  · obtain g | g := h <;> simp [State.asserted, g]

end Sys2Proof.Machine

/-! The loss of main power: O60. -/

namespace Sys2Proof.Machine

/-! What the loss of main power leaves of the counts of the bounds. -/

theorem State.used_of_raised {u t : State} (h : u.raised t) : t.fw.used = u.fw.used := (congrArg (fun x : State => x.fw.used) h.2 :)

@[simp] theorem State.used_note (s : State) (i : LogItem) : (s.note i).fw.used = s.fw.used :=
  (congrArg (fun x : State => x.fw.used) (s.note_rest i) :)

@[simp] theorem State.used_mbxEvent (s : State) (m type : Nat) (payload : List Byte) : (s.mbxEvent m type payload).fw.used = s.fw.used :=
  State.used_of_raised (s.raised_mbxEvent _ _ _)

@[simp] theorem State.used_responseFrame (s : State) (body : List Byte) : (s.responseFrame body).fw.used = s.fw.used :=
  State.used_of_raised (s.raised_responseFrame _)

@[simp] theorem State.used_opDone (s : State) (id status : Nat) (cancelled : Bool) (result : List Byte) :
    (s.opDone id status cancelled result).fw.used = s.fw.used := (State.used_of_raised (s.raised_opDone _ _ _ _) :)

@[simp] theorem State.used_respond (s : State) (c : Cmd) (status detail : Nat) (payload : List Byte) :
    (s.respond c status detail payload).fw.used = s.fw.used := by
  unfold State.respond
  extract_lets body v s0 b s1 s2
  have h2 : s2.fw.used = s.fw.used := by
    unfold s2
    split
    · exact State.used_responseFrame _ _
    · rfl
  split
  · rfl
  · split
    · exact (State.used_mbxEvent _ _ _ _).trans h2
    · exact h2

@[simp] theorem State.used_cancelOffMain (s : State) : s.cancelOffMain.fw.used = s.fw.used := by
  unfold State.cancelOffMain
  extract_lets s1
  have h1 : s1.fw.used = s.fw.used := by
    unfold s1
    repeat' split
    all_goals simp
  refine List.foldlRecOn (motive := fun t : State => t.fw.used = s.fw.used) _ _ h1 fun t ht o _ => ?_
  exact (State.used_opDone _ _ _ _ _).trans ht

@[simp] theorem State.used_merMove (s : State) (st : MerState) (lost : Nat) : (s.merMove st lost).fw.used = s.fw.used :=
  (State.used_of_raised (State.raised_post _ _ _ _)).trans (State.used_note _ _)

theorem State.used_dropMain (s : State) : s.dropMain.fw.used = s.fw.used := by
  unfold State.dropMain
  extract_lets s1 s2 s3 halted
  have h1 : s1.fw.used = s.fw.used := s.used_cancelOffMain
  have h2 : s2.fw.used = s.fw.used := by
    unfold s2
    split
    · exact (State.used_merMove _ _ _).trans h1
    · exact h1
  change s3.fw.used = s.fw.used
  unfold s3
  split
  · exact h2
  · exact h2

/-! Main power goes. -/

theorem State.note_sys (s : State) (i : LogItem) : (s.note i).sys = s.sys := (congrArg (fun x : State => x.sys) (s.note_rest i) :)

/-- Main power is gone: memory of Tiers 1 and 2 and the work are lost, Tier 3 and the counts of the bounds stand. -/
structure State.lost (s t : State) : Prop where
  mainOn   : t.sys.mainOn = false
  pwrGood  : t.sys.pwrGood = false
  rects    : t.rects = []
  mem      : t.store.mem = []
  parts    : t.work.parts = []
  launches : t.work.launches = []
  queues   : t.work.queues = []
  flash    : t.store.flash = s.store.flash
  used     : t.fw.used = s.fw.used

theorem State.lost.of_same {s u t : State} (h : u.lost t) (hflash : u.store.flash = s.store.flash) (hused : u.fw.used = s.fw.used) : s.lost t :=
  { h with flash := h.flash.trans hflash, used := h.used.trans hused }

theorem State.dropMain_switches (s : State) :
    s.dropMain.sys.tripped = s.sys.tripped ∧ s.dropMain.sys.ignored = s.sys.ignored ∧ s.dropMain.sys.pwrEn = s.sys.pwrEn := by
  obtain ⟨-, -, h⟩ := s.dropMain_leaves
  simp only [State.switches, Prod.mk.injEq] at h
  exact ⟨h.1, h.2.1, h.2.2.1⟩

theorem State.dropMain_lost (s : State) : s.lost s.dropMain := by
  obtain ⟨hrects, hstore, -⟩ := s.dropMain_leaves
  exact ⟨rfl, rfl, hrects, by rw [hstore], rfl, rfl, rfl, by rw [hstore], s.used_dropMain⟩

theorem State.mainPowerOff_lost (s : State) : s.lost s.mainPowerOff :=
  (State.dropMain_lost _).of_same (congrArg Store.flash (s.store_note _)) (s.used_note _)

theorem State.cutOff_lost {s : State} (h : s.sys.mainOn = true) : s.lost s.cutOff := by
  unfold State.cutOff
  extract_lets sys s1
  rw [if_neg (by simp [h])]
  split
  · exact s1.mainPowerOff_lost.of_same rfl rfl
  · exact s1.dropMain_lost.of_same rfl rfl

theorem State.powerUpFree_of_disabled {s : State} (h : s.sys.pwrEn = false) : s.powerUpFree = s := by
  simp [State.powerUpFree, State.mayPower, h]

/-- Each of the events of R535 drops main power at once. -/
theorem exec_losesMain {s : State} {i : Instr} (hi : i ∈ [Instr.mainPowerOff, .inputUndervoltage 43999, .inputOvervoltage, .mainRegulatorFault])
    (hm : s.sys.mainOn = true) (hs : s.sys.standby = true) (hq : i = .mainPowerOff → s.sys.quiescing = true ∧ s.sys.pwrEn = false) :
    ∃ t, exec i s = .next t ∧ s.lost t ∧ (i = .mainRegulatorFault → t.sys.ignored = s.sys.pwrEn) := by
  simp only [List.mem_cons, List.not_mem_nil, or_false] at hi
  obtain rfl | rfl | rfl | rfl := hi
  · obtain ⟨hquiesce, hp⟩ := hq rfl
    have hoff : s.mainPowerOff.sys.pwrEn = false :=
      (State.dropMain_switches _).2.2.trans ((congrArg Sys.pwrEn (s.note_sys _)).trans hp)
    refine ⟨s.mainPowerOff, ?_, s.mainPowerOff_lost, nofun⟩
    exact congrArg Host.Outcome.next ((if_pos hquiesce).trans (State.powerUpFree_of_disabled hoff))
  · refine ⟨({ s with sys := { s.sys with inputMv := 43999 } } : State).cutOff, ?_, ?_, nofun⟩
    · exact congrArg Host.Outcome.next ((if_neg (by simp [hs])).trans (if_pos (by decide)))
    · exact (State.cutOff_lost (s := { s with sys := { s.sys with inputMv := 43999 } }) hm).of_same rfl rfl
  · exact ⟨s.cutOff, congrArg Host.Outcome.next (if_pos hs), State.cutOff_lost hm, nofun⟩
  · refine ⟨_, congrArg Host.Outcome.next (if_pos hm), ?_, fun _ => rfl⟩
    obtain ⟨h1, h2, h3, h4, h5, h6, h7, h8, h9⟩ := s.dropMain_lost
    exact ⟨h1, h2, h3, h4, h5, h6, h7, h8, h9⟩

/-- A trip drops main power, and ignores the PWR_EN that stands (R551). -/
theorem State.trip_drops (s : State) (l : SensorLoc) (sensor : Nat) (reading : Half16) :
    (s.trip l sensor reading).sys.tripped = true ∧ (s.trip l sensor reading).sys.mainOn = false ∧
      (s.trip l sensor reading).sys.ignored = s.sys.pwrEn ∧ (s.trip l sensor reading).store.flash = s.store.flash := by
  unfold State.trip
  extract_lets power s1 s2 s3 sys
  have h2 : s2.sys = s.sys ∧ s2.store = s.store := by
    unfold s2
    cases l with
    | half => exact ⟨s.note_sys _, s.store_note _⟩
    | hub => exact ⟨s.note_sys _, s.store_note _⟩
  obtain ⟨hsys, hstore⟩ := h2
  have h3 : s3.sys.mainOn = false ∧ s3.sys.pwrEn = s2.sys.pwrEn ∧ s3.store.flash = s2.store.flash := by
    unfold s3
    split
    · exact ⟨rfl, s2.dropMain_switches.2.2, s2.dropMain_lost.flash⟩
    · next hoff => exact ⟨Bool.eq_false_iff.2 hoff, rfl, rfl⟩
  obtain ⟨hmain, hpwr, hflash⟩ := h3
  exact ⟨rfl, hmain, hpwr.trans (congrArg Sys.pwrEn hsys), hflash.trans (congrArg Store.flash hstore)⟩

theorem Power.limit_le_of_cap {p : Power} {c : Nat} (h : p.inputCap = some c) : p.limit ≤ c := by
  simp only [Power.limit, h]
  exact Nat.min_le_right _ _

/-- The limit of the input is in force, and the samples of the mean start again when it moves the limit. -/
theorem State.withLimits_power (s : State) (p : Power) :
    (s.withLimits p).power.inputCap = p.inputCap ∧ (s.withLimits p).power.limit = p.limit := by
  unfold State.withLimits
  split
  · exact ⟨rfl, rfl⟩
  · exact ⟨rfl, rfl⟩

theorem State.raised_postBoth (s : State) (type : Nat) (payload : List Byte) : s.raised (s.postBoth type payload) :=
  State.raised_trans (State.raised_post _ _ _ _) (State.raised_consoleEvent _ _ _)

theorem State.raised_power {u t : State} (h : u.raised t) : t.power = u.power := (congrArg State.power h.2 :)

/-- The input reads `mv`, which limits the power. -/
def State.lowInput (s : State) (mv : Nat) : State :=
  ({ s with sys := { s.sys with inputMv := mv } } : State).withLimits { s.power with inputCap := some (142 * mv / 1000) }

/-- A low input limits the power, and changes nothing else that computes (R462). -/
theorem execInputUndervoltage_low {s : State} {mv : Nat} (hs : s.sys.standby = true) (hlow : 44000 ≤ mv) (hhigh : mv < 48000) :
    ∃ t, execInputUndervoltage mv s = .next t ∧ t.sys.inputMv = mv ∧ t.power.inputCap = some (142 * mv / 1000) ∧
      t.power.limit ≤ 142 * mv / 1000 ∧ t.sys.mainOn = s.sys.mainOn ∧ t.cores = s.cores := by
  obtain ⟨hcap, hlimit⟩ :=
    State.withLimits_power { s with sys := { s.sys with inputMv := mv } } { s.power with inputCap := some (142 * mv / 1000) }
  have hr := (s.lowInput mv).raised_postBoth 0x22 (leBytes 4 (s.lowInput mv).power.limit ++ leBytes 1 0)
  have hsys := State.raised_sys hr
  have hpower := State.raised_power hr
  refine ⟨(s.lowInput mv).postBoth 0x22 (leBytes 4 (s.lowInput mv).power.limit ++ leBytes 1 0),
    congrArg Host.Outcome.next ((if_neg (by simp [hs, hhigh])).trans (if_neg (Nat.not_lt.2 hlow))), ?_, ?_, ?_, ?_, ?_⟩
  · exact congrArg Sys.inputMv hsys
  · exact (congrArg Power.inputCap hpower).trans hcap
  · exact ((congrArg Power.limit hpower).trans hlimit).trans_le (Power.limit_le_of_cap rfl)
  · exact (congrArg Sys.mainOn hsys :)
  · exact (State.raised_cores hr :)

/-- Settles O60, by what `dropMain` leaves. -/
theorem powerLoss : Obligations.PowerLoss := by
  unfold Obligations.PowerLoss
  refine fun s => ⟨fun hp => ⟨fun hm => ?off, fun hm => ?quiesce⟩,
    fun hs => ⟨fun mv hlow hhigh => execInputUndervoltage_low hs hlow hhigh, fun hp => ?range, fun l n v hv => ?trip⟩,
    fun ht hp hc => ?rearm, fun i hi hm hs hq => ?loss⟩
  case off => exact ⟨_, congrArg Host.Outcome.next ((if_neg (by simp [hp])).trans (if_pos (by simp [hm]))), rfl⟩
  case quiesce =>
    refine ⟨s.disabled.waning.quiesceAll, congrArg Host.Outcome.next ((if_neg (by simp [hp])).trans (if_neg (by simp [hm]))), rfl, rfl, rfl, rfl,
      fun p y hy => ?_⟩
    exact s.disabled.waning.part_stopped s.log hy
  case range =>
    have hoff : s.inRange.powerUpFree = s.inRange := State.powerUpFree_of_disabled hp
    exact ⟨s.inRange, congrArg Host.Outcome.next ((if_pos hs).trans hoff), rfl, (s.withLimits_power _).1, rfl⟩
  case trip =>
    exact ⟨_, congrArg Host.Outcome.next (if_pos (by simp [hs, hv])), s.trip_drops l n.val v⟩
  case rearm => exact ⟨_, congrArg Host.Outcome.next (if_pos (by simp [ht, hp, hc])), rfl⟩
  case loss =>
    obtain ⟨t, hexec, ⟨h1, h2, h3, h4, h5, h6, h7, h8, h9⟩, hignored⟩ := exec_losesMain hi hm hs hq
    exact ⟨t, hexec, h1, h2, h3, h4, h5, h6, h7, h8, h9, hignored⟩

end Sys2Proof.Machine

/-! Meridian time: O53. -/

namespace Sys2Proof.Machine

/-! Meridian time. -/

theorem State.raised_time {u t : State} (h : u.raised t) : t.time = u.time := (congrArg State.time h.2 :)

@[simp] theorem State.time_warn (s : State) (i : LogItem) : (s.warn i).time = s.time := by
  obtain ⟨log, h⟩ := s.warn_raised i
  exact (State.raised_time h :)

/-- `s` with the lock state `st`. -/
def State.withLock (s : State) (st : MerState) : State := { s with time := { s.time with state := st, good := 0 } }

/-- A new lock state changes it and the logbook, and raises an event. -/
theorem State.merMove_raised (s : State) (st : MerState) (lost : Nat) : ∃ log, ({ s.withLock st with log } : State).raised (s.merMove st lost) := by
  refine ⟨((s.withLock st).logPut { code := 0x0504, severity := 0, cause := st.code, data := leBytes 8 (wrapNat 64 s.time.offset) }).2.log, ?_⟩
  rw [← State.logPut_shape]
  exact State.raised_post _ _ _ _

theorem State.time_merMove (s : State) (st : MerState) (lost : Nat) : (s.merMove st lost).time = { s.time with state := st, good := 0 } := by
  obtain ⟨log, h⟩ := s.merMove_raised st lost
  exact (State.raised_time h :)

theorem State.cores_merMove (s : State) (st : MerState) (lost : Nat) : (s.merMove st lost).cores = s.cores := by
  obtain ⟨log, h⟩ := s.merMove_raised st lost
  exact (State.raised_cores h :)

theorem State.work_merMove (s : State) (st : MerState) (lost : Nat) : (s.merMove st lost).work = s.work := by
  obtain ⟨log, h⟩ := s.merMove_raised st lost
  exact (State.raised_work h :)

/-- What a correction leaves of the meridian, and the slew of a small offset (R407). -/
theorem State.merCorrect_keeps (s : State) (o : Int) :
    (s.merCorrect o).cores = s.cores ∧ (s.merCorrect o).time.state = s.time.state ∧ (s.merCorrect o).time.offset = s.time.offset ∧
      (s.merCorrect o).time.quiet = s.time.quiet ∧ (o ≤ 1000000 → (s.merCorrect o).time.slew = 10 * o) := by
  unfold State.merCorrect
  split
  · exact ⟨rfl, rfl, rfl, rfl, fun _ => rfl⟩
  · next h =>
    rw [State.cores_warn, State.time_warn]
    exact ⟨rfl, rfl, rfl, rfl, fun g => absurd g h⟩

/-- Die counter `i` after the counters of `l` have moved. -/
theorem get_dies_foldl (f : Nat → Nat) (l : List Nat) (m : SMap Nat) (d : Nat) :
    SMap.get 0 (l.foldl (fun a i => SMap.set 0 a i (f i)) m) d = if d ∈ l then f d else SMap.get 0 m d := by
  induction l generalizing m with
  | nil => rfl
  | cons i l ih =>
    rw [List.foldl_cons, ih, SMap.get_set]
    by_cases hi : i = d
    · subst hi
      simp
    · simp [hi, Ne.symm hi]

theorem Meridian.beat_dies (m : Meridian) (dies : Bool) {d : Nat} (hd : d < 8) :
    SMap.get 0 (m.beat dies).dies d = if dies = true then dieAfter (SMap.get 0 m.dies d) (m.beat dies).master else SMap.get 0 m.dies d := by
  unfold Meridian.beat
  dsimp only
  split
  · rw [get_dies_foldl, if_pos (List.mem_range.2 hd)]
  · rfl

/-- A beat adds 1 µs and the part of the slew to the master, in tenths of a nanosecond. -/
theorem Meridian.beat_master (m : Meridian) (dies : Bool) :
    ((10 * (m.beat dies).master + (m.beat dies).frac : Nat) : Int) = 10 * m.master + m.frac + 10000 + slewPart m.slew ∧
      (m.beat dies).frac < 10 := by
  have hpart : -2 ≤ slewPart m.slew := le_max_left _ _
  unfold Meridian.beat
  dsimp only
  omega

/-- The first measurement in UNSET sets the master. -/
theorem State.measure_unset {s : State} (h : s.time.state = .unset) (hs : s.time.stepped = false) (o : Int) :
    s.measure o = { s with time := { s.time with
      offset := o, quiet := 0, good := 0, master := ((s.time.master : Int) + o).toNat, stepped := true } } := by
  simp [State.measure, h, hs]

/-- A measurement while locked: the offset is corrected, and one beyond 1 µs loses the lock. -/
theorem State.measure_locked {s : State} (h : s.time.state = .locked) (o : Int) :
    (s.measure o).cores = s.cores ∧ (s.measure o).time.offset = o ∧ (s.measure o).time.quiet = 0 ∧
      (s.measure o).time.state = (if o < -1000 ∨ 1000 < o then .holdover else .locked) ∧
      (o ≤ 1000000 → (s.measure o).time.slew = 10 * o) := by
  unfold State.measure
  extract_lets m near m1 s1 s2
  obtain ⟨hcores, hstate, hoffset, hquiet, hslew⟩ := s1.merCorrect_keeps o
  simp only [m, h]
  by_cases ho : o < -1000 ∨ 1000 < o
  · rw [if_pos (by simpa using ho), if_pos ho, State.cores_merMove, State.time_merMove]
    exact ⟨hcores, hoffset, hquiet, rfl, hslew⟩
  · rw [if_neg (by simpa using ho), if_neg ho]
    exact ⟨hcores, hoffset, hquiet, hstate.trans h, hslew⟩

/-- A measurement in holdover: the eighth within 100 ns in a row locks. -/
theorem State.measure_holdover {s : State} (h : s.time.state = .holdover) (o : Int) :
    (s.measure o).cores = s.cores ∧ (s.measure o).time.state = if -100 ≤ o ∧ o ≤ 100 ∧ 7 ≤ s.time.good then .locked else .holdover := by
  unfold State.measure
  extract_lets m near m1 s1 s2
  obtain ⟨hcores, hstate, -⟩ := s1.merCorrect_keeps o
  have hgood : 8 ≤ m1.good ↔ -100 ≤ o ∧ o ≤ 100 ∧ 7 ≤ s.time.good := by
    by_cases hnear : -100 ≤ o ∧ o ≤ 100
    · simp [m1, near, hnear, m]
    · simp only [m1, near, hnear, decide_false, Bool.false_eq_true, if_false]
      omega
  simp only [m, h]
  by_cases hg : 8 ≤ m1.good
  · rw [if_pos hg, if_pos (hgood.1 hg), State.cores_merMove, State.time_merMove]
    exact ⟨hcores, rfl⟩
  · rw [if_neg hg, if_neg (mt hgood.2 hg)]
    exact ⟨hcores, hstate.trans h⟩

/-- The loss of the beats halts the module, and stops its partitions. -/
theorem execMeridianBeatLoss_halts (s : State) (d : DieIdx) :
    ∃ t, execMeridianBeatLoss d s = .next t ∧ t.sys.state = 3 ∧ t.store.mem = s.store.mem ∧ t.rects = s.rects ∧
      ∀ p y, t.part p = some y → y.state ≠ .running := by
  unfold execMeridianBeatLoss
  extract_lets f
  generalize hu : f.2.abortRunning (0x20 + f.1.toNat) = u
  have hanchor : (u.deviceError { code := 0x0503, severity := 3, source := 1, unit := d.val, data := leBytes 1 d }).anchor = s.anchor := by
    rw [State.anchor_deviceError, ← hu, State.anchor_abortRunning]
    rfl
  obtain ⟨log, hr⟩ := u.deviceError_raised { code := 0x0503, severity := 3, source := 1, unit := d.val, data := leBytes 1 d }
  refine ⟨_, rfl, u.sysState_deviceError _, congrArg Anchor.mem hanchor, congrArg Anchor.rects hanchor, fun p y hy => ?_⟩
  exact u.part_stopped log ((congrArg (fun w : Work => SMap.get none w.parts p) (State.raised_work hr)).symm.trans hy)

/-- Settles O53, by what a beat, a measurement in each lock state and the loss of the beats do. -/
theorem meridianTime : Obligations.MeridianTime := by
  unfold Obligations.MeridianTime
  rintro s m rfl
  have hruns (hsource : s.time.source = 0) (hup : s.sys.valacUp = true) : ¬(s.time.source != 0 || !s.sys.valacUp) = true := by
    simp [hsource, hup]
  refine ⟨fun hup => ?beat, fun hsource hup o => ⟨?arb, fun hstate hstepped => ?unset, fun hstate => ?locked, fun hstate => ?holdover⟩,
    fun hstate hquiet => ?loss, execMeridianBeatLoss_halts s⟩
  case beat =>
    obtain ⟨hmaster, hfrac⟩ := s.time.beat_master s.diesRun
    exact ⟨_, congrArg Host.Outcome.next (if_pos hup), rfl, rfl, rfl, rfl, hmaster, hfrac, fun d hd => s.time.beat_dies s.diesRun hd⟩
  case arb => exact ⟨_, congrArg Host.Outcome.next ((if_neg (hruns hsource hup)).trans (if_pos rfl)), s.time_warn _, s.cores_warn _⟩
  case unset =>
    have hset := State.measure_unset hstate hstepped o
    exact ⟨_, congrArg Host.Outcome.next ((if_neg (hruns hsource hup)).trans ((if_neg Bool.false_ne_true).trans hset)), rfl, rfl, rfl, hstate⟩
  case locked =>
    exact ⟨_, congrArg Host.Outcome.next ((if_neg (hruns hsource hup)).trans (if_neg Bool.false_ne_true)), State.measure_locked hstate o⟩
  case holdover =>
    exact ⟨_, congrArg Host.Outcome.next ((if_neg (hruns hsource hup)).trans (if_neg Bool.false_ne_true)), State.measure_holdover hstate o⟩
  case loss =>
    exact ⟨_, congrArg Host.Outcome.next (if_pos (by simp [hstate, hquiet])), s.time_merMove _ _, s.cores_merMove _ _, s.work_merMove _ _⟩

end Sys2Proof.Machine

/-! The speculum link and pairing: O55. -/

namespace Sys2Proof.Machine

/-! The speculum link. -/

theorem State.raised_twin {u t : State} (h : u.raised t) : t.twin = u.twin := (congrArg State.twin h.2 :)

@[simp] theorem State.twin_warn (s : State) (i : LogItem) : (s.warn i).twin = s.twin := by
  obtain ⟨log, h⟩ := s.warn_raised i
  exact (State.raised_twin h :)

/-- A count of the speculum link changes its counters only. -/
theorem State.specCount_eq (s : State) (off n : Nat) :
    s.specCount off n = { s with twin := { s.twin with counters := (s.specCount off n).twin.counters } } := rfl

theorem State.get_specCount (s : State) (off n : Nat) :
    SMap.get 0 (s.specCount off n).twin.counters off = SMap.get 0 s.twin.counters off + BitVec.ofNat 64 n := by
  refine (SMap.get_bump _ _ _ _).trans ?_
  rw [if_pos rfl]

/-- The flit that is expected moves the sequence number (R467). -/
theorem execSpecFlitReceive_expected {s : State} {seq : BitVec 16} (hrate : s.twin.rate ≠ 0) (hseq : seq.toNat = s.twin.expected) :
    execSpecFlitReceive seq true none s = .next
      (({ s with twin := { s.twin with expected := (s.twin.expected + 1) % 65536, nakSent := false } } : State).specCount 0x200 1) := by
  simp only [execSpecFlitReceive, if_neg hrate, hseq, Bool.true_and, beq_self_eq_true, if_true]

/-- A flit with a bad CRC is NAKed, once (R467). -/
theorem execSpecFlitReceive_bad {s : State} {seq : BitVec 16} (ack : Option (BitVec 16)) (hrate : s.twin.rate ≠ 0) :
    ∃ t, execSpecFlitReceive seq false ack s = .next t ∧ t.twin.expected = s.twin.expected ∧ t.twin.nakSent = true ∧ t.store = s.store ∧
      t.out = if s.twin.nakSent then s.out else .specNak s.twin.expected :: s.out := by
  unfold execSpecFlitReceive
  rw [if_neg hrate]
  simp only [Bool.false_and, Bool.false_eq_true, if_false]
  by_cases hn : s.twin.nakSent = true
  · rw [if_pos hn, if_pos hn]
    exact ⟨_, rfl, rfl, hn, rfl, rfl⟩
  · rw [if_neg hn, if_neg hn]
    exact ⟨_, rfl, rfl, rfl, rfl, rfl⟩

/-- The lanes of the receiver after lane `bad` has failed, before the link changes its rate. -/
def State.withBadLanes (s : State) (bad : BitVec 18) : State :=
  { s with twin := { s.twin with
    rxBad := bad, rxActive := if 16 ≤ 18 - countBits bad && !s.twin.halfRate then 16 else if 8 ≤ 18 - countBits bad then 8 else 0 } }

/-- Lane failures use up the spares, then halve the rate, then take the link down (R469, R470). -/
theorem execSpecLaneFail_falls {s : State} (lane : Fin 18) {bad : BitVec 18} (hrate : s.twin.rate ≠ 0)
    (hbad : bad = s.twin.rxBad ||| BitVec.ofNat 18 (2 ^ lane.val)) :
    ∃ t, execSpecLaneFail lane s = .next t ∧ t.twin.rxBad = bad ∧ t.store = s.store ∧
      (16 ≤ 18 - countBits bad → t.twin.rate = s.twin.rate ∧ t.twin.halfRate = s.twin.halfRate) ∧
      (18 - countBits bad < 16 → 8 ≤ 18 - countBits bad → t.twin.rate = s.twin.rate ∧ t.twin.halfRate = true ∧ t.twin.rxActive = 8) ∧
      (18 - countBits bad < 8 → t.twin.rate = 0) := by
  have hactive (h16 : 18 - countBits bad < 16) (h8 : 8 ≤ 18 - countBits bad) : (s.withBadLanes bad).twin.rxActive = 8 := by
    simp [State.withBadLanes, Nat.not_le.2 h16, h8]
  unfold execSpecLaneFail
  rw [if_neg hrate]
  simp only [← hbad]
  by_cases h8 : 18 - countBits bad < 8
  · rw [if_pos h8]
    exact ⟨_, rfl, rfl, rfl, fun h => absurd h (by omega), fun _ h => absurd h (by omega), fun _ => rfl⟩
  · rw [if_neg h8]
    by_cases hhalve : (decide (18 - countBits bad < 16) && !s.twin.halfRate) = true
    · rw [if_pos hhalve]
      simp only [Bool.and_eq_true, decide_eq_true_eq] at hhalve
      refine ⟨_, rfl, ?_, State.store_warn _ _, fun h => absurd h (by omega), fun h16 h8' => ?_, fun h => absurd h h8⟩
      · rw [State.twin_warn]
        rfl
      · rw [State.twin_warn]
        exact ⟨rfl, rfl, hactive h16 h8'⟩
    · rw [if_neg hhalve]
      refine ⟨_, rfl, rfl, rfl, fun _ => ⟨rfl, rfl⟩, fun h16 h8' => ⟨rfl, ?_, hactive h16 h8'⟩, fun h => absurd h h8⟩
      simpa [h16] using hhalve

/-! Pairing. -/

/-- The ends of operations leave the module and the other operations. -/
theorem State.opsDone_leaves (status : Nat) (l : List Op) (s : State) :
    (∀ o ∈ (l.foldl (fun (s : State) o => s.opDone o.id status false []) s).valac.ops, o ∈ s.valac.ops ∧ ∀ p ∈ l, o.id ≠ p.id) ∧
      (l.foldl (fun (s : State) o => s.opDone o.id status false []) s).twin = s.twin ∧
      (l.foldl (fun (s : State) o => s.opDone o.id status false []) s).cores = s.cores ∧
      (l.foldl (fun (s : State) o => s.opDone o.id status false []) s).store = s.store := by
  induction l generalizing s with
  | nil => exact ⟨fun o ho => ⟨ho, nofun⟩, rfl, rfl, rfl⟩
  | cons p l ih =>
    have hr := s.raised_opDone p.id status false []
    obtain ⟨hops, htwin, hcores, hstore⟩ := ih (s.opDone p.id status false [])
    refine ⟨fun o ho => ?_, htwin.trans (State.raised_twin hr :), hcores.trans (State.raised_cores hr :),
      hstore.trans (State.raised_store hr :)⟩
    obtain ⟨hmem, hne⟩ := hops o ho
    rw [State.raised_ops hr] at hmem
    obtain ⟨hin, hp⟩ := List.mem_filter.1 hmem
    exact ⟨hin, List.forall_mem_cons.2 ⟨by simpa using hp, hne⟩⟩

/-- No open PAIR is left, and the module is as it was. -/
theorem State.endPair_leaves (s : State) (status : Nat) :
    (s.endPair status).twin = s.twin ∧ (s.endPair status).cores = s.cores ∧ (s.endPair status).store = s.store ∧
      ∀ o ∈ (s.endPair status).valac.ops, o.cmd.opcode ≠ 0x0700 := by
  obtain ⟨hops, htwin, hcores, hstore⟩ := State.opsDone_leaves status (s.valac.ops.filter fun o => o.cmd.opcode == 0x0700) s
  refine ⟨htwin, hcores, hstore, fun o ho hpair => ?_⟩
  obtain ⟨hin, hne⟩ := hops o ho
  exact hne o (List.mem_filter.2 ⟨hin, by simp [hpair]⟩) rfl

/-- `t` is `s` but for the twin's windows and records sent to it. -/
structure State.offered (s t : State) : Prop where
  state  : t.twin.state = s.twin.state
  secver : t.twin.peerSecver = s.twin.peerSecver
  store  : t.store = s.store
  valac  : t.valac = s.valac

theorem State.offered.trans {s t u : State} (h : s.offered t) (g : t.offered u) : s.offered u :=
  ⟨g.state.trans h.state, g.secver.trans h.secver, g.store.trans h.store, g.valac.trans h.valac⟩

theorem State.windowTry_offered (s : State) (w : Nat) : s.offered (s.windowTry w) := by
  unfold State.windowTry
  dsimp only
  split
  · exact ⟨rfl, rfl, rfl, rfl⟩
  · exact ⟨rfl, rfl, rfl, rfl⟩

theorem State.offerWindow_offered (s : State) (w : Nat) : s.offered (s.offerWindow w) := ⟨rfl, rfl, rfl, rfl⟩

theorem State.offers_offered (ws : List Nat) (s : State) : s.offered (ws.foldl (fun s w => (s.offerWindow w).windowTry w) s) := by
  induction ws generalizing s with
  | nil => exact ⟨rfl, rfl, rfl, rfl⟩
  | cons w ws ih => exact ((s.offerWindow_offered w).trans (State.windowTry_offered _ w)).trans (ih _)

/-- The check of R471 that a proof of the peer fails, 0 for none. -/
def State.proofFails (s : State) (chainOk keyOk versionOk signatureOk : Bool) (secver : Byte) : Nat :=
  if !chainOk then 1 else if !(keyOk && s.fw.pairId.isSome) then 2 else if secver.toNat < s.fw.floor then 3
  else if !versionOk then 4 else if !signatureOk then 5 else 0

theorem State.proofFails_eq_zero (s : State) (chainOk keyOk versionOk signatureOk : Bool) (secver : Byte) :
    s.proofFails chainOk keyOk versionOk signatureOk secver = 0 ↔
      chainOk = true ∧ keyOk = true ∧ s.fw.pairId.isSome ∧ s.fw.floor ≤ secver.toNat ∧ versionOk = true ∧ signatureOk = true := by
  unfold State.proofFails
  generalize s.fw.pairId.isSome = held
  constructor
  · intro h
    split_ifs at h
    simp_all
  · rintro ⟨rfl, rfl, rfl, hfloor, rfl, rfl⟩
    simp [hfloor]

/-- A proof that both sides accept pairs the modules, and ends an open PAIR. -/
theorem execPairingMessage_accepted {s : State} (h : s.twin.state = .attesting) {chainOk keyOk versionOk signatureOk : Bool} {secver : Byte}
    (serial : List Byte) (hok : s.proofFails chainOk keyOk versionOk signatureOk secver = 0) :
    ∃ t, execPairingMessage chainOk keyOk versionOk signatureOk true secver serial s = .next t ∧ t.twin.state = .paired ∧
      t.twin.peerSecver = some secver.toNat ∧ t.store = s.store ∧ ∀ o ∈ t.valac.ops, o.cmd.opcode ≠ 0x0700 := by
  unfold execPairingMessage
  rw [if_neg (not_not_intro h)]
  extract_lets failing old new s1 ws
  have hpass : (decide (failing = 0) && true) = true := (Bool.and_true _).trans (decide_eq_true hok)
  rw [if_pos hpass]
  have hposted := State.raised_post ({ s with twin := new } : State) 0x30 0xFF (leBytes 1 0)
  obtain ⟨htwin, -, hstore, hops⟩ := State.endPair_leaves (({ s with twin := new } : State).post 0x30 0xFF (leBytes 1 0)) stSuccess
  have htwin1 : s1.twin = new := htwin.trans (State.raised_twin hposted)
  obtain ⟨hstate, hsecver, hstore2, hvalac⟩ := State.offers_offered ws s1
  refine ⟨_, rfl, hstate.trans (congrArg Twin.state htwin1), hsecver.trans (congrArg Twin.peerSecver htwin1),
    hstore2.trans (hstore.trans (State.raised_store hposted :)), fun o ho => hops o ?_⟩
  rwa [hvalac] at ho

/-- Any other proof leaves the modules unpaired and the pairing held, and ends an open PAIR. -/
theorem execPairingMessage_rejected {s : State} (h : s.twin.state = .attesting) {chainOk keyOk versionOk signatureOk peerAccepts : Bool}
    {secver : Byte} (serial : List Byte) (hbad : ¬(s.proofFails chainOk keyOk versionOk signatureOk secver = 0 ∧ peerAccepts = true)) :
    ∃ t, execPairingMessage chainOk keyOk versionOk signatureOk peerAccepts secver serial s = .next t ∧ t.twin.state = .unpaired ∧
      t.twin.hold = true ∧ t.twin.windows = s.twin.windows ∧ t.store = s.store ∧ ∀ o ∈ t.valac.ops, o.cmd.opcode ≠ 0x0700 := by
  unfold execPairingMessage
  rw [if_neg (not_not_intro h)]
  extract_lets failing old new s1 ws f s2 s3 old3
  have hfail : ¬(decide (failing = 0) && peerAccepts) = true := fun h =>
    hbad (((Bool.and_eq_true _ _).mp h).imp_left of_decide_eq_true)
  rw [if_neg hfail]
  have h2 : s2.twin = s.twin ∧ s2.store = s.store := by
    unfold s2
    split
    · exact ⟨rfl, rfl⟩
    · exact ⟨rfl, rfl⟩
  have htwin3 : old3 = s.twin := (State.twin_warn _ _).trans h2.1
  have hstore3 : s3.store = s.store := (State.store_warn _ _).trans h2.2
  obtain ⟨htwin, -, hstore, hops⟩ := State.endPair_leaves ({ s3 with twin := { old3 with state := .unpaired, hold := true } } : State) stVerify
  exact ⟨_, rfl, congrArg Twin.state htwin, congrArg Twin.hold htwin, (congrArg Twin.windows htwin).trans (congrArg Twin.windows htwin3 :),
    hstore.trans hstore3, hops⟩

theorem State.twinGone_breaks (s : State) (lost : Bool) (next : PairState) :
    ∃ s1 : State, s1.twin.state = next ∧ s1.twin.ready = true ∧ s1.store = s.store ∧ s1.fab = s.fab ∧
      (∀ w, (s1.win w).state = if (s.win w).state = .active then .broken else (s.win w).state) ∧ (∀ o ∈ s1.twin.syncs, o.dead = true) ∧
      s.twinGone lost next = s1.failTwinRepairs.post 0x30 0xFF (leBytes 1 2) := by
  unfold State.twinGone
  extract_lets old s1 s2 windows syncs old2 s3
  have h2 : s2.twin = { s.twin with state := next } ∧ s2.store = s.store ∧ s2.fab = s.fab := by
    unfold s2
    split
    · have hr := (s1.note { code := 0x0707, severity := 0, data := leBytes 8 s.twin.lastHeartbeat }).raised_post 0x30 0xFF (leBytes 1 1)
      have hn := s1.note_rest { code := 0x0707, severity := 0, data := leBytes 8 s.twin.lastHeartbeat }
      exact ⟨(State.raised_twin hr).trans (congrArg State.twin hn :), (State.raised_store hr).trans (congrArg State.store hn :),
        (congrArg State.fab hr.2 :).trans (congrArg State.fab hn :)⟩
    · exact ⟨rfl, rfl, rfl⟩
  obtain ⟨htwin, hstore, hfab⟩ := h2
  refine ⟨{ s2 with twin := { old2 with windows := windows, syncs := syncs, ready := true } }, congrArg Twin.state htwin, rfl, hstore, hfab,
    fun w => ?_, fun o ho => ?_, rfl⟩
  · refine (congrArg MirWin.state (SMap.get_mapV ({} : MirWin) _ _ w (by rfl))).trans ?_
    have hw : SMap.get {} s2.twin.windows w = s.win w := congrArg (fun t : Twin => SMap.get {} t.windows w) htwin
    rw [hw]
    split
    · rfl
    · rfl
  · obtain ⟨x, -, rfl⟩ := List.mem_map.1 ho
    rfl

theorem State.answered_rest {u t : State} {c : Cmd} {status : Nat} {payload : List Byte} (h : u.answered t c status payload) :
    t.twin = u.twin ∧ t.store = u.store := by
  obtain ⟨-, -, -, -, -, -, hrest⟩ := h
  exact ⟨(congrArg State.twin hrest :), (congrArg State.store hrest :)⟩

/-- PAIR of an unpaired module begins the training. -/
theorem exec_pair_begins {s : State} {c : Cmd} (hcommit : s.committing = false) (hd : s.doing c 0x0700 0 []) (hfull : s.opsFull c = false)
    (hstate : s.twin.state = .unpaired) (hid : s.fw.pairId.isSome) :
    ∃ t, exec .pair s = .next t ∧ s.began t c 0 ∧ t.twin = { s.twin with hold := false, state := .training } ∧ t.store = s.store := by
  have hhave : s.fw.pairId.isNone = false := by simpa using hid
  obtain ⟨t, hexec, hans⟩ := State.runThen_of_check (instr := .pair) (u := s.startOp c 0) hd rfl rfl nofun (by simp [hhave, hcommit, hfull])
  obtain ⟨htwin, hstore⟩ := State.answered_rest hans
  have hunpaired : t.twin.state = .unpaired := (congrArg Twin.state htwin).trans hstate
  rw [hunpaired] at hexec
  have hbegan : s.began t c 0 := State.began_of_answered hans rfl
  refine ⟨_, hexec, hbegan, ?_, hstore⟩
  exact congrArg (fun x : Twin => { x with hold := false, state := .training }) htwin

/-- The module after UNPAIR: the twin has the notice, the active windows are broken, and the pairing is held. -/
def State.parted (s : State) : State :=
  let s1 := (s.sendRecord 9 0 1 []).breakWindows
  { s1 with twin := { s1.twin with state := .unpaired, hold := true } }

/-- UNPAIR of a paired module is answered, and the pairing is held. -/
theorem exec_unpair_holds {s : State} {c : Cmd} (hcommit : s.committing = false) (hd : s.doing c 0x0701 0 []) (hstate : s.twin.state = .paired) :
    ∃ t, exec .unpair s = .next t ∧ (t.mbx c.mbx).state = 2 ∧ t.valac.cur = none ∧ t.twin.state = .unpaired ∧ t.twin.hold = true := by
  obtain ⟨t, hexec, hans⟩ : ∃ t, exec .unpair s = .next t ∧ s.parted.answered t c 0 [] :=
    ⟨_, rfl, State.answered_of_reply hd rfl (congrArg (Reply.ok []) (if_pos hstate)) nofun (by simp [hcommit])⟩
  obtain ⟨htwin, -⟩ := State.answered_rest hans
  obtain ⟨hcur, hbox, -⟩ := hans
  exact ⟨t, hexec, hbox, hcur, congrArg Twin.state htwin, congrArg Twin.hold htwin⟩

/-- Settles O55, by what a flit, a failed lane, the training and the proof of the peer do. -/
theorem twinLinkAndPairing : Obligations.TwinLinkAndPairing := by
  unfold Obligations.TwinLinkAndPairing
  rintro s x rfl
  refine ⟨fun hrate => ⟨fun seq hseq => ?flit, fun seq ack _ => execSpecFlitReceive_bad ack hrate, fun seq hseq => ?nak, ?replay,
    fun lane bad hbad => execSpecLaneFail_falls lane hrate hbad, ?heartbeat, fun a b o hsource => ?beat⟩, fun i next hi hpaired hlost => ?gone,
    fun rate hr htrain => ?trained, fun htrain => ?retry, fun hattest chain key version signature peer secver serial => ?proof,
    fun c hcommit => ⟨fun hd hfull hstate hid => exec_pair_begins hcommit hd hfull hstate hid,
      fun hd hstate => exec_unpair_holds hcommit hd hstate⟩⟩
  case flit => exact ⟨_, execSpecFlitReceive_expected hrate hseq, State.specCount_eq _ _ _, State.get_specCount _ _ _⟩
  case nak =>
    exact ⟨_, congrArg Host.Outcome.next (if_neg (by simp [hrate, hseq])), s.specCount_eq _ _, s.get_specCount _ _⟩
  case replay => exact ⟨_, congrArg Host.Outcome.next (if_neg hrate), s.specCount_eq _ _, s.get_specCount _ _⟩
  case heartbeat => exact ⟨_, congrArg Host.Outcome.next (if_neg hrate), rfl⟩
  case beat => exact ⟨_, congrArg Host.Outcome.next ((if_neg hrate).trans (if_neg (by simp [hsource]))), rfl⟩
  case gone =>
    simp only [List.mem_cons, Prod.mk.injEq, List.not_mem_nil, or_false] at hi
    obtain ⟨rfl, rfl⟩ | ⟨rfl, rfl⟩ := hi
    · obtain ⟨s1, h1, h2, h3, h4, h5, h6, heq⟩ := s.twinGone_breaks true .lost
      exact ⟨_, s1, congrArg Host.Outcome.next (if_pos (by simp [hpaired, hlost])), h1, h2, h3, h4, h5, h6, heq⟩
    · obtain ⟨s1, h1, h2, h3, h4, h5, h6, heq⟩ := s.twinGone_breaks false .unpaired
      exact ⟨_, s1, congrArg Host.Outcome.next (if_pos hpaired), h1, h2, h3, h4, h5, h6, heq⟩
  case trained =>
    exact ⟨_, congrArg Host.Outcome.next (if_pos (by simpa [hr] using htrain)), rfl, rfl, rfl, rfl, rfl, rfl, rfl⟩
  case retry =>
    obtain ⟨htwin, hcores, -, hops⟩ := s.endPair_leaves stNotReady
    exact ⟨_, congrArg Host.Outcome.next (if_pos (by simpa using htrain)), htwin, hcores, hops⟩
  case proof =>
    have hproof := s.proofFails_eq_zero chain key version signature secver
    split
    · next hok =>
      obtain ⟨hchain, hkey, hid, hfloor, hversion, hsignature, rfl⟩ := hok
      exact execPairingMessage_accepted hattest serial (hproof.2 ⟨hchain, hkey, hid, hfloor, hversion, hsignature⟩)
    · next hno =>
      refine execPairingMessage_rejected hattest serial fun ⟨hzero, hpeer⟩ => hno ?_
      obtain ⟨hchain, hkey, hid, hfloor, hversion, hsignature⟩ := hproof.1 hzero
      exact ⟨hchain, hkey, hid, hfloor, hversion, hsignature, hpeer⟩

end Sys2Proof.Machine

/-! Mirror windows: O56. -/

namespace Sys2Proof.Machine

/-! Mirror windows. -/

theorem State.win_setWin_ne (s : State) {v w : Nat} (x : MirWin) (h : v ≠ w) : (s.setWin w x).win v = s.win v :=
  SMap.get_set_ne _ _ (Ne.symm h) _

theorem State.win_of_twin {s t : State} (h : t.twin = s.twin) (w : Nat) : t.win w = s.win w := 
  congrArg (fun x : Twin => SMap.get ({} : MirWin) x.windows w) h

theorem State.win_sendRecord (s : State) (kind v value : Nat) (bytes : List Byte) (w : Nat) :
    (s.sendRecord kind v value bytes).win w = s.win w := by
  unfold State.win State.sendRecord
  rfl

/-- The window as it is activated. -/
def MirWin.activated (x : MirWin) : MirWin :=
  { x with state := .active, epoch := 1, fill := 0, closed := none, lagExceeded := false, applied := 0, staged := [], stagedBytes := 0,
           closedHere := none }

theorem State.windowTry_activates {s : State} {w : Nat} {x : MirWin} (hwait : x.state = .waiting) (hpaired : s.twin.state = .paired)
    (hpeer : x.peer = some (x.mode, x.lag, x.start, x.len)) : (s.setWin w x).windowTry w = (s.setWin w x).setWin w x.activated := by
  have hstate : (s.setWin w x).twin.state = .paired := hpaired
  simp [State.windowTry, hstate, hwait, hpeer, MirWin.activated]

theorem State.windowTry_of_unequal {s : State} {w : Nat}
    (hpeer : (s.win w).peer ≠ some ((s.win w).mode, (s.win w).lag, (s.win w).start, (s.win w).len)) : s.windowTry w = s := by
  simp [State.windowTry, hpeer]

/-- An offer of other settings leaves an active window waiting, with nothing staged (R475). -/
theorem execWindowOffer_changes {s : State} {w : WinIdx} {mode : Fin 3} {lag start len : Nat} (hmode : mode.val ≠ 0)
    (hactive : (s.win w).state = .active) (hne : (mode.val, lag, start, len) ≠ ((s.win w).mode, (s.win w).lag, (s.win w).start, (s.win w).len)) :
    execWindowOffer w mode lag start len s = .next (s.setWin w { s.win w with
      peer := some (mode.val, lag, start, len), state := .waiting, staged := [], stagedBytes := 0 }) := by
  unfold execWindowOffer
  dsimp only
  rw [if_neg hmode, if_pos ((Bool.and_eq_true _ _).mpr ⟨decide_eq_true hactive, bne_iff_ne.2 (mt Option.some.inj hne)⟩)]
  refine congrArg Host.Outcome.next (State.windowTry_of_unequal ?_)
  rw [State.win_setWin_self]
  exact mt Option.some.inj hne

/-- An offer equal to the settings held activates a waiting window of a paired module (R475). -/
theorem execWindowOffer_activates {s : State} {w : WinIdx} {mode : Fin 3} {lag start len : Nat} (hmode : mode.val ≠ 0)
    (hwait : (s.win w).state = .waiting) (hpaired : s.twin.state = .paired)
    (heq : (mode.val, lag, start, len) = ((s.win w).mode, (s.win w).lag, (s.win w).start, (s.win w).len)) :
    execWindowOffer w mode lag start len s =
      .next ((s.setWin w { s.win w with peer := some (mode.val, lag, start, len) }).setWin w
        ({ s.win w with peer := some (mode.val, lag, start, len) } : MirWin).activated) := by
  unfold execWindowOffer
  dsimp only
  rw [if_neg hmode, if_neg (by simp [hwait])]
  exact congrArg Host.Outcome.next (State.windowTry_activates hwait hpaired (congrArg some heq))

/-- A record outside every active window is counted and warned of (R476). -/
theorem State.mirrorStray_counts (s : State) (w line : Nat) :
    (s.mirrorStray w line).twin.windows = s.twin.windows ∧ (s.mirrorStray w line).fab = s.fab ∧ (s.mirrorStray w line).store = s.store ∧
      SMap.get 0 (s.mirrorStray w line).twin.counters 0x228 = SMap.get 0 s.twin.counters 0x228 + 1 := by
  obtain ⟨log, hr⟩ := (s.specCount 0x228 1).warn_raised { code := 0x0706, severity := 1, data := leBytes 8 w ++ leBytes 8 line }
  have htwin := State.raised_twin hr
  exact ⟨(congrArg Twin.windows htwin :), (congrArg State.fab hr.2 :), (State.raised_store hr :),
    (congrArg (fun x : Twin => SMap.get 0 x.counters 0x228) htwin).trans (s.get_specCount 0x228 1)⟩

/-- The records of an epoch become requests, in their order. -/
theorem State.addReqs_adds (l : List (Nat × List (Nat × Byte))) (s : State) :
    (l.foldl (fun (s : State) e => s.addReq (mirrorReq (2 ^ 32) e.1 e.2)) s).twin = s.twin ∧
      (l.foldl (fun (s : State) e => s.addReq (mirrorReq (2 ^ 32) e.1 e.2)) s).store = s.store ∧
      (l.foldl (fun (s : State) e => s.addReq (mirrorReq (2 ^ 32) e.1 e.2)) s).fab.reqs.length = s.fab.reqs.length + l.length := by
  induction l generalizing s with
  | nil => exact ⟨rfl, rfl, rfl⟩
  | cons e l ih =>
    obtain ⟨htwin, hstore, hlen⟩ := ih (s.addReq (mirrorReq (2 ^ 32) e.1 e.2))
    refine ⟨htwin, hstore, hlen.trans ?_⟩
    simp only [State.addReq, List.length_append, List.length_cons, List.length_nil]
    omega

/-- The only element of a list with a result is found. -/
theorem findSome?_of_unique {α β : Type} {f : α → Option β} {a : α} {b : β} (hf : f a = some b) :
    ∀ {l : List α}, a ∈ l → (∀ x ∈ l, x ≠ a → f x = none) → l.findSome? f = some b
  | x :: l, ha, hne => by
    by_cases hx : x = a
    · rw [List.findSome?_cons, hx, hf]
    · rw [List.findSome?_cons, hne x (List.mem_cons_self ..) hx]
      exact findSome?_of_unique hf (List.mem_of_ne_of_mem (Ne.symm hx) ha) fun y hy => hne y (List.mem_cons_of_mem _ hy)

/-- The records of a twin that stand in range are well formed. -/
theorem recordFits {line : Nat} {data : List (Nat × Byte)} (hline : line % 128 = 0) (htop : line < 2 ^ 48) (hdata : ∀ e ∈ data, e.1 < 128) :
    ¬ (!(line % 128 == 0 && decide (line < 2 ^ 48) && data.all fun e => decide (e.1 < 128))) = true := by
  have hall : (data.all fun e => decide (e.1 < 128)) = true := List.all_eq_true.2 fun e he => decide_eq_true (hdata e he)
  rw [beq_iff_eq.2 hline, decide_eq_true htop, hall]
  decide

section Records
variable {s : State} {w : WinIdx} {line : Nat} {data : List (Nat × Byte)}

theorem execEpochWriteRecord_staged (hline : line % 128 = 0) (htop : line < 2 ^ 48) (hdata : ∀ e ∈ data, e.1 < 128) (hrate : s.twin.rate ≠ 0)
    (htakes : s.windowTakes w 2 line = true) : execEpochWriteRecord w line data s = .next (s.setWin w { s.win w with
      staged := (s.win w).staged ++ [(line, data)], stagedBytes := (s.win w).stagedBytes + recordBytes data }) := by
  unfold execEpochWriteRecord
  rw [if_neg (recordFits hline htop hdata), if_neg hrate, if_neg (by simp [htakes])]

theorem execEpochWriteRecord_stray (hline : line % 128 = 0) (htop : line < 2 ^ 48) (hdata : ∀ e ∈ data, e.1 < 128) (hrate : s.twin.rate ≠ 0)
    (htakes : s.windowTakes w 2 line = false) : execEpochWriteRecord w line data s = .next (s.mirrorStray w line) := by
  unfold execEpochWriteRecord
  rw [if_neg (recordFits hline htop hdata), if_neg hrate, if_pos (by simp [htakes])]

theorem execSyncWriteRecord_performed (tag : Word) (hline : line % 128 = 0) (htop : line < 2 ^ 48) (hdata : ∀ e ∈ data, e.1 < 128)
    (hrate : s.twin.rate ≠ 0) (htakes : s.windowTakes w 1 line = true) :
    execSyncWriteRecord w tag line data s = .next (s.mirrorWrite tag.toNat line data) := by
  unfold execSyncWriteRecord
  rw [if_neg (recordFits hline htop hdata), if_neg hrate, if_neg (by simp [htakes])]

theorem execSyncWriteRecord_stray (tag : Word) (hline : line % 128 = 0) (htop : line < 2 ^ 48) (hdata : ∀ e ∈ data, e.1 < 128)
    (hrate : s.twin.rate ≠ 0) (htakes : s.windowTakes w 1 line = false) :
    execSyncWriteRecord w tag line data s = .next (s.mirrorStray w line) := by
  unfold execSyncWriteRecord
  rw [if_neg (recordFits hline htop hdata), if_neg hrate, if_pos (by simp [htakes])]

end Records

/-- An acknowledgement ends the SYNC record, and the request behind it (R476). -/
theorem execSyncAck_ends {s : State} {tag : Word} {o : SyncOut} (h : s.twin.syncs.find? (fun y => y.tag == tag.toNat && !y.dead) = some o) :
    ∃ t, execSyncAck tag s = .next t ∧ t.twin.syncs = s.twin.syncs.erase o ∧ t.store = s.store ∧ ∀ r, o.rid = some r → t.gone r := by
  unfold execSyncAck
  rw [h]
  cases hr : o.rid with
  | none =>
    simp only [hr]
    exact ⟨_, rfl, rfl, rfl, nofun⟩
  | some r =>
    simp only [hr]
    refine ⟨_, rfl, rfl, rfl, fun r' hr' => ?_⟩
    obtain rfl := Option.some.inj hr'
    exact State.gone_dropReq _ _

/-- A closed epoch with nothing staged is applied at once, and reported (R477). -/
theorem execEpochCloseRecord_empty {s : State} {w : WinIdx} (epoch : Nat) (hrate : s.twin.rate ≠ 0) (hstate : (s.win w).state = .active)
    (hmode : (s.win w).mode = 2) (hopen : (s.win w).closedHere = none) (hstaged : (s.win w).staged = []) :
    ∃ t, execEpochCloseRecord w epoch s = .next t ∧ (t.win w).applied = epoch ∧ (t.win w).closedHere = none ∧
      t.out = .record 5 w epoch [] :: s.out ∧ t.store = s.store := by
  unfold execEpochCloseRecord
  extract_lets x s1 y first s2
  rw [if_neg (by simp [x, hrate, hstate, hmode, hopen]), if_pos (by simp [x, hstaged])]
  refine ⟨_, rfl, ?_, ?_, rfl, State.store_sendRecord _ _ _ _ _⟩
  · rw [State.win_sendRecord, State.win_setWin_self]
  · rw [State.win_sendRecord, State.win_setWin_self]

/-- A closed epoch becomes requests at the homes of its lines, which are served in the order of the records (R477). -/
theorem execEpochCloseRecord_applies {s : State} {w : WinIdx} (epoch : Nat) (hrate : s.twin.rate ≠ 0) (hstate : (s.win w).state = .active)
    (hmode : (s.win w).mode = 2) (hopen : (s.win w).closedHere = none) (hstaged : (s.win w).staged ≠ []) :
    ∃ t s1 : State, execEpochCloseRecord w epoch s = .next t ∧ (s1.win w).closedHere = some (epoch, (s.win w).staged) ∧
      (s1.win w).staged = [] ∧ s1.store = s.store ∧ s1.fab.reqs.length = s.fab.reqs.length + (s.win w).staged.length ∧
      t = (List.range (s.win w).staged.length).foldl (fun (y : State) i => y.serveNow (s.fab.nextReq + i)) s1 := by
  unfold execEpochCloseRecord
  extract_lets x s1 y first s2
  rw [if_neg (by simp [x, hrate, hstate, hmode, hopen]), if_neg (by simpa [x] using hstaged)]
  obtain ⟨htwin, hstore, hlen⟩ := State.addReqs_adds x.staged s1
  have hwin : s2.win w = { x with staged := [], stagedBytes := 0, closedHere := some (epoch, x.staged) } :=
    (State.win_of_twin htwin w).trans (s.win_setWin_self w _)
  exact ⟨_, s2, rfl, congrArg MirWin.closedHere hwin, congrArg MirWin.staged hwin, hstore, hlen, rfl⟩

/-- The notice of the twin ends the closed epoch, and says whether the lag bound was kept (R477). -/
theorem execEpochApplied_ends {s : State} {w : WinIdx} {epoch n : Nat} (within : Bool) (hclosed : (s.win w).closed = some (epoch, n)) :
    ∃ t, execEpochApplied w epoch within s = .next t ∧ t.win w = { s.win w with closed := none, lagExceeded := !within } ∧
      (∀ v, v ≠ w.val → t.win v = s.win v) ∧ t.store = s.store := by
  have hset := s.win_setWin_self w { s.win w with closed := none, lagExceeded := !within }
  have hother : ∀ v, v ≠ w.val → (s.setWin w { s.win w with closed := none, lagExceeded := !within }).win v = s.win v :=
    fun v hv => s.win_setWin_ne _ hv
  simp only [execEpochApplied, hclosed, ne_eq, not_true_eq_false, if_false]
  cases within with
  | true => exact ⟨_, rfl, hset, hother, rfl⟩
  | false =>
    have hwarned := fun v => State.win_of_twin (State.twin_warn (s.setWin w { s.win w with closed := none, lagExceeded := true })
      { code := 0x0704, severity := 1, data := leBytes 8 w ++ leBytes 8 epoch }) v
    exact ⟨_, rfl, (hwarned w).trans hset, fun v hv => (hwarned v).trans (hother v hv), State.store_warn _ _⟩

/-- A reload read of the twin is answered with its sector, or refused (R483). -/
theorem execReloadRequest_answers {s : State} (tag : Word) (addr : Nat) (hpaired : s.twin.state = .paired) :
    ∃ t, execReloadRequest tag addr s = .next t ∧ t.store = s.store ∧ t.fab = s.fab ∧
      t.out = (if (s.reloadAt (addr / 32 * 32)).isSome = true ∧ s.sectorBad (addr / 32 * 32) = false
        then .record 6 0 (addr / 32 * 32) (leBytes 4 tag.toNat ++ leBytes 4 0 ++ s.physBytes (addr / 32 * 32) 32) :: s.out
        else .record 7 0 (addr / 32 * 32) (leBytes 4 tag.toNat ++ leBytes 4 0) :: s.out) := by
  unfold execReloadRequest
  extract_lets a
  rw [if_neg (not_not_intro hpaired)]
  by_cases h : (s.reloadAt a).isSome = true ∧ s.sectorBad a = false
  · rw [if_pos (by simpa using h), if_pos h]
    exact ⟨_, rfl, rfl, rfl, rfl⟩
  · rw [if_neg (by simpa using h), if_neg h]
    exact ⟨_, rfl, rfl, rfl, rfl⟩

/-- A sector that a repair waits for is kept until the last has come (R285). -/
theorem execReloadData_keeps {s : State} {h : HalfIdx} {r : Repair} {i : Nat} {tag : Word} {b : List Byte} (hr : (s.half h).repair = some r)
    (hone : ∀ k, k < 16 → k ≠ h.val → (s.half k).repair = none) (hi : i = (tag.toNat + 2 ^ 32 - r.tag) % 2 ^ 32) (hleft : i ∈ r.left)
    (hb : b.length = 32) (hmore : r.left.erase i ≠ []) :
    execReloadData tag (some b) s = .next (s.setHalf h { s.half h with
      repair := some { r with left := r.left.erase i, data := SMap.putBytes r.data (32 * i) b } }) := by
  unfold execReloadData
  extract_lets hit
  have hhit : hit h.val = some (h.val, r, i) := by
    simp only [hit, hr, ← hi]
    rw [if_pos (List.contains_iff_mem.2 hleft)]
  have hfind : (List.range 16).findSome? hit = some (h.val, r, i) := by
    refine findSome?_of_unique hhit (List.mem_range.2 h.isLt) fun k hk hne => ?_
    simp only [hit, hone k (List.mem_range.1 hk) hne]
  simp only [hb, bne_self_eq_false, Bool.false_eq_true, if_false, hfind, List.isEmpty_iff, hmore]
  rfl

/-! The commands on windows. -/

/-- A window that MIRROR_SET leaves waiting for the twin's offer. -/
theorem State.mirrorSet_waits {s : State} {w mode : Nat} (lag start len : Nat) (hmode : mode ≠ 0) (hpaired : s.twin.state ≠ .paired) :
    s.mirrorSet w mode lag start len = s.setWin w { state := .waiting, mode, lag, start, len, peer := (s.win w).peer } := by
  have hstate : ∀ y, ¬ (s.setWin w y).twin.state = .paired := fun _ => hpaired
  simp [State.mirrorSet, hmode, hstate]

/-- MIRROR_SET of a window that is off or broken passes its checks (R473 to R475). -/
theorem exec_mirrorSet_answered {s : State} {c : Cmd} (hw : c.arg 0 1 < 64) (hd : s.doing c 0x0702 24 [(2, 2)]) (hpaired : s.twin.state ≠ .paired)
    (hmode : c.arg 1 1 ≤ 2) (hon : c.arg 1 1 ≠ 0)
    (hlag : if c.arg 1 1 = 2 then 50 ≤ c.arg 4 4 ∧ c.arg 4 4 ≤ 10000000 else c.arg 4 4 = 0) (hstart : c.arg 8 8 % granuleBytes = 0)
    (hmeets : s.windowMeets (c.arg 0 1) (c.arg 8 8) (c.arg 0x10 8) = false) (hlen : c.arg 0x10 8 % granuleBytes = 0)
    (htier : inOneTier (c.arg 8 8) (c.arg 0x10 8) = true) (hclass : addrClass (c.arg 8 8) ≠ .tier3)
    (hidle : (s.win (c.arg 0 1)).state = .off ∨ (s.win (c.arg 0 1)).state = .broken) :
    ∃ t, exec .mirrorSet s = .next t ∧ (s.setWin (c.arg 0 1)
      { state := .waiting, mode := c.arg 1 1, lag := c.arg 4 4, start := c.arg 8 8, len := c.arg 0x10 8, peer := (s.win (c.arg 0 1)).peer }).answered
        t c 0 [] := by
  have hlag' : (if c.arg 1 1 = 2 then decide (c.arg 4 4 < 50 || 10000000 < c.arg 4 4) else c.arg 4 4 != 0) = false := by
    split at hlag
    · next h =>
      rw [if_pos h]
      simp [Nat.not_lt.2 hlag.1, Nat.not_lt.2 hlag.2]
    · next h => rw [if_neg h, hlag]; rfl
  have hwhole : (inOneTier (c.arg 8 8) (c.arg 0x10 8) && addrClass (c.arg 8 8) != .tier3) = true := by simp [htier, hclass]
  have hbusy : ((s.win (c.arg 0 1)).state == .waiting || (s.win (c.arg 0 1)).state == .active) = false := by
    obtain h | h := hidle <;> rw [h] <;> rfl
  rw [← State.mirrorSet_waits _ _ _ hon hpaired]
  refine ⟨_, rfl, State.answered_of_args hd rfl ?_ ?_⟩
  · intro e he
    simp only [List.mem_cons, List.not_mem_nil, or_false] at he
    obtain rfl | rfl | rfl | rfl | rfl := he
    · exact decide_eq_false (by omega)
    · exact decide_eq_false (by omega)
    · exact hlag'
    · simp [hstart, hmeets]
    · simp [hlen, hwhole]
  · intro e he
    obtain rfl := List.mem_singleton.1 he
    rw [hbusy]
    rfl

/-- EPOCH_CLOSE of an active window in EPOCH mode passes its checks, and answers with the epoch (R478). -/
theorem exec_epochClose_answered {s : State} {c : Cmd} (hw : c.arg 0 1 < 64) (hd : s.doing c 0x0703 4 [(1, 3)]) (hrole : c.role ≠ 1)
    (hstate : (s.win (c.arg 0 1)).state = .active) (hmode : (s.win (c.arg 0 1)).mode = 2) (hclosed : (s.win (c.arg 0 1)).closed = none) :
    ∃ t, exec .epochClose s = .next t ∧ ((s.setWin (c.arg 0 1) { s.win (c.arg 0 1) with
      closed := some ((s.win (c.arg 0 1)).epoch, s.now), epoch := (s.win (c.arg 0 1)).epoch + 1, fill := 0 }).sendRecord
        3 (c.arg 0 1) (s.win (c.arg 0 1)).epoch []).answered t c 0 (leBytes 8 (s.win (c.arg 0 1)).epoch) := by
  have htenant : s.tenantPart c = none := if_neg hrole
  refine ⟨_, rfl, State.answered_of_args hd rfl ?_ ?_⟩
  · intro e he
    obtain rfl := List.mem_singleton.1 he
    simp [htenant, hmode, Nat.not_lt.2 (Nat.le_of_lt_succ hw)]
  · simp [hclosed, hstate]

/-- Settles O56, by what an offer, a record, an epoch, a reload and the commands on a window do. -/
theorem mirrorWindows : Obligations.MirrorWindows := by
  unfold Obligations.MirrorWindows
  rintro s w x rfl
  refine ⟨fun mode lag start len hmode => ⟨fun hactive hne => ?changed, fun hwait hpaired heq => ?activated⟩,
    fun line data tag hline htop hdata hrate => ⟨fun htakes => ?staged, fun htakes => ?performed, fun i hi hsync hepoch => ?stray⟩,
    fun tag o ho => execSyncAck_ends ho, fun epoch hrate hstate hmode hopen => ⟨fun hstaged => ?empty, fun hstaged => ?applied⟩,
    fun epoch n within hclosed => execEpochApplied_ends within hclosed, ?reload, fun h r i tag b hr hone hi hleft hb hmore => ?sector,
    fun c hw => ⟨?set, ?close⟩⟩
  case changed =>
    have hself := s.win_setWin_self w { s.win w with peer := some (mode.val, lag, start, len), state := .waiting, staged := [], stagedBytes := 0 }
    exact ⟨_, execWindowOffer_changes hmode hactive hne, congrArg MirWin.state hself, congrArg MirWin.staged hself,
      fun v hv => s.win_setWin_ne _ hv, rfl⟩
  case activated =>
    refine ⟨_, execWindowOffer_activates hmode hwait hpaired heq, ?_, ?_, ?_, fun v hv => ?_, rfl⟩
    · rw [State.win_setWin_self]; rfl
    · rw [State.win_setWin_self]; rfl
    · rw [State.win_setWin_self]; rfl
    · rw [State.win_setWin_ne _ _ hv, State.win_setWin_ne _ _ hv]
  case staged =>
    exact ⟨_, execEpochWriteRecord_staged hline htop hdata hrate htakes, rfl, s.win_setWin_self w _, fun v hv => s.win_setWin_ne _ hv⟩
  case performed =>
    exact ⟨_, mirrorReq tag.toNat line data, execSyncWriteRecord_performed tag hline htop hdata hrate htakes, rfl, rfl, rfl, rfl, rfl⟩
  case stray =>
    simp only [List.mem_cons, List.not_mem_nil, or_false] at hi
    obtain rfl | rfl := hi
    · exact ⟨_, execEpochWriteRecord_stray hline htop hdata hrate hepoch, s.mirrorStray_counts w line⟩
    · exact ⟨_, execSyncWriteRecord_stray tag hline htop hdata hrate hsync, s.mirrorStray_counts w line⟩
  case empty => exact execEpochCloseRecord_empty epoch hrate hstate hmode hopen hstaged
  case applied => exact execEpochCloseRecord_applies epoch hrate hstate hmode hopen hstaged
  case reload =>
    rintro tag addr a hpaired rfl
    exact execReloadRequest_answers tag addr hpaired
  case sector =>
    exact ⟨_, execReloadData_keeps hr hone hi hleft hb hmore, s.onlyHalf_setHalf h _, s.half_setHalf_self h _⟩
  all_goals have hlt : c.arg 0 1 < 64 := hw ▸ w.isLt
  case set =>
    rw [hw]
    rintro hd hpaired hmode hon hlag hstart hmeets hlen htier hclass hidle y rfl
    exact exec_mirrorSet_answered hlt hd hpaired hmode hon hlag hstart hmeets hlen htier hclass hidle
  case close =>
    rw [hw]
    exact fun hd hrole hstate hmode hclosed => exec_epochClose_answered hlt hd hrole hstate hmode hclosed

end Sys2Proof.Machine

/-! The host attachment: O57. -/

namespace Sys2Proof.Machine

/-! The host attachment. -/

/-- A refused request is held in HST_REFUSED and counted (R497). -/
theorem State.hostRefuse_refused (s : State) (fn off cause : Nat) :
    (s.hostRefuse fn off cause).host.refused = true ∧ (s.hostRefuse fn off cause).host.cntRefused = s.host.cntRefused + 1 := by
  unfold State.hostRefuse
  dsimp only
  split
  · next h => exact ⟨h, rfl⟩
  · exact ⟨rfl, rfl⟩

theorem State.refused_warn (s : State) (i : LogItem) : (s.warn i).host.refused = s.host.refused := by
  obtain ⟨log, h⟩ := s.warn_raised i
  exact (congrArg (fun x : State => x.host.refused) h.2 :)

theorem State.fab_warn (s : State) (i : LogItem) : (s.warn i).fab = s.fab := by
  obtain ⟨log, h⟩ := s.warn_raised i
  exact (congrArg State.fab h.2 :)

/-- A request within one line is one piece. -/
theorem linePieces_of_within {off len : Nat} (hlen : 0 < len) (h : off % 128 + len ≤ 128) : linePieces off len = [(off, 0, len)] := by
  have hone : (off + len + 127) / 128 - off / 128 = 1 := by omega
  have hlo : Nat.max off (128 * (off / 128)) = off := Nat.max_eq_left (by omega)
  have hhi : Nat.min (off + len) (128 * (off / 128 + 1)) = off + len := Nat.min_eq_left (by omega)
  simp [linePieces, hone, hlo, hhi, List.range_succ]

theorem execBar4Read_refused {s : State} {fn : FnIdx} {off len z : Nat} (hlen : 0 < len) (hmax : len ≤ 4096) (hin : s.bar4Holds fn off len = true)
    (hz : s.hostCause fn off len false = some z) : execBar4Read fn off len s =
      .next ((s.emit (.completion fn off (if z = 3 then 2 else 1) [] false)).hostRefuse fn off z) := by
  unfold execBar4Read
  rw [if_neg (by simp; omega), if_neg (by simp [hin]), hz]

theorem execBar4Read_passed {s : State} {fn : FnIdx} {off len a : Nat} (hlen : 0 < len) (hmax : len ≤ 4096) (hin : s.bar4Holds fn off len = true)
    (hz : s.hostCause fn off len false = none) (hline : off % 128 + len ≤ 128) (ha : s.aperture fn off = some a) :
    execBar4Read fn off len s = .next (s.hostIssue (s.hostReq fn a off (.hostRead (a % 128) len) 0)) := by
  unfold execBar4Read
  rw [if_neg (by simp; omega), if_neg (by simp [hin]), hz]
  simp only [linePieces_of_within hlen hline, List.foldl_cons, List.foldl_nil, ha, Option.getD_some]

theorem execBar4Write_refused {s : State} {fn : FnIdx} {off z : Nat} {data : List Byte} (relaxed : Bool) (hne : data ≠ [])
    (hmax : data.length ≤ 512) (hin : s.bar4Holds fn off data.length = true) (hz : s.hostCause fn off data.length true = some z) :
    ∃ t, execBar4Write fn off data false relaxed s = .next t ∧ t.host.refused = true ∧ t.fab = s.fab ∧ t.store = s.store := by
  unfold execBar4Write
  rw [if_neg (by simp [hne, hmax]), if_neg (by simp [hin]), hz]
  have hrefused := (s.hostRefuse_refused fn off z).1
  dsimp only
  split
  · exact ⟨_, rfl, (State.refused_warn _ _).trans hrefused, State.fab_warn _ _, State.store_warn _ _⟩
  · exact ⟨_, rfl, hrefused, rfl, rfl⟩

theorem execBar4Write_passed {s : State} {fn : FnIdx} {off a : Nat} {data : List Byte} (relaxed : Bool) (hne : data ≠ [])
    (hmax : data.length ≤ 512) (hin : s.bar4Holds fn off data.length = true)
    (hz : s.hostCause fn off data.length true = none) (hline : off % 128 + data.length ≤ 128)
    (ha : s.aperture fn off = some a) : execBar4Write fn off data false relaxed s =
      .next (s.hostIssue (s.hostReq fn a (bit relaxed) (.write (data.zipIdx.map fun e => (a % 128 + e.2, e.1))) 0)) := by
  unfold execBar4Write
  rw [if_neg (by simp [hne, hmax]), if_neg (by simp [hin]), hz]
  simp only [linePieces_of_within (List.length_pos_iff.2 hne) hline, List.foldl_cons, List.foldl_nil, ha, Option.getD_some, Bool.false_eq_true,
    if_false, List.drop_zero, List.take_length]

/-! Completions of the module's own requests. -/

theorem State.emits_out {α : Type} (f : α → Out) (l : List α) (s : State) :
    (l.foldl (fun (s : State) e => s.emit (f e)) s).out = (l.map f).reverse ++ s.out ∧
      (l.foldl (fun (s : State) e => s.emit (f e)) s).fab = s.fab ∧ (l.foldl (fun (s : State) e => s.emit (f e)) s).store = s.store := by
  induction l generalizing s with
  | nil => exact ⟨rfl, rfl, rfl⟩
  | cons e l ih =>
    obtain ⟨hout, hfab, hstore⟩ := ih (s.emit (f e))
    exact ⟨hout.trans (by simp [State.emit]), hfab, hstore⟩

/-- A posted write is transmitted in runs of consecutive bytes, and its request ends (R179, R185). -/
theorem State.transmit_sends (s : State) (r : Req) (bytes : List (Nat × Byte)) :
    (s.transmit r bytes).gone r.id ∧ (s.transmit r bytes).store = s.store ∧ (s.transmit r bytes).out =
      ((runsOf bytes).map fun e => Out.memWrite (match s.ctxById r.ctx with | some x => x.fn | none => 0) (r.addr + e.1) e.2).reverse ++ s.out := by
  obtain ⟨hout, hfab, hstore⟩ := State.emits_out
    (fun e : Nat × List Byte => Out.memWrite (match s.ctxById r.ctx with | some x => x.fn | none => 0) (r.addr + e.1) e.2)
    (runsOf bytes) (s.dropReq r.id)
  refine ⟨fun x hx => s.gone_dropReq r.id x ?_, hstore, hout⟩
  rwa [← hfab]

/-- The answer of host memory to an AtomicOp goes to the lanes of its group (R498). -/
theorem State.hostData_atomic {s : State} {r : Req} {cas : Bool} {aop size d c slot : Nat} {lanes : List (Nat × Nat × DWord × DWord)}
    {b : List Byte} (hop : r.op = .atomic cas aop size d lanes) (hagent : r.agent = .vec c slot) :
    s.hostData r b false = ((s.updGroup c slot fun g => lanes.foldl (fun (g : Group) (l : Nat × Nat × DWord × DWord) =>
      g.putElem l.1 d size false (gather (fun o => (b[o - r.op.span.1]?).getD 0) l.2.1 (sizeBytes size))) g).dropReq r.id, []) := by
  simp only [State.hostData, hop, hagent, Bool.false_eq_true, if_false]

section Completion
variable {s : State} {rid : Nat} {r : Req} {b : List Byte}

theorem execHostCompletion_write {bytes : List (Nat × Byte)} (hreq : s.req rid = some r) (hplace : r.place = .host) (hturn : s.turnOf r = true)
    (hop : r.op = .write bytes) (hb : b.length ≤ 4096) : execHostCompletion rid (.data b) s = .next (s.transmit r bytes) := by
  unfold execHostCompletion
  rw [if_neg (by simpa using hb), hreq]
  dsimp only
  rw [if_neg (by simp [hplace, hturn]), hop]

theorem execHostCompletion_atomic {cas : Bool} {aop size d : Nat} {lanes : List (Nat × Nat × DWord × DWord)}
    (hreq : s.req rid = some r) (hplace : r.place = .host) (hturn : s.turnOf r = true) (hop : r.op = .atomic cas aop size d lanes)
    (hlen : b.length = r.op.span.2) (hb : b.length ≤ 4096) : execHostCompletion rid (.data b) s = .next (State.settle (s.hostData r b false)) := by
  unfold execHostCompletion
  rw [if_neg (by simpa using hb), hreq]
  dsimp only
  rw [if_neg (by simp [hplace, hturn])]
  simp only [hop] at hlen ⊢
  exact congrArg Host.Outcome.next (if_pos hlen)

end Completion

/-! Configuration, the link and interrupts. -/

theorem execHostConfigRequest_written {s : State} {fn : FnIdx} (w : CfgWrite) (hstep : 1 < s.sys.step) (hfn : s.fnEnabled fn = true) :
    execHostConfigRequest fn (some w) s = .next ((s.configWrite fn w).emit (.configReply fn false)) := by
  unfold execHostConfigRequest
  rw [if_neg (Nat.not_le.2 hstep), if_neg (by simp [hfn])]

theorem State.host_note (s : State) (i : LogItem) : (s.note i).host = s.host := (congrArg (fun x : State => x.host) (s.note_rest i) :)

/-- The link comes up, is trained again, or stays down (R488). -/
theorem execHostLinkTrain_trains {s : State} (hs : s.sys.standby = true) (rate : Fin 8) (lanes : BitVec 16) (n : Nat) :
    ∃ t, execHostLinkTrain rate lanes n s = .next t ∧ t.cores = s.cores ∧
      (linkWidth lanes = 0 ∨ rate.val = 0 → t.host.rate = 0 ∧ t.host.width = 0) ∧
      (linkWidth lanes ≠ 0 → 4 ≤ rate.val → t.host.rate = rate.val ∧ t.host.width = linkWidth lanes ∧ t.host.retries = n) ∧
      (linkWidth lanes ≠ 0 → 0 < rate.val → rate.val < 4 → n < 8 → t.host.rate = 0 ∧ t.host.retries = n + 1) := by
  unfold execHostLinkTrain
  rw [if_neg (by simp [hs])]
  extract_lets w s1
  change ∃ t, _ ∧ _ ∧ (w = 0 ∨ _ → _) ∧ (w ≠ 0 → _ → _ ∧ _ = w ∧ _) ∧ (w ≠ 0 → _)
  by_cases hdown : w = 0 ∨ rate.val = 0
  · rw [if_pos (by simpa using hdown)]
    refine ⟨_, rfl, State.cores_note _ _, fun _ => ?_, fun hw hr => ?_, fun hw hr => ?_⟩
    · rw [State.host_note]
      exact ⟨rfl, rfl⟩
    · exact absurd hdown (by omega)
    · exact absurd hdown (by omega)
  · rw [if_neg (by simpa using hdown)]
    by_cases hagain : rate.val < 4 ∧ n < 8
    · rw [if_pos (by simpa using hagain)]
      exact ⟨_, rfl, rfl, fun h => absurd h hdown, fun _ hr => absurd hagain (by omega), fun _ _ _ _ => ⟨rfl, rfl⟩⟩
    · rw [if_neg (by simpa using hagain)]
      refine ⟨_, rfl, ?_, fun h => absurd h hdown, fun _ hr => ?_, fun _ _ hr hn => absurd ⟨hr, hn⟩ hagain⟩
      · split
        · exact State.cores_warn _ _
        · rfl
      · rw [if_neg (Nat.not_lt.2 hr)]
        exact ⟨rfl, rfl, rfl⟩

theorem State.vector_setVector_self (s : State) (fn v : Nat) (x : Vector) : (s.setVector fn v x).vector fn v = x := SMap.get_set_self _ _ _ _

/-- A vector that is not masked sends its message. -/
theorem State.signal_sends {s : State} {fn v : Nat} (hfn : s.fnEnabled fn = true) (hv : (s.vector fn v).masked = false)
    (hmask : SMap.get false s.host.fnMask fn = false) : s.signal fn v = s.emit (.msix fn v) := by
  simp [State.signal, hfn, hv, hmask]

/-- The vector, unmasked, sends the message that was pending (R499). -/
theorem execMsixUnmask_sends {s : State} {fn : FnIdx} {v : Nat} (hfn : s.fnEnabled fn = true) (hv : v < tableSize fn)
    (hmask : SMap.get false s.host.fnMask fn = false) :
    ∃ t, execMsixUnmask fn v s = .next t ∧ t.vector fn v = { s.vector fn v with masked := false, pending := false } ∧
      t.out = (if (s.vector fn v).pending then .msix fn v :: s.out else s.out) ∧ t.cores = s.cores := by
  have hself := s.vector_setVector_self fn v { s.vector fn v with masked := false, pending := false }
  have hsends : (s.setVector fn v { s.vector fn v with masked := false, pending := false }).signal fn v = _ :=
    State.signal_sends hfn (by rw [hself]) hmask
  unfold execMsixUnmask
  rw [if_neg (by simp [hfn, Nat.not_le.2 hv])]
  dsimp only
  cases (s.vector fn v).pending with
  | true =>
    rw [if_pos rfl, hsends]
    exact ⟨_, rfl, hself, rfl, rfl⟩
  | false => exact ⟨_, rfl, hself, rfl, rfl⟩

/-- Settles O57, by what each request, completion and configuration write does once it has passed its checks. -/
theorem hostAttachment : Obligations.HostAttachment := by
  unfold Obligations.HostAttachment
  refine fun s fn off => ⟨fun len hlen hmax hin => ⟨fun z hz => ?readRefused, fun a hz hline ha => ?read⟩,
    fun data relaxed hne hmax hin => ⟨fun z hz => execBar4Write_refused relaxed hne hmax hin hz, fun a hz hline ha => ?write⟩,
    fun hin => ?atomicOp,
    fun v => ⟨_, rfl, rfl⟩, fun rid r hreq hplace hturn => ⟨fun bytes b hop hid hb => ?posted,
      fun cas aop size d lanes c slot b hop hagent hlen hb hocc => ?atomic⟩,
    ?config, fun n hstep hn hoff => ?numVfs, fun hstep hfn on => ?priEnable, ?link, fun v hfn hv hmask => execMsixUnmask_sends hfn hv hmask⟩
  case readRefused =>
    obtain ⟨hrefused, hcount⟩ := (s.emit (.completion fn off (if z = 3 then 2 else 1) [] false)).hostRefuse_refused fn off z
    exact ⟨_, execBar4Read_refused hlen hmax hin hz, hrefused, hcount, rfl, rfl, rfl⟩
  case read => exact ⟨_, _, execBar4Read_passed hlen hmax hin hz hline ha, rfl, rfl, rfl, rfl, rfl⟩
  case write => exact ⟨_, _, execBar4Write_passed relaxed hne hmax hin hz hline ha, rfl, rfl, rfl, rfl, rfl⟩
  case atomicOp =>
    exact ⟨_, congrArg Host.Outcome.next (if_neg (by simp [hin])), (State.hostRefuse_refused _ _ _ _).1, rfl, rfl, rfl⟩
  case posted =>
    obtain ⟨hgone, hstore, hout⟩ := s.transmit_sends r bytes
    exact ⟨_, execHostCompletion_write hreq hplace hturn hop hb, hid ▸ hgone, hstore, hout⟩
  case atomic =>
    refine ⟨_, (execHostCompletion_atomic hreq hplace hturn hop hlen hb).trans (by rw [State.hostData_atomic hop hagent]), ?_, ?_, ?_⟩
    · exact State.gone_dropReq _ _
    · rw [State.settle_nil]
      exact State.store_dropReq _ _
    · rw [State.settle_nil, State.core_dropReq, State.group_updGroup hocc]
  case config =>
    refine ⟨_, rfl, ?_⟩
    cases s.fnEnabled fn with
    | true => rfl
    | false => rfl
  case numVfs =>
    refine ⟨_, execHostConfigRequest_written (.numVfs n) hstep rfl, ?_, rfl⟩
    simp [State.configWrite, State.updHost, State.emit, hn, hoff]
  case priEnable =>
    exact ⟨_, execHostConfigRequest_written (.priEnable on) hstep hfn, s.pri_setPri_self fn _, rfl⟩
  case link =>
    rintro hs rate lanes n w rfl
    exact execHostLinkTrain_trains hs rate lanes n

end Sys2Proof.Machine

/-! The steps of a start. -/

namespace Sys2Proof.Machine

/-! What the steps of a start leave as it is. -/

/-- `t` is in the state and at the step of `s`, with its work, its operations, its darn map and its flash. -/
structure State.calm (s t : State) : Prop where
  sys     : t.sys = s.sys
  work    : t.work = s.work
  ops     : t.valac.ops = s.valac.ops
  darnMap : t.links.darnMap = s.links.darnMap
  flash   : t.store.flash = s.store.flash

theorem State.calm.refl (s : State) : s.calm s := ⟨rfl, rfl, rfl, rfl, rfl⟩

theorem State.calm.trans {s t u : State} (h : s.calm t) (g : t.calm u) : s.calm u :=
  ⟨g.sys.trans h.sys, g.work.trans h.work, g.ops.trans h.ops, g.darnMap.trans h.darnMap, g.flash.trans h.flash⟩

theorem State.calm_of_raised {s t : State} (h : s.raised t) : s.calm t :=
  ⟨State.raised_sys h, State.raised_work h, State.raised_ops h, congrArg Links.darnMap (State.raised_links h),
    congrArg Store.flash (State.raised_store h)⟩

theorem State.calm_foldl {α : Type} {f : State → α → State}
    (hf : ∀ (s : State) (a : α), s.calm (f s a)) (l : List α)
    (s : State) : s.calm (l.foldl f s) := by
  induction l generalizing s with
  | nil => exact .refl s
  | cons a l ih => exact (hf s a).trans (ih _)

theorem State.calm_note (s : State) (i : LogItem) : s.calm (s.note i) := by
  have h := s.logPut_shape i
  change s.calm (s.logPut i).2
  rw [h]
  exact ⟨rfl, rfl, rfl, rfl, rfl⟩

theorem State.calm_warn (s : State) (i : LogItem) : s.calm (s.warn i) := by
  obtain ⟨log, h⟩ := s.warn_raised i
  have hlog : s.calm { s with log } := ⟨rfl, rfl, rfl, rfl, rfl⟩
  exact hlog.trans (State.calm_of_raised h)

theorem State.calm_draw (s : State) (w : Nat) : s.calm (s.draw w).2 := ⟨rfl, rfl, rfl, rfl, rfl⟩

theorem State.calm_stepDone (s : State) (n : Nat) : s.calm (s.stepDone n) := (s.calm_draw 64).trans (State.calm_note _ _)

theorem State.calm_applyPatch (s : State) : s.calm s.applyPatch := by
  unfold State.applyPatch
  refine State.calm_foldl (fun t c => ?_) _ _
  exact ⟨rfl, rfl, rfl, rfl, rfl⟩

theorem State.calm_stepPatch (s : State) : s.calm s.stepPatch := s.calm_applyPatch.trans ⟨rfl, rfl, rfl, rfl, rfl⟩

theorem State.calm_startTraining (s : State) : s.calm s.startTraining := by
  unfold State.startTraining
  split
  · exact ⟨rfl, rfl, rfl, rfl, rfl⟩
  · exact .refl s

theorem State.calm_retargetAll (s : State) : s.calm s.retargetAll := by
  refine State.calm_foldl (fun t h => ?_) _ s
  unfold State.retarget
  split
  · exact .refl t
  · exact ⟨rfl, rfl, rfl, rfl, rfl⟩

theorem State.calm_seedTier (s : State) (tier : Nat) : s.calm (s.seedTier tier) := by
  unfold State.seedTier
  extract_lets of old st
  have h : s.calm { s with store := st } := ⟨rfl, rfl, rfl, rfl, rfl⟩
  exact h.trans (State.calm_warn _ _)

/-- A bundle whose directions are as they were is not lost. -/
theorem State.lostBy_of_alike {s t : State} {b : Nat} (h : s.bundleAlike t b) : t.lostBy s b = false := by
  obtain ⟨-, -, -, hdir⟩ := h
  have h0 : (t.bundle b).d0.width = (s.bundle b).d0.width := (congrArg BundleDir.width (hdir false) :)
  have h1 : (t.bundle b).d1.width = (s.bundle b).d1.width := (congrArg BundleDir.width (hdir true) :)
  simp [State.lostBy, h0, h1]

theorem State.calm_laneTest_clean {s : State} (b : Nat) (d : Bool) (h : s.links.darnMap = []) : s.calm (s.laneTest b d []) := by
  rw [s.laneTest_clean b d h]
  exact ⟨rfl, rfl, rfl, rfl, rfl⟩

/-- A lane test that finds no bad wire, under an empty darn map, loses no bundle. -/
theorem State.calm_testBundle_clean {s : State} (b : Nat) (h : s.links.darnMap = []) : s.calm (s.testBundle [] b) := by
  unfold State.testBundle
  split
  · exact .refl s
  · extract_lets x s1 s2
    have h1 : s.calm s1 := ⟨rfl, rfl, rfl, rfl, rfl⟩
    have hmap1 : s1.links.darnMap = [] := h
    have ht := State.calm_laneTest_clean (s := s1) b false hmap1
    have hmap2 : (s1.laneTest b false []).links.darnMap = [] := ht.darnMap.trans h
    have halike : s1.bundleAlike s2 b := (s1.laneTest_alike b false hmap1).trans (State.laneTest_alike _ b true hmap2)
    rw [if_neg (Bool.eq_false_iff.1 (State.lostBy_of_alike halike))]
    exact (h1.trans ht).trans (State.calm_laneTest_clean b true hmap2)

theorem State.calm_testLanes_clean {s : State} (h : s.links.darnMap = []) : s.calm (s.testLanes []) := by
  suffices hl : ∀ (l : List Nat) (t : State), t.links.darnMap = [] →
      t.calm (l.foldl (fun (t : State) b => t.testBundle (([] : List BadWire).map BadWire.key) b) t) from hl _ s h
  intro l
  induction l with
  | nil => exact fun t _ => .refl t
  | cons b l ih =>
    intro t ht
    have hb : t.calm (t.testBundle [] b) := State.calm_testBundle_clean b ht
    exact hb.trans (ih _ (hb.darnMap.trans ht))

/-! The course of a start. -/

/-- How a start that fails at step `n` stands after step `k`: halted there, or under way with its work. -/
def State.course (s t : State) (n k : Nat) : Prop :=
  if n ≤ k then t.sys.state = 3 ∧ t.sys.step = n
  else t.sys = { s.sys with step := max 3 k } ∧ t.work = s.work ∧ t.links.darnMap = s.links.darnMap ∧
    t.store.flash = s.store.flash

theorem State.haltOn_sys (s : State) (i : LogItem) : (s.haltOn i).sys = { s.sys with state := 3 } := by
  have hn : (s.logPut { i with severity := 3 }).2.sys = s.sys := s.note_sys _
  unfold State.haltOn
  extract_lets r sys s1
  refine (State.raised_sys (State.raised_postBoth _ _ _)).trans ?_
  change { r.2.sys with state := 3 } = { s.sys with state := 3 }
  rw [hn]

theorem State.stepFail_sys (s : State) (n cause unit : Nat) : (s.stepFail n cause unit).sys = { s.sys with step := n, state := 3 } :=
  State.haltOn_sys _ _

/-- A step that does not fail acts and completes. -/
theorem State.startStep_passes {s : State} {fail : Option (Nat × Nat × Nat)} {n : Nat} {act : State → State} (hstate : s.sys.state = 1)
    (hfail : (fail.filter fun f => f.1 == n) = none) (hact : ({ s with sys := { s.sys with step := n } } : State).calm
      (act { s with sys := { s.sys with step := n } })) :
    s.startStep fail n act = (act { s with sys := { s.sys with step := n } }).stepDone n := by
  unfold State.startStep
  rw [if_neg (not_not_intro hstate), hfail]
  exact if_neg (not_not_intro ((congrArg Sys.state hact.sys).trans hstate))

/-- A start that fails at step `n`, or does not fail, and then `n` lies beyond its steps. -/
def failsAt (fail : Option (Nat × Nat × Nat)) (n : Nat) : Prop := fail = none ∧ 10 < n ∨ ∃ c u, fail = some (n, c, u)

theorem failsAt_filter {fail : Option (Nat × Nat × Nat)} {n k : Nat} (h : failsAt fail n) (hk : n ≠ k) :
    (fail.filter fun f => f.1 == k) = none := by
  obtain ⟨rfl, -⟩ | ⟨c, u, rfl⟩ := h
  · rfl
  · have hne : (n == k) = false := beq_eq_false_iff_ne.2 hk
    simp [Option.filter, hne]

theorem State.course.step {s t : State} {fail : Option (Nat × Nat × Nat)} {act : State → State} {n k : Nat} (h : s.course t n k)
    (hfail : failsAt fail n) (hk : 2 ≤ k ∧ k ≤ 9) (hstate : s.sys.state = 1)
    (hact : ∀ u : State, u.links.darnMap = s.links.darnMap → u.calm (act u)) : s.course (t.startStep fail (k + 1) act) n (k + 1) := by
  unfold State.course at h ⊢
  by_cases hpast : n ≤ k
  · rw [if_pos hpast] at h
    rw [if_pos (Nat.le_succ_of_le hpast)]
    have hskip : t.startStep fail (k + 1) act = t := if_pos (by rw [h.1]; decide)
    rw [hskip]
    exact h
  · rw [if_neg hpast] at h
    obtain ⟨hsys, hwork, hmap, hflash⟩ := h
    have ht : t.sys.state = 1 := (congrArg Sys.state hsys).trans hstate
    by_cases hn : n ≤ k + 1
    · rw [if_pos hn]
      obtain rfl : n = k + 1 := by omega
      obtain ⟨-, hlt⟩ | ⟨c, u, rfl⟩ := hfail
      · exact absurd hlt (by omega)
      · have hhalts : t.startStep (some (k + 1, c, u)) (k + 1) act = State.stepFail { t with sys := { t.sys with step := k + 1 } } (k + 1) c u := by
          unfold State.startStep
          rw [if_neg (not_not_intro ht)]
          simp [Option.filter]
        rw [hhalts, State.stepFail_sys]
        exact ⟨rfl, rfl⟩
    · rw [if_neg hn]
      have hcalm := hact { t with sys := { t.sys with step := k + 1 } } hmap
      rw [State.startStep_passes ht (failsAt_filter hfail (by omega)) hcalm]
      have hdone := hcalm.trans (State.calm_stepDone _ (k + 1))
      exact ⟨hdone.sys.trans (by rw [hsys, Nat.max_eq_right (by omega : 3 ≤ k + 1)]), hdone.work.trans hwork, hdone.darnMap.trans hmap,
        hdone.flash.trans hflash⟩

theorem Firmware.area_of_running {f : Firmware} (h : f.recovery = false) : f.area = f.flash := by
  simp [Firmware.area, h]

theorem failsAt_tier {fail : Option (Nat × Nat × Nat)} {n : Nat} (h : failsAt fail n) (tier : Option Nat) (ht : tier = none) :
    failsAt (if tier.isSome then none else fail) n := by
  subst ht
  exact h

theorem State.mem_of_anchor {s t : State} (h : t.anchor = s.anchor) : t.store.mem = s.store.mem := congrArg Anchor.mem h

/-- Step 7 of a start that does not fail zeroes the memory. -/
theorem State.course.zeroes {s t : State} {fail : Option (Nat × Nat × Nat)} {n : Nat} (h : s.course t n 6) (hfail : failsAt fail n)
    (hstate : s.sys.state = 1) (hpass : 10 < n) : (t.startStep fail 7 State.stepSeed).store.mem = [] := by
  unfold State.course at h
  rw [if_neg (by omega)] at h
  have ht : t.sys.state = 1 := (congrArg Sys.state h.1).trans hstate
  have hseeds := State.startStep_passes (n := 7) (act := State.stepSeed) ht (failsAt_filter hfail (by omega)) ⟨rfl, rfl, rfl, rfl, rfl⟩
  rw [hseeds]
  exact congrArg Anchor.mem (State.anchor_stepDone _ _)

/-- The steps 7 to 10 of a cold start. -/
def State.lastSteps (s : State) (fail : Option (Nat × Nat × Nat)) : State :=
  (((s.startStep fail 7 State.stepSeed).startStep fail 8 State.stepBeats).startStep fail 9 State.startTraining).startStep fail 10 id

/-- The last steps zero the memory, unless the start fails. -/
theorem State.course.last {s t : State} {fail : Option (Nat × Nat × Nat)} {n : Nat} (h : s.course t n 6) (hfail : failsAt fail n)
    (hstate : s.sys.state = 1) : s.course (t.lastSteps fail) n 10 ∧ (10 < n → (t.lastSteps fail).store.mem = []) := by
  have c7 := h.step (act := State.stepSeed) hfail (by decide) hstate fun _ _ => ⟨rfl, rfl, rfl, rfl, rfl⟩
  have c8 := c7.step (act := State.stepBeats) hfail (by decide) hstate fun _ _ => ⟨rfl, rfl, rfl, rfl, rfl⟩
  have c9 := c8.step hfail (by decide) hstate fun u _ => u.calm_startTraining
  have hmem : (t.lastSteps fail).anchor = (t.startStep fail 7 State.stepSeed).anchor :=
    ((State.anchor_startStep fun _ => rfl).trans (State.anchor_startStep State.anchor_startTraining)).trans
      (State.anchor_startStep State.anchor_stepBeats)
  exact ⟨c9.step (act := id) hfail (by decide) hstate fun u _ => .refl u,
    fun hpass => (State.mem_of_anchor hmem).trans (h.zeroes hfail hstate hpass)⟩

/-- A cold start with no bad wire, under an empty darn map, reaches step 6 as it should, and goes on from there. -/
theorem State.startSteps_course {s r : State} {fail : Option (Nat × Nat × Nat)} {n : Nat} (hmap : s.links.darnMap = []) (hfail : failsAt fail n)
    (hn : 3 ≤ n) (hr : s.startSteps false fail [] = r) :
    ∃ (t : State) (f : Option (Nat × Nat × Nat)), failsAt f n ∧ s.enabled.course t n 6 ∧
      ((t.lastSteps f).sys.state ≠ 1 → r = t.lastSteps f) ∧
      ((t.lastSteps f).sys.state = 1 → r = (t.lastSteps f).becomeReady.retargetAll) := by
  unfold State.startSteps at hr
  extract_lets tier fail1 old s0 s4 s6 s7 s10 at hr
  have htier : tier = none := by
    unfold tier
    split
    · rfl
    · rfl
  have hfail1 : failsAt fail1 n := failsAt_tier hfail tier htier
  have c2 : s.enabled.course s0 n 2 := by
    unfold State.course
    rw [if_neg (by omega)]
    exact ⟨rfl, rfl, rfl, rfl⟩
  have c3 := c2.step (act := id) hfail1 (by decide) rfl fun u _ => .refl u
  have c4 : s.enabled.course s4 n 4 := c3.step hfail1 (by decide) rfl fun u hu => State.calm_testLanes_clean (hu.trans hmap)
  have c6 : s.enabled.course s6 n 6 := by
    refine State.course.step (State.course.step c4 hfail1 (by decide) rfl fun u _ => ?_) hfail1 (by decide) rfl fun u _ => u.calm_stepPatch
    rw [htier]
    exact .refl u
  have h7 : s7 = s6.startStep fail1 7 State.stepSeed := if_neg Bool.false_ne_true
  have hlast : s6.lastSteps fail1 = s10 := congrArg
    (fun t : State => ((t.startStep fail1 8 State.stepBeats).startStep fail1 9 State.startTraining).startStep fail1 10 id) h7.symm
  refine ⟨s6, fail1, hfail1, c6, ?_⟩
  rw [hlast]
  refine ⟨fun h => ?_, fun h => ?_⟩
  · rw [if_pos h] at hr
    exact hr.symm
  · rw [if_neg (not_not_intro h)] at hr
    exact hr.symm

theorem State.becomeReady_ready (s : State) : s.becomeReady.sys.state = 2 ∧ s.becomeReady.sys.step = s.sys.step ∧
    s.becomeReady.sys.mainOn = s.sys.mainOn ∧ s.becomeReady.work = s.work := by
  unfold State.becomeReady
  extract_lets old s1
  split
  · unfold State.lcCheck
    split
    · exact ⟨rfl, rfl, rfl, rfl⟩
    · rw [State.sys_warn, State.work_warn]
      exact ⟨rfl, rfl, rfl, rfl⟩
  · exact ⟨rfl, rfl, rfl, rfl⟩

/-- A cold start with no bad wire, under an empty darn map, halts at the step that fails. -/
theorem State.startSteps_fails {s : State} {fail : Option (Nat × Nat × Nat)} {n : Nat} (hmap : s.links.darnMap = []) (hfail : failsAt fail n)
    (hn : 3 ≤ n) (hlast : n ≤ 10) : (s.startSteps false fail []).sys.state = 3 ∧ (s.startSteps false fail []).sys.step = n := by
  obtain ⟨t, f, hf, h6, hhalts, -⟩ := State.startSteps_course hmap hfail hn rfl
  have h10 := (h6.last hf rfl).1
  unfold State.course at h10
  rw [if_pos hlast] at h10
  rw [hhalts (by rw [h10.1]; decide)]
  exact h10

/-- A cold start with no failure and no bad wire, under an empty darn map, reaches READY with zeroed memory, and its work and flash stand. -/
theorem State.startSteps_ready {s : State} (hmap : s.links.darnMap = []) :
    (s.startSteps false none []).sys.state = 2 ∧ (s.startSteps false none []).sys.step = 10 ∧ (s.startSteps false none []).sys.mainOn = true ∧
      (s.startSteps false none []).store.mem = [] ∧ (s.startSteps false none []).store.flash = s.store.flash ∧
      (s.startSteps false none []).work = s.work := by
  have hnone : failsAt none 11 := .inl ⟨rfl, by decide⟩
  obtain ⟨t, f, hf, h6, -, hready⟩ := State.startSteps_course hmap hnone (by decide) rfl
  obtain ⟨h10, hmem⟩ := h6.last hf rfl
  unfold State.course at h10
  rw [if_neg (by decide)] at h10
  obtain ⟨hsys, hwork, -, hflash⟩ := h10
  rw [hready (congrArg Sys.state hsys)]
  obtain ⟨hstate, hstep, hmain, hkeeps⟩ := (t.lastSteps f).becomeReady_ready
  have hcalm := (t.lastSteps f).becomeReady.calm_retargetAll
  have hanchor := (t.lastSteps f).anchor_becomeReady
  refine ⟨?_, ?_, ?_, ?_, ?_, ?_⟩
  · exact (congrArg Sys.state hcalm.sys).trans hstate
  · exact (congrArg Sys.step hcalm.sys).trans (hstep.trans (congrArg Sys.step hsys))
  · exact (congrArg Sys.mainOn hcalm.sys).trans (hmain.trans (congrArg Sys.mainOn hsys))
  · exact (State.mem_of_anchor ((State.anchor_retargetAll _).trans hanchor)).trans (hmem (by decide))
  · exact hcalm.flash.trans ((congrArg Anchor.flash hanchor).trans hflash)
  · exact hcalm.work.trans (hkeeps.trans hwork)

/-- PWR_EN with nothing that holds the regulators off runs the steps. -/
theorem State.powerUp_starts {s : State} (fail : Option (Nat × Nat × Nat)) (h : s.mayPower = true) :
    ∃ u : State, s.calm u ∧ u.rects = s.rects ∧
    s.powerUp fail [] = u.startSteps false fail [] := by
  unfold State.powerUp
  rw [if_neg (by simp [h])]
  dsimp only
  split
  · exact ⟨_, s.calm_note _, congrArg Anchor.rects (s.anchor_note _), rfl⟩
  · exact ⟨s, .refl s, rfl, rfl⟩

end Sys2Proof.Machine

/-! Step 2, FW_COMMIT and the wear of the flash. -/

namespace Sys2Proof.Machine

/-! Step 2. -/

/-- `t` has the firmware, the time and the control state of `s`. -/
structure State.steady (s t : State) : Prop where
  fw   : t.fw = s.fw
  time : t.time = s.time
  sys  : t.sys = s.sys

theorem State.steady.trans {s t u : State} (h : s.steady t) (g : t.steady u) : s.steady u :=
  ⟨g.fw.trans h.fw, g.time.trans h.time, g.sys.trans h.sys⟩

theorem State.steady_note (s : State) (i : LogItem) : s.steady (s.note i) := by
  have h := s.logPut_shape i
  change s.steady (s.logPut i).2
  rw [h]
  exact ⟨rfl, rfl, rfl⟩

theorem State.steady_stepDone (s : State) (n : Nat) : s.steady (s.stepDone n) := by
  have h : s.steady (s.draw 64).2 := ⟨rfl, rfl, rfl⟩
  exact h.trans (State.steady_note _ _)

theorem State.steady_applyPatch (s : State) : s.steady s.applyPatch := by
  unfold State.applyPatch
  refine List.foldlRecOn (motive := fun t : State => s.steady t) _ _ ⟨rfl, rfl, rfl⟩ fun t ht c _ => ?_
  exact ht.trans ⟨rfl, rfl, rfl⟩

/-- Step 2 ends with the image of the flash running, and Valac up (R512, R531). -/
theorem State.stepTwo_runs {s : State} (h : s.fw.flashFails = 0) :
    (s.stepTwo true true none).sys = { s.sys with state := 0, step := 2, valacUp := true } ∧ (s.stepTwo true true none).time = s.time ∧
      (s.stepTwo true true none).fw = { s.fw with running := s.fw.flash, recovery := false } ∧
      (s.stepTwo true true none).links.darnMap = s.fw.darn := by
  unfold State.stepTwo
  extract_lets old s0 failing fw s1 s2 f s3 links sys
  have hsteady : s1.steady s3 := ((s1.steady_note _).trans (State.steady_applyPatch _)).trans (State.steady_stepDone _ 2)
  rw [if_neg (not_not_intro h)]
  refine ⟨?_, hsteady.time, hsteady.fw, (congrArg Firmware.darn hsteady.fw :)⟩
  exact congrArg (fun x : Sys => { x with valacUp := true }) hsteady.sys

/-- An image that fails its checks brings the recovery loader (R516). -/
theorem State.stepTwo_recovers {s : State} (h : s.fw.flashFails ≠ 0) :
    (s.stepTwo true true none).sys = { s.sys with state := 0, step := 2, valacUp := true } ∧ (s.stepTwo true true none).fw.recovery = true := by
  unfold State.stepTwo
  extract_lets old s0 failing fw s1 s2 f s3 links sys
  rw [if_pos h]
  unfold State.loader
  extract_lets img s4 fw4 sys4
  have hsys : s4.sys = s0.sys := s0.note_sys _
  refine ⟨?_, rfl⟩
  exact congrArg (fun x : Sys => { x with state := 0, step := 2, valacUp := true }) hsys

/-- Step 1 has begun: standby power is on, and the meridian goes on from the last entry of the log (R406, R531). -/
def State.awake (s : State) : State :=
  let last := match s.log.flash.getLast? with | some e => e.time.toNat | none => 0
  let time : Meridian := { source := s.time.source, domain := s.time.domain, master := last, state := if s.time.source = 2 then .free else .unset }
  { s with time := time, sys := { s.sys with standby := true, state := 0, step := 1 } }

theorem State.coldStart_of_disabled {s : State} (hp : s.sys.pwrEn = false) :
    s.coldStart true none = (s.awake.stepDone 1).stepTwo true true none := by
  have hoff : ((s.awake.stepDone 1).stepTwo true true none).sys.pwrEn = false := by
    have hanchor : ((s.awake.stepDone 1).stepTwo true true none).anchor = s.awake.anchor := by
      rw [State.anchor_stepTwo, State.anchor_stepDone]
    exact (congrArg Anchor.pwrEn hanchor).trans hp
  exact State.powerUpFree_of_disabled hoff

theorem execStandbyPowerGood_cold {s : State} (hs : s.sys.standby = false) (hp : s.sys.pwrEn = false) :
    execStandbyPowerGood true true s = .next ((s.awake.stepDone 1).stepTwo true true none) := by
  rw [← State.coldStart_of_disabled hp]
  exact congrArg Host.Outcome.next ((if_neg (by simp [hs])).trans (if_pos rfl))

/-! FW_COMMIT and the wear of the flash. -/

/-- The end of a commit ends its operation and the claim; the image in flash stands but under the recovery loader. -/
theorem State.endCommit_ends {s : State} (o : Op) (status : Nat) (value : List Byte) (hrec : s.fw.recovery = false) :
    (s.endCommit o status value).ended o.id ∧ (s.endCommit o status value).cores = s.cores ∧
      (s.endCommit o status value).fw.claim = none ∧ (s.endCommit o status value).fw.staged = [] ∧
      (s.endCommit o status value).fw.flash = s.fw.flash ∧ (s.endCommit o status value).fw.running = s.fw.running := by
  unfold State.endCommit
  generalize hx : s.audit 0x0801 o.cmd.role 0xFF status 0 (imageOf s.fw.staged 0).version value = x
  have hr := x.raised_opDone o.id status false []
  have hrecovery : (x.opDone o.id status false []).fw.recovery = false := by
    refine (congrArg (fun u : State => u.fw.recovery) hr.2 :).trans ?_
    rw [← hx]
    exact hrec
  have hflash : (x.opDone o.id status false []).fw.flash = s.fw.flash := by
    refine (congrArg (fun u : State => u.fw.flash) hr.2 :).trans ?_
    rw [← hx]
    rfl
  have hrunning : (x.opDone o.id status false []).fw.running = s.fw.running := by
    refine (congrArg (fun u : State => u.fw.running) hr.2 :).trans ?_
    rw [← hx]
    rfl
  have hcores : (x.opDone o.id status false []).cores = s.cores := by
    refine (State.raised_cores hr).trans ?_
    rw [← hx]
    rfl
  have hended : (x.opDone o.id status false []).ended o.id := State.ended_of_raised hr
  exact ⟨hended, hcores, rfl, rfl, (Firmware.area_of_running hrecovery).trans hflash, hrunning⟩

/-- A commit whose image passes, and is programmed, leaves it in flash; one that fails leaves the flash. -/
theorem State.commitDone_programmed {s : State} (o : Op) (hrec : s.fw.recovery = false) :
    (s.commitDone o true).ended o.id ∧ (s.commitDone o true).fw.claim = none ∧ (s.commitDone o true).cores = s.cores ∧
      if imageCheck s.fw.staged s.fw.floor = 0 then (s.commitDone o true).fw.flash = imageOf s.fw.staged 0 ∧
        (s.commitDone o true).fw.staged = [] ∧ (s.commitDone o true).fw.running = s.fw.running
      else (s.commitDone o true).fw.flash = s.fw.flash := by
  unfold State.commitDone
  by_cases h : imageCheck s.fw.staged s.fw.floor = 0
  · obtain ⟨hended, hcores, hclaim, hstaged, -, hrunning⟩ :=
      State.endCommit_ends o stSuccess ((shake256 s.fw.stagedBytes).take 32) hrec
    rw [if_neg (not_not_intro h), if_pos h]
    simp only [if_true, hrec, Bool.false_eq_true, if_false]
    exact ⟨hended, hclaim, hcores, trivial, hstaged, hrunning⟩
  · rw [if_pos h, if_neg h]
    obtain ⟨hended, hcores, hclaim, -, hflash, -⟩ := State.endCommit_ends o (if imageCheck s.fw.staged s.fw.floor = 1 then stInvalid
      else if imageCheck s.fw.staged s.fw.floor ≤ 6 then stVerify else stNotPermitted) [] hrec
    exact ⟨hended, hclaim, hcores, hflash⟩

theorem State.fw_deviceError (s : State) (i : LogItem) : (s.deviceError i).fw.flash = s.fw.flash ∧ (s.deviceError i).fw.claim = s.fw.claim ∧
    (s.deviceError i).valac.ops = s.valac.ops := by
  obtain ⟨log, h⟩ := s.deviceError_raised i
  exact ⟨(congrArg (fun u : State => u.fw.flash) h.2 :), (congrArg (fun u : State => u.fw.claim) h.2 :), (State.raised_ops h :)⟩

/-- A commit whose programming fails halts the module with no valid image (R515). -/
theorem State.commitDone_failed {s : State} (o : Op) (hrec : s.fw.recovery = false) :
    (s.commitDone o false).ended o.id ∧ (s.commitDone o false).fw.claim = none ∧
      if imageCheck s.fw.staged s.fw.floor = 0 then (s.commitDone o false).sys.state = 3 ∧ (s.commitDone o false).fw.flash.failing ≠ 0
      else (s.commitDone o false).fw.flash = s.fw.flash ∧ (s.commitDone o false).cores = s.cores := by
  unfold State.commitDone
  by_cases h : imageCheck s.fw.staged s.fw.floor = 0
  · rw [if_neg (not_not_intro h), if_pos h]
    extract_lets u fw s2 p r st off c s1 fw1
    rw [if_neg Bool.false_ne_true]
    obtain ⟨hended, -, hclaim, -⟩ := State.endCommit_ends (s := c.2) o (1 + st.1.toNat % 10) [] hrec
    obtain ⟨hflash, hkeeps, hops⟩ := State.fw_deviceError { s1 with fw := { fw1 with flash := { failing := 1 + c.1.toNat % 6 } } }
      { code := 0x0803, severity := 3, data := leBytes 4 off.1.toNat }
    refine ⟨fun x hx => hended x (hops ▸ hx), hkeeps.trans hclaim, State.sysState_deviceError _ _, ?_⟩
    rw [hflash]
    change 1 + c.1.toNat % 6 ≠ 0
    omega
  · rw [if_pos h, if_neg h]
    obtain ⟨hended, hcores, hclaim, -, hflash, -⟩ := State.endCommit_ends o (if imageCheck s.fw.staged s.fw.floor = 1 then stInvalid
      else if imageCheck s.fw.staged s.fw.floor ≤ 6 then stVerify else stNotPermitted) [] hrec
    exact ⟨hended, hclaim, hflash, hcores⟩

theorem State.flashCtrl_warn (s : State) (i : LogItem) (k : Nat) : (s.warn i).flashCtrl k = s.flashCtrl k :=
  congrArg (fun f : Fabric => SMap.get ({} : FlashCtrl) f.flash k) (s.fab_warn i)

/-- The health that a flash controller reports is kept (R271, R272). -/
theorem execBadBlockRetired_health (k : HubIdx) (ch : Fin 16) (spare wear : Byte) (b : Bool) (s : State) :
    ∃ t, execBadBlockRetired k ch spare wear b s = .next t ∧
      t.flashCtrl k = { sparePct := spare.toNat, wearPct := wear.toNat, readOnly := (s.flashCtrl k).readOnly || b } ∧
      (∀ j, j ≠ k.val → t.flashCtrl j = s.flashCtrl j) ∧ t.store = s.store := by
  unfold execBadBlockRetired
  extract_lets x s1 s2
  have h1 : s1.flashCtrl k = { sparePct := spare.toNat, wearPct := wear.toNat, readOnly := x.readOnly || b } := s.flashCtrl_setFlashCtrl_self k _
  have hothers : ∀ j, j ≠ k.val → s1.flashCtrl j = s.flashCtrl j := fun j hj => (s.flashCtrl_setFlashCtrl k _ j).trans (if_neg hj.symm)
  have h2 : (∀ j, s2.flashCtrl j = s1.flashCtrl j) ∧ s2.store = s.store := by
    unfold s2
    split
    · exact ⟨fun j => s1.flashCtrl_warn _ j, s1.store_warn _⟩
    · exact ⟨fun _ => rfl, rfl⟩
  split
  · refine ⟨_, rfl, ?_, fun j hj => ?_, (s2.store_warn _).trans h2.2⟩
    · rw [State.flashCtrl_warn, h2.1, h1]
    · rw [State.flashCtrl_warn, h2.1, hothers j hj]
  · exact ⟨_, rfl, (h2.1 k).trans h1, fun j hj => (h2.1 j).trans (hothers j hj), h2.2⟩

end Sys2Proof.Machine

/-! A warm reset and the start: O59. -/

namespace Sys2Proof.Machine

/-! A warm reset. -/

/-- No launch, no queue and no operation is left. -/
structure State.idle (s : State) : Prop where
  launches : s.work.launches = []
  queues   : s.work.queues = []
  ops      : s.valac.ops = []

theorem State.idle.calm {s t : State} (h : s.idle) (g : s.calm t) : t.idle :=
  ⟨(congrArg Work.launches g.work).trans h.launches, (congrArg Work.queues g.work).trans h.queues, g.ops.trans h.ops⟩

/-- `t` is idle as `s` is, and in its state. -/
structure State.lulls (s t : State) : Prop where
  idle  : s.idle → t.idle
  state : t.sys.state = s.sys.state

theorem State.calm.lulls {s t : State} (h : s.calm t) : s.lulls t := ⟨fun g => g.calm h, congrArg Sys.state h.sys⟩

theorem State.lulls.trans {s t u : State} (h : s.lulls t) (g : t.lulls u) : s.lulls u := ⟨g.idle ∘ h.idle, g.state.trans h.state⟩

theorem State.lulls_lcCheck (s : State) (b : Nat) : s.lulls (s.lcCheck b) := by
  unfold State.lcCheck
  split
  · exact ⟨id, rfl⟩
  · have h : s.lulls { s with sys := { s.sys with lcDegraded := true } } := ⟨fun g => ⟨g.launches, g.queues, g.ops⟩, rfl⟩
    exact h.trans (State.calm_warn _ _).lulls

theorem State.lulls_laneTest (s : State) (b : Nat) (d : Bool) (found : List (Nat × Bool × Nat × Nat)) : s.lulls (s.laneTest b d found) := by
  unfold State.laneTest
  extract_lets map mine x old y s1 s2
  have h1 : s.calm s1 := ⟨rfl, rfl, rfl, rfl, rfl⟩
  have h2 : s1.calm s2 := State.calm_foldl (fun t _ => t.calm_warn _) _ s1
  split
  · exact ((h1.trans h2).trans (s2.calm_warn _)).lulls.trans (State.lulls_lcCheck _ b)
  · exact (h1.trans h2).lulls

theorem State.haltOn_raised (s : State) (i : LogItem) : ∃ log, (s.stopped log).raised (s.haltOn i) := by
  refine ⟨(s.logPut { i with severity := 3 }).2.log, ?_⟩
  have hput := s.logPut_shape { i with severity := 3 }
  unfold State.haltOn State.stopped
  dsimp only
  rw [hput]
  exact State.raised_postBoth _ _ _

theorem State.idle_haltOn {s : State} (i : LogItem) (h : s.idle) : (s.haltOn i).idle := by
  obtain ⟨log, hr⟩ := s.haltOn_raised i
  have hstopped : (s.stopped log).idle := ⟨h.launches, h.queues, h.ops⟩
  exact hstopped.calm (State.calm_of_raised hr)

theorem State.idle_stepFail {s : State} (n cause unit : Nat) (h : s.idle) : (s.stepFail n cause unit).idle :=
  State.idle_haltOn (s := { s with sys := { s.sys with step := n } }) _ ⟨h.launches, h.queues, h.ops⟩

theorem State.abortRunning_of_idle {s : State} (h : s.idle) (reason : Nat) : s.abortRunning reason = s := by
  simp [State.abortRunning, h.launches]

/-- A bundle that is lost at a start, with no launch to abort. -/
theorem State.idle_loseBundle {s : State} (b : Nat) (h : s.idle) (hstate : s.sys.state = 1) : (s.loseBundle b).idle := by
  unfold State.loseBundle
  extract_lets x data s1 s3 s2
  have h1 : s1.idle := ⟨h.launches, h.queues, h.ops⟩
  have h2 : s2.idle := by
    unfold s2
    rw [if_pos hstate]
    exact h1.calm (s1.calm_warn _)
  split
  · exact (s2.lulls_lcCheck b).idle h2
  · rw [State.abortRunning_of_idle h1]
    exact (State.lulls_lcCheck _ b).idle (State.idle_haltOn _ h1)

theorem State.idle_testBundle {s : State} (found : List (Nat × Bool × Nat × Nat)) (b : Nat) (h : s.idle) : (s.testBundle found b).idle := by
  unfold State.testBundle
  split
  · exact h
  · next hstate =>
    extract_lets x s1 s2
    have h1 : s.lulls s1 := ⟨fun g => ⟨g.launches, g.queues, g.ops⟩, rfl⟩
    have h2 : s.lulls s2 := (h1.trans (s1.lulls_laneTest b false found)).trans (State.lulls_laneTest _ b true found)
    split
    · exact State.idle_loseBundle b (h2.idle h) (h2.state.trans (not_not.1 hstate))
    · exact h2.idle h

theorem State.idle_testLanes {s : State} (bad : List BadWire) (h : s.idle) : (s.testLanes bad).idle :=
  List.foldlRecOn (motive := State.idle) _ _ h fun _ ht b _ => State.idle_testBundle _ b ht

theorem State.idle_startStep {s : State} {fail : Option (Nat × Nat × Nat)} {n : Nat} {act : State → State} (h : s.idle)
    (hact : ∀ t : State, t.idle → (act t).idle) : (s.startStep fail n act).idle := by
  unfold State.startStep
  split
  · exact h
  · extract_lets old s1 s2
    have h1 : s1.idle := ⟨h.launches, h.queues, h.ops⟩
    split
    · exact State.idle_stepFail _ _ _ h1
    · split
      · exact hact s1 h1
      · exact (hact s1 h1).calm (State.calm_stepDone _ n)

theorem State.idle_startSteps {s : State} (warm : Bool) (fail : Option (Nat × Nat × Nat)) (bad : List BadWire) (h : s.idle) :
    (s.startSteps warm fail bad).idle := by
  unfold State.startSteps
  extract_lets tier fail1 old s0 s4 s6 s7 s10
  have h0 : s0.idle := ⟨h.launches, h.queues, h.ops⟩
  have h4 : s4.idle := State.idle_startStep (State.idle_startStep h0 fun _ => id) fun t => State.idle_testLanes bad
  have h6 : s6.idle := by
    refine State.idle_startStep (State.idle_startStep h4 fun t ht => ?_) fun t ht => ht.calm t.calm_stepPatch
    cases tier with
    | some k => exact ht.calm (t.calm_seedTier k)
    | none => exact ht
  have h7 : s7.idle := by
    unfold s7
    split
    · exact h6
    · exact State.idle_startStep h6 fun t ht => ⟨ht.launches, ht.queues, ht.ops⟩
  have h10 : s10.idle := State.idle_startStep (State.idle_startStep (State.idle_startStep h7 fun t ht => ⟨ht.launches, ht.queues, ht.ops⟩)
    fun t ht => ht.calm t.calm_startTraining) fun _ => id
  split
  · exact h10
  · refine State.idle.calm ?_ (State.calm_retargetAll _)
    unfold State.becomeReady
    extract_lets old s11
    have h11 : s11.idle := ⟨h10.launches, h10.queues, h10.ops⟩
    split
    · exact (State.lulls_lcCheck _ _).idle h11
    · exact h11

theorem State.idle_powerUpFree {s : State} (h : s.idle) : s.powerUpFree.idle := by
  unfold State.powerUpFree
  split
  · exact h
  · extract_lets k c u n ws
    have hws : ws.2.idle := by
      unfold ws
      rw [State.freeWires_free]
      exact ⟨h.launches, h.queues, h.ops⟩
    unfold State.powerUp
    split
    · exact hws
    · dsimp only
      split
      · exact State.idle_startSteps _ _ _ (hws.calm (ws.2.calm_note _))
      · exact State.idle_startSteps _ _ _ hws

theorem State.idle_stepTwo {s : State} (cold pufOk : Bool) (record : Option Nat) (h : s.idle) : (s.stepTwo cold pufOk record).idle := by
  unfold State.stepTwo
  extract_lets old s0 failing fw s1 s2 f s3 links sys
  have h1 : s1.idle := ⟨h.launches, h.queues, h.ops⟩
  have h2 : s2.idle := by
    unfold s2
    split
    · exact h1.calm (s1.calm_note _)
    · exact h1
  have hf : f.2.idle := h2.calm (s2.calm_draw 3)
  split
  · unfold State.loader
    have h0 : s0.idle := ⟨h.launches, h.queues, h.ops⟩
    have hnoted := h0.calm (s0.calm_note (if failing = 1 || failing = 7 then
      { code := 0x0801, severity := 1, data := leBytes 4 s0.fw.flash.version ++ leBytes 1 s0.fw.flash.secver }
      else { code := 0x0802, severity := 1, data := leBytes 1 failing }))
    exact ⟨hnoted.launches, hnoted.queues, hnoted.ops⟩
  · split
    · exact State.idle_stepFail _ _ _ (hf.calm (f.2.calm_note _))
    · split
      · next _ c =>
        have hfail := State.idle_stepFail 2 (1 + f.1.toNat % 5) 0 (hf.calm (f.2.calm_note { code := 0x0805, severity := 3, cause := c }))
        exact ⟨hfail.launches, hfail.queues, hfail.ops⟩
      · have h3 : s3.idle := h2.calm (s2.calm_applyPatch.trans (State.calm_stepDone _ 2))
        exact ⟨h3.launches, h3.queues, h3.ops⟩

theorem State.idle_warmDrop (s : State) : s.warmDrop.idle := by
  unfold State.warmDrop
  refine List.foldlRecOn (motive := State.idle) _ _ ⟨rfl, rfl, rfl⟩ fun t ht e _ => ?_
  split
  · unfold State.writeMask
    exact List.foldlRecOn (motive := State.idle) _ _ ht fun u hu h _ => ⟨hu.launches, hu.queues, hu.ops⟩
  · exact ht

/-- A warm reset leaves no launch, no queue and no operation, whatever its start finds. -/
theorem State.idle_warmReset (s : State) (role : Nat) (fail : Option (Nat × Nat × Nat)) (bad : List BadWire) :
    (s.warmReset role fail bad).idle := by
  unfold State.warmReset
  extract_lets r s1
  have h1 : s1.idle := State.idle_stepTwo _ _ _ (State.idle_warmDrop _)
  split
  · exact h1
  · split
    · exact State.idle_startSteps _ _ _ h1
    · exact State.idle_powerUpFree h1

theorem State.rects_warmReset (s : State) (role : Nat) (fail : Option (Nat × Nat × Nat)) (bad : List BadWire) :
    (s.warmReset role fail bad).rects = s.rects := by
  obtain ⟨u, hu, h | h | ⟨-, h⟩⟩ := s.warmReset_cases role fail bad
  · rw [h]
    exact hu.rects
  · rw [h]
    obtain ⟨hsame, -⟩ | ⟨hstart, -⟩ := u.powerUpFree_cases
    · rw [hsame]
      exact hu.rects
    · exact hstart.rects.trans hu.rects
  · rw [h]
    exact (u.startSteps_rewrites true fail bad).rects.trans hu.rects

/-- WARM_RESET is answered, and the reset follows. -/
theorem exec_warmReset_resets {s : State} {c : Cmd} (fail : Option (Nat × Nat × Nat)) (bad : List BadWire) (hd : s.doing c 0x0A01 4 [(1, 3)])
    (harg : c.arg 0 1 ≤ 1) (hcommit : s.committing = false) (hquiet : c.arg 0 1 = 1 ∨ s.unquiesced = 0) :
    ∃ u : State, exec (.warmReset fail bad) s = .next (u.warmReset c.role fail bad) ∧ s.answered u c 0 [] := by
  have hrule : (c.arg 0 1 == 0 && s.unquiesced != 0) = false := by
    obtain h | h := hquiet <;> simp [h]
  refine State.runThen_of_check (instr := .warmReset fail bad) (after := fun c s1 => s1.warmReset c.role fail bad) hd rfl rfl
    (State.doing_args hd ?_) ?_
  · simpa using harg
  · simp [hcommit, hrule]

theorem execFwCommitComplete_done {s : State} {o : Op} (ho : s.opOf 0x0801 = some o) (programmed : Bool) :
    execFwCommitComplete programmed s = .next (s.commitDone o programmed) := by
  simp only [execFwCommitComplete, ho]

/-- Settles O59, by the steps that pass before the one that fails, and by what a warm reset and a commit leave. -/
theorem startUp : Obligations.StartUp := by
  unfold Obligations.StartUp
  refine fun s => ⟨fun hs hp => ⟨fun hflash => ?image, fun hflash => ?recovery⟩, fun hs => ?lost, fun hp hq => ⟨fun hhot => ?hot,
      fun hup hrec hstate htrip hign hcut hcool hmap => ?power⟩, fun c fail bad hd harg hcommit hquiet => ?warm,
    fun o ho hrec => ⟨?programmed, ?failed⟩,
    fun k ch spare wear b => execBadBlockRetired_health k ch spare wear b s⟩
  case image =>
    have hd := s.awake.steady_stepDone 1
    have hpass : (s.awake.stepDone 1).fw.flashFails = 0 := by rw [hd.fw]; exact hflash
    obtain ⟨hsys, htime, hfw, hlinks⟩ := State.stepTwo_runs hpass
    refine ⟨_, execStandbyPowerGood_cold hs hp, ?_, congrArg Sys.valacUp hsys, congrArg Sys.state hsys, congrArg Sys.step hsys,
      congrArg Firmware.recovery hfw, ?_, ?_, ?_⟩
    · exact (congrArg Sys.standby hsys).trans (congrArg Sys.standby hd.sys)
    · exact (congrArg Firmware.running hfw).trans (congrArg Firmware.flash hd.fw)
    · exact hlinks.trans (congrArg Firmware.darn hd.fw)
    · exact congrArg Meridian.state (htime.trans hd.time)
  case recovery =>
    have hd := s.awake.steady_stepDone 1
    have hfails : (s.awake.stepDone 1).fw.flashFails ≠ 0 := by rw [hd.fw]; exact hflash
    obtain ⟨hsys, hrec⟩ := State.stepTwo_recovers hfails
    refine ⟨_, execStandbyPowerGood_cold hs hp, ?_, hrec, congrArg Sys.valacUp hsys, congrArg Sys.state hsys, congrArg Sys.step hsys⟩
    exact (congrArg Sys.standby hsys).trans (congrArg Sys.standby hd.sys)
  case lost => exact ⟨s.unpowered, congrArg Host.Outcome.next (if_pos hs), rfl, rfl, rfl, rfl, rfl, rfl, rfl, rfl, rfl, rfl⟩
  case hot =>
    refine ⟨_, execPwrEnAssert_of_hot none [] hp hhot, ?_⟩
    obtain h | h := hhot <;> simp [State.asserted, h]
  case power =>
    have hmay : s.asserted.mayPower = true := by simp [State.mayPower, State.asserted, hup, hrec, hstate, htrip, hcut, hcool]
    have hexec (fail : Option (Nat × Nat × Nat)) : execPwrEnAssert fail [] s = .next (s.asserted.powerUp fail []) := by
      rw [execPwrEnAssert_eq, if_neg (by simp [hp]), if_neg (by simp [State.asserted, hq])]
    refine ⟨?_, fun n cause unit hlo hhi => ?_⟩
    · obtain ⟨u, hcalm, hrects, hstart⟩ := State.powerUp_starts none hmay
      obtain ⟨h1, h2, h3, h4, h5, h6⟩ := State.startSteps_ready (s := u) (hcalm.darnMap.trans hmap)
      rw [← hstart] at h1 h2 h3 h4 h5 h6
      refine ⟨_, hexec none, h1, h2, h3, h4, h5.trans hcalm.flash, ?_, h6.trans hcalm.work⟩
      rw [hstart]
      exact (u.startSteps_rewrites false none []).rects.trans hrects
    · obtain ⟨u, hcalm, hrects, hstart⟩ := State.powerUp_starts (some (n, cause, unit)) hmay
      obtain ⟨h1, h2⟩ := State.startSteps_fails (s := u) (hcalm.darnMap.trans hmap) (.inr ⟨cause, unit, rfl⟩) hlo hhi
      rw [← hstart] at h1 h2
      refine ⟨_, hexec _, h1, h2, ?_⟩
      rw [hstart]
      exact (u.startSteps_rewrites false _ []).rects.trans hrects
  case warm =>
    obtain ⟨u, hexec, hans⟩ := exec_warmReset_resets fail bad hd harg hcommit hquiet
    have hidle := u.idle_warmReset c.role fail bad
    have hrects : u.rects = s.rects := by
      obtain ⟨-, -, -, -, -, -, hrest⟩ := hans
      exact (congrArg State.rects hrest :)
    refine ⟨_, u, hexec, hans, rfl, hidle.launches, fun q => ?_, hidle.ops, (u.rects_warmReset _ _ _).trans hrects⟩
    unfold State.queue
    rw [hidle.queues]
    rfl
  case programmed => exact ⟨_, execFwCommitComplete_done ho _, State.commitDone_programmed o hrec⟩
  case failed => exact ⟨_, execFwCommitComplete_done ho _, State.commitDone_failed o hrec⟩

end Sys2Proof.Machine
